-- ==== Sys2Proof/Word.lean ====
section
/-! DEFINITION. The word types of the model. -/

namespace Sys2Proof

/-- The smallest addressable unit of memory (R10). -/
abbrev Byte := BitVec 8

/-- A 32-bit register or an FP32 encoding. -/
abbrev Word32 := BitVec 32

/-- A 64-bit register word. -/
abbrev Word64 := BitVec 64

/-- A sparse table by index, with strictly rising keys; an unlisted index holds the entry's reset value. -/
abbrev Table (α : Type) := List (Nat × α)

end Sys2Proof
end

