-- ==== Sys2Proof/Syntax.lean ====
section
/-! DEFINITION. The commands of the block: one constructor of `Instr` per row of spec/opcode_table.json, with the
operand types they carry. Every command carries `t`, the instant in ns at which it happens (log entry 1). -/

namespace Sys2Proof

/-- The two halves (R2, R18). -/
inductive Half where
  | a
  | b
deriving DecidableEq, Repr

/-- The worlds of an access (R471). -/
inductive World where
  | secure
  | nonSecure
deriving DecidableEq, Repr

/-- A requester's channel to the object dictionary (R434, R435, R445). -/
inductive Channel where
  | sdio
  | can (h : Half)
  | dirS (h : Half)
  | dirNs (h : Half)
deriving DecidableEq, Repr

/-- A writer of a Dolly register or of a bank, by its initiator tag (R181, R182). -/
inductive Writer where
  /-- Director code acting for a job, or a thread of its command. -/
  | job (ctx : Nat) (world : World)
  /-- Secure firmware acting for no job. -/
  | firmware
  /-- The continuity island. -/
  | island
  /-- Host PCIe, or the SDIO port's Function 2 in the world given. -/
  | host (world : World)
deriving DecidableEq, Repr

/-- A hardware disturbance of one accumulator of an array command: `delta * 2^exp` is added to the accumulator of row
`row`, column `col` of pass `pass`, before the check column's comparison (R140, R141). Passes count from 0 in the order
in which the command runs them; the row and column of MMUL, CONV and TCONV are those of the output, so that they alone
tell the accumulator. -/
structure Upset where
  pass : Nat
  row : Nat
  col : Nat
  delta : Int
  exp : Int
deriving DecidableEq, Repr

/-- What the (39,32) check finds on one line of a bank (R176, R177). -/
inductive LineCheck where
  | ok
  | corrected (syndrome : Nat)
  | uncorrectable (word syndrome : Nat)
deriving DecidableEq, Repr

/-- A half's PCIE_PERST_N pin and the level it takes: the row's deassertion, or the assertion that comes before it. -/
structure PerstPin where
  half : Half
  deasserted : Bool := true
deriving DecidableEq, Repr

/-- The initiator's port of an HBM request (R293, R301). -/
inductive HbmPort where
  | dolly (ctx : Nat)
  | horizon
  /-- A Director core, acting for a job or for none. -/
  | director (job : Option Nat)
  | island
  | pcie
deriving DecidableEq, Repr

/-- What the read checks of R298 find. -/
inductive HbmCheck where
  | ok
  | corrected
  | onDie
  | ue (syndrome : Nat)
  | converter
deriving DecidableEq, Repr

/-- A print: the job context that prints, and what the check of R176 finds in the line of each atomic of its print log, in
order. -/
structure Printing where
  ctx : Nat
  checks : List LineCheck := []
deriving DecidableEq, Repr

/-- A read response: what the checks find, and whether it answers a request that its killed command left behind (R300), where a
retake has asked for the line again. -/
structure HbmAnswer where
  check : HbmCheck
  stale : Bool := false
deriving DecidableEq, Repr

/-- What the write checks of R297 find. -/
inductive HbmWriteCheck where
  | ok
  | corrected
  | badInput
  | converter
deriving DecidableEq, Repr

/-- What the (39,32) check finds on one Contrail flit (R305). -/
inductive FlitCheck where
  | ok
  | corrected (words : Nat)
  | uncorrectable
deriving DecidableEq, Repr

/-- A control message of Contrail (R306). -/
inductive CtrMessage where
  /-- A cue signal. -/
  | signal (cue amount : Nat)
  /-- A consuming acquisition for a command of job context `ctx` of the sender. -/
  | acquire (ctx cue amount : Nat)
  /-- A non-consuming wait. -/
  | wait (ctx cue value : Nat)
  /-- The home half's answer: the acquisition was granted or the wait is satisfied. -/
  | granted (ctx cue amount : Nat)
  /-- A command of job context `ctx` of the sender asks for the print token of a camera's frame (R343). -/
  | tokenAsk (ctx camera seq : Nat)
  /-- The home half's answer to the request of the receiver's job context `ctx` (R343). -/
  | tokenAnswer (ctx : Nat) (granted : Bool)
  /-- The kill notice of the sender's command of job context `ctx` (R308). -/
  | killed (ctx : Nat)
  /-- The kill notice of the receiver's runs of a camera's frame, whose token the sender has taken (R343). -/
  | stopRuns (camera seq : Nat)
  /-- A data packet of the receiver's command of job context `ctx` has been written (R307). -/
  | written (ctx : Nat)
deriving DecidableEq, Repr

/-- The verdicts of a core self-test (R357). -/
inductive Verdict where
  | mainFail
  | checkerFail
  | bothPass
  | bothFail
deriving DecidableEq, Repr

/-- One failing bit column found by the bank-pool BIST (R424, R426). -/
structure BistColumn where
  bank : Nat
  line : Nat
  bit : Nat
  phase : Nat
  failCount : Nat
deriving DecidableEq, Repr

/-- The stages of the boot chain (R480); `services` is the last row of R467. -/
inductive BootStage where
  | fs
  | isl
  | zen
  | dirS
  | dirNs
  | slate
  | services
deriving DecidableEq, Repr

/-- What a debugger write goes to (R356). -/
inductive DebugTarget where
  /-- A register, or private state, of the main copy. -/
  | copy (reg : Nat)
  /-- Memory, through the pair's shared port. -/
  | memory (addr : Nat)
deriving DecidableEq, Repr

/-- The commands of the block, one constructor per row of the table. -/
inductive Instr where
  /-- MMUL (R116): Matrix multiply command that runs on the array and then through the post-unit stages. -/
  | mmul (t : Nat) (h : Half) (ctx : Nat) (upset : Option Upset)
  /-- CONV (R118): 2-D convolution command whose windows are assembled by window threads. -/
  | conv (t : Nat) (h : Half) (ctx : Nat) (upset : Option Upset)
  /-- TCONV (R119): Transposed convolution command, run as stride phases. -/
  | tconv (t : Nat) (h : Half) (ctx : Nat) (upset : Option Upset)
  /-- POOL (R120): Post-unit pooling command: maximum, average or global. -/
  | pool (t : Nat) (h : Half) (ctx : Nat)
  /-- RSMP (R121): Post-unit resampling command: nearest, bilinear or area. -/
  | rsmp (t : Nat) (h : Half) (ctx : Nat)
  /-- EWISE (R122): Post-unit elementwise function command, including PREFIX_MATCH. -/
  | ewise (t : Nat) (h : Half) (ctx : Nat)
  /-- NORM (R124): Post-unit layer or RMS normalisation command. -/
  | norm (t : Nat) (h : Half) (ctx : Nat)
  /-- ATTN (R213): Attention command with streaming softmax over a paged KV cache. -/
  | attn (t : Nat) (h : Half) (ctx : Nat) (upset : Option Upset)
  /-- ATTB (R226): Attention backward command that writes dQ, dK and dV. -/
  | attb (t : Nat) (h : Half) (ctx : Nat) (upset : Option Upset)
  /-- TOPK (R127): Ranks the scores of each list and writes K values and indices. -/
  | topk (t : Nat) (h : Half) (ctx : Nat)
  /-- CVT (R125): Conversion command: reads the input, applies ACT and requantises. -/
  | cvt (t : Nat) (h : Half) (ctx : Nat)
  /-- MOVE_COPY (R195): MOVE in copy mode: copies rows to the same positions of the destination. -/
  | moveCopy (t : Nat) (h : Half) (ctx : Nat)
  /-- MOVE_HALO (R196): MOVE in halo mode: pushes rows and a tag line into the partner bank pool. -/
  | moveHalo (t : Nat) (h : Half) (ctx : Nat)
  /-- MOVE_KV_PAGE (R197): MOVE in KV-page mode: copies listed page pairs. -/
  | moveKvPage (t : Nat) (h : Half) (ctx : Nat)
  /-- MOVE_ATOMIC (R198): MOVE in atomic mode: logs bank atomics for execution at print. -/
  | moveAtomic (t : Nat) (h : Half) (ctx : Nat)
  /-- CUEW (R129): Waits on a cue counter, or acquires an amount from it, and then prints. -/
  | cuew (t : Nat) (h : Half) (ctx : Nat) (halo : Option (Nat × Nat))
  /-- CUES (R130): Signals one or two cues at print. -/
  | cues (t : Nat) (h : Half) (ctx : Nat)
  /-- FENCE (R131): Prints once every earlier command of the queue and its transfers have completed. -/
  | fence (t : Nat) (h : Half) (ctx : Nat)
  /-- PRINT (R29): A command that has written all its results becomes visible in four ordered steps. -/
  | print (t : Nat) (h : Half) (printing : Printing)
  /-- KILL_COMPLETE (R36): A kill finishes within 2 µs, and the threads and credits are free. -/
  | killComplete (t : Nat) (h : Half) (ctx : Nat)
  /-- COMMAND_WATCHDOG (R103): The command watchdog expires at the margin times the declared cost. -/
  | commandWatchdog (t : Nat) (h : Half) (ctx : Nat)
  /-- CUE_HOLD_OVERRUN (R333): A ceiling hold defers a pre-emption for HOLD_MAX lines, so the job is torn down. -/
  | cueHoldOverrun (t : Nat) (h : Half) (ctx : Nat)
  /-- SLOT_OVERRUN (R345): RETAKE_LIMIT consecutive kills of one command fault its job. -/
  | slotOverrun (t : Nat) (h : Half) (ctx : Nat)
  /-- PART_RESET (R347): A teardown not complete within 10 µs resets the whole partition. -/
  | partReset (t : Nat) (h : Half) (part : Nat)
  /-- PART_RESET_OVERRUN (R347): A partition reset not complete within 40 µs restarts the half. -/
  | partResetOverrun (t : Nat) (h : Half) (part : Nat)
  /-- SHEET_LINE (R260): The line timer starts a new sheet line, wrapping to line 0 and advancing SHEET_FRAME. -/
  | sheetLine (t : Nat) (h : Half)
  /-- GROUP_DISABLE_DONE (R200): A cleared ENABLED takes effect once the group's ACTIVE count reaches 0. -/
  | groupDisableDone (t : Nat) (h : Half) (group : Nat)
  /-- DEADLINE_MISS (R341): A frame's deadline passes with no print token granted. -/
  | deadlineMiss (t : Nat) (h : Half) (stream frame : Nat)
  /-- WITHHELD (R277): A WITHHELD record is written at the deadline for a frame without a result. -/
  | withheld (t : Nat) (h : Half) (stream frame : Nat)
  /-- BACKUP_TIME (R342): At the backup time the partner probes the token and may release its BACKUP job. -/
  | backupTime (t : Nat) (h : Half) (stream frame : Nat)
  /-- PRINT_TOKEN_GRANT (R343): The frame's print token is granted to the first request, and the loser is killed. -/
  | printTokenGrant (t : Nat) (h : Half) (ctx : Nat) (tie : Bool)
  /-- LINE_RESPONSE (R163): A thread's 64-byte response returns and is delivered in generation order. -/
  | lineResponse (t : Nat) (h : Half) (thread gen addr : Nat) (check : LineCheck)
  /-- BANK_CTL_WRITE (R183): A write to BANK_CTL hands a bank over, or is refused. -/
  | bankCtlWrite (t : Nat) (h : Half) (bank : Nat) (value : BitVec 32) (who : Writer)
  /-- SCRUB_DONE (R185): A handover scrub finishes zeroing the bank, and writes may proceed. -/
  | scrubDone (t : Nat) (h : Half) (bank : Nat)
  /-- SCRUBBER (R178): The background scrubber reads and corrects bank lines in idle cycles. -/
  | scrubber (t : Nat) (h : Half) (check : LineCheck)
  /-- DOLLY_APPLY (R171): Stages regulator registers for the next slot boundary. -/
  | dollyApply (t : Nat) (h : Half) (world : World)
  /-- GROUP_CTL_WRITE (R200): Writes a thread group's control register, refused while it is enabled. -/
  | groupCtlWrite (t : Nat) (h : Half) (group : Nat) (value : BitVec 32) (world : World)
  /-- HBM_REFRESH (R294): A per-bank refresh becomes due and blocks its bank. -/
  | hbmRefresh (t : Nat) (h : Half) (pc bank : Nat)
  /-- HBM_RETRAIN_STEP (R295): A retraining step runs on a pseudo-channel inside a retraining window. -/
  | hbmRetrainStep (t : Nat) (h : Half) (pc bank : Nat)
  /-- RETRAIN_DUE (R295): A retraining pass becomes due after 1 s or a 5 °C change. -/
  | retrainDue (t : Nat) (h : Half)
  /-- HBM_RETRAIN_LATE (R295): A pass has been due for 1 s without completing. -/
  | hbmRetrainLate (t : Nat) (h : Half)
  /-- HBM_TRAINING (R296): Power-up training completes or fails. -/
  | hbmTraining (t : Nat) (h : Half) (ok : Bool) (lanes : Nat)
  /-- HBM_TEMP_READ (R290): The stack temperature is read every 1 ms, setting the refresh rate. -/
  | hbmTempRead (t : Nat) (h : Half) (temp : Nat)
  /-- HBM_READ_RESPONSE (R298): An HBM read returns, checked by on-die, sideband and converter checks. -/
  | hbmReadResponse (t : Nat) (h : Half) (port : HbmPort) (addr : Nat) (answer : HbmAnswer)
  /-- HBM_WRITE (R297): A line write is checked, encoded twice, compared and queued. -/
  | hbmWrite (t : Nat) (h : Half) (port : HbmPort) (addr : Nat) (data : List Byte) (check : HbmWriteCheck)
  /-- HBM_PARITY (R299): A stack parity error reissues the command once, then fails its requests. -/
  | hbmParity (t : Nat) (h : Half) (port : HbmPort) (addr : Nat) (again : Bool)
  /-- HBM_TIMEOUT (R299): A request without a response after 20 µs receives an error response. -/
  | hbmTimeout (t : Nat) (h : Half) (port : HbmPort) (addr : Nat)
  /-- HBM_APPLY (R293): Stages HBM_PORT_CTL for the next slot boundary. -/
  | hbmApply (t : Nat) (h : Half) (world : World)
  /-- FLIT_RECEIVE (R305): A Contrail flit arrives; words are corrected, or the flit is negatively acknowledged. -/
  | flitReceive (t : Nat) (h : Half) (check : FlitCheck)
  /-- FLIT_REPLAY (R305): A negative acknowledgement makes the sender replay the flit. -/
  | flitReplay (t : Nat) (h : Half) (ok : Bool)
  /-- CREDIT_RETURN (R304): A data credit returns once its packet enters the write queue. -/
  | creditReturn (t : Nat) (h : Half) (part : Nat)
  /-- CONTROL_MESSAGE (R306): A control message carrying a remote cue operation or token request arrives. -/
  | controlMessage (t : Nat) (h : Half)
  /-- WRITE_COMPLETE (R307): A write-complete acknowledgement arrives and may allow a cross-half print. -/
  | writeComplete (t : Nat) (h : Half) (ctx : Nat)
  /-- KILL_NOTICE (R308): A kill notice arrives; queued packets are discarded and credits returned. -/
  | killNotice (t : Nat) (h : Half) (ctx : Nat)
  /-- CTR_DOWN (R309): No acknowledgement for 10 µs, or 16 replays, takes the link down. -/
  | ctrDown (t : Nat) (h : Half)
  /-- CTR_DEGRADED (R309): More than 64 replays in 1 ms are logged. -/
  | ctrDegraded (t : Nat) (h : Half)
  /-- CTR_TRAIN (R310): Link training completes at power-up or after a retrain. -/
  | ctrTrain (t : Nat) (spares : Nat)
  /-- CTR_RETRAIN (R310): CTR_CTL.RETRAIN written while the link is down starts retraining. -/
  | ctrRetrain (t : Nat) (h : Half) (world : World)
  /-- CTR_APPLY (R316): Stages CTR_SHARE for the next slot boundary, refusing sums above 512. -/
  | ctrApply (t : Nat) (h : Half) (world : World)
  /-- PROT_CTL_APPLY (R315): Stages region descriptors, ENFORCE and LOCK for the next slot boundary. -/
  | protCtlApply (t : Nat) (h : Half) (value : BitVec 32) (world : World)
  /-- FRAME_START (R256): A CSI-2 frame-start packet begins a stream frame and assigns its FRAME_SEQ. -/
  | frameStart (t : Nat) (h : Half) (port vc : Nat) (corrected : Bool)
  /-- FRAME_END (R276): A frame-end packet closes the frame and checks its line count. -/
  | frameEnd (t : Nat) (h : Half) (port vc : Nat) (corrected : Bool)
  /-- LINE_START (R261): A line-start packet arrives, and its arrival error steers the timer in locked mode. -/
  | lineStart (t : Nat) (h : Half) (port vc : Nat) (corrected : Bool)
  /-- LONG_PACKET (R269): A line's long packet passes through the entry path and is landed. -/
  | longPacket (t : Nat) (h : Half) (port vc dt wordCount : Nat) (payload : List Byte) (crcOk corrected : Bool)
  /-- LINE_LATE (R271): A row misses its landing bound, marking the frame. -/
  | lineLate (t : Nat) (h : Half) (stream frame : Nat)
  /-- LINE_COUNT (R276): No frame-end arrives by the line before the next frame-start, marking the frame. -/
  | lineCount (t : Nat) (h : Half) (stream : Nat)
  /-- LINE_LOCK (R262): 64 consecutive in-tolerance line-starts move the timer to LOCKED. -/
  | lineLock (t : Nat) (h : Half)
  /-- LINE_UNLOCK (R262): Eight bad packets, or a frame without packets, move the timer to HOLDOVER. -/
  | lineUnlock (t : Nat) (h : Half)
  /-- FSYNC_FAULT (R266): Read-back differs for 2 lines, so the output is driven low. -/
  | fsyncFault (t : Nat) (h : Half) (output : Nat)
  /-- HZN_APPLY (R264): Stages Horizon registers, applied at line 0 or at the stream's next frame-start. -/
  | hznApply (t : Nat) (h : Half) (world : World)
  /-- SHEET_FRAME_ADOPT (R268): A half adopts the partner's SHEET_FRAME at its next line 0. -/
  | sheetFrameAdopt (t : Nat) (h : Half) (lane : Nat)
  /-- RESULT_COPY (R279): A parity cue reaching 1 makes Horizon copy the printed result into its ring. -/
  | resultCopy (t : Nat) (h : Half) (stream parity : Nat)
  /-- CONSUMER_READ (R284): Horizon re-reads CONSUMER while a ring appears full. -/
  | consumerRead (t : Nat) (h : Half) (ring consumer : Nat)
  /-- GAP (R285): After a restart one GAP record is written first in each enabled ring. -/
  | gap (t : Nat) (h : Half) (ring producer nextSeq lastFrame : Nat)
  /-- LOCKSTEP_MISMATCH (R357): A pair's copies differ, so the half is fenced and a core self-test starts. -/
  | lockstepMismatch (t : Nat) (h : Half) (pair : Nat)
  /-- CORE_SELFTEST (R357): The core self-test finishes with a verdict, and the half restarts. -/
  | coreSelftest (t : Nat) (h : Half) (pair : Nat) (verdict : Verdict)
  /-- LOCKSTEP_INPUT (R353): Synchronisers disagree for 16 consecutive cycles. -/
  | lockstepInput (t : Nat) (h : Half) (pair : Nat)
  /-- DEBUG_HALT (R355): A debugger halt request is accepted in development mode, otherwise refused. -/
  | debugHalt (t : Nat) (h : Half) (pair : Nat)
  /-- DEBUG_WRITE (R356): A debugger write to the main copy is replayed into the checker. -/
  | debugWrite (t : Nat) (h : Half) (pair : Nat) (what : DebugTarget) (bytes : List Byte) (replayed : Bool)
  /-- DEBUG_RESUME (R356): A halted pair resumes, and comparison is re-armed. -/
  | debugResume (t : Nat) (h : Half) (pair : Nat)
  /-- HEARTBEAT_SEND (R358): A 128-byte heartbeat is sent on each lane every 4 µs. -/
  | heartbeatSend (t : Nat) (h : Half)
  /-- HEARTBEAT_RECEIVE (R358): A partner heartbeat arrives and is checked by its CRC. -/
  | heartbeatReceive (t : Nat) (h : Half) (lane : Nat) (bytes : List Byte)
  /-- HB_LANE (R358): One heartbeat lane falls silent while the other continues. -/
  | hbLane (t : Nat) (h : Half) (lane : Nat)
  /-- PAIRING (R360): 1 ms of good in-service heartbeats pairs the halves. -/
  | pairing (t : Nat) (h : Half)
  /-- PARTNER_LOST (R359): Both lanes silent for 12 µs, or a bad partner state, declare the partner lost. -/
  | partnerLost (t : Nat) (h : Half)
  /-- HALF_DOWN (R374): A HALF_DOWN message from the fenced partner arrives. -/
  | halfDown (t : Nat) (h : Half) (frames : List (Nat × Nat))
  /-- RESTART_REQ (R358): The partner island asserts RESTART_REQ, forcing this half's restart. -/
  | restartReq (t : Nat) (h : Half)
  /-- HALF_RESTART (R378): The half is reset except HBM refresh, regulators, snapshot and repair record. -/
  | halfRestart (t : Nat) (h : Half) (snapshotOk : Bool) (coreOk : Bool)
  /-- SERVICE_READY (R469): The half reports service-ready once its sheet is in effect and it is locked. -/
  | serviceReady (t : Nat) (h : Half)
  /-- DISAGREEMENT_LIMIT (R371): Three disagreements of one unit in 1,000 frames start its health path. -/
  | disagreementLimit (t : Nat) (h : Half) (unit : Nat)
  /-- LEADER_REPEAT (R373): LEADER_FAIL on one stream in 8 consecutive frames is reported. -/
  | leaderRepeat (t : Nat) (h : Half) (stream : Nat)
  /-- LOCALISE (R394): LOCALISE self-test slice: per-slab MMULs with segment CRCs. -/
  | localise (t : Nat) (h : Half) (fails : List (Nat × Nat))
  /-- POST_FP (R394): POST_FP self-test slice on the post unit's FP32 paths. -/
  | postFp (t : Nat) (h : Half) (pass : Bool)
  /-- OUTLIER_SLICE (R394): OUTLIER self-test slice on the side lane. -/
  | outlierSlice (t : Nat) (h : Half) (pass : Bool)
  /-- THREAD_SLICE (R394): THREAD self-test slice on one disabled thread group. -/
  | threadSlice (t : Nat) (h : Half) (group : Nat) (pass : Bool)
  /-- BANK_MARCH (R394): BANK_MARCH self-test slice on one unowned bank. -/
  | bankMarch (t : Nat) (h : Half) (bank : Nat) (pass : Bool)
  /-- SLAB_SCORE_DECAY (R385): Each 10 s without an event lowers a slab's score by 1. -/
  | slabScoreDecay (t : Nat) (h : Half) (slab : Nat)
  /-- SLAB_RETIRED (R386): A slab at score 128 is retired to its row's spare after the next line 0. -/
  | slabRetired (t : Nat) (h : Half) (slab : Nat)
  /-- DERATE (R392): Three derate-counted events in one band within 100 h derate the unit. -/
  | derate (t : Nat) (h : Half) (unit band : Nat)
  /-- DIR_WATCHDOG (R348): The Director watchdog expires, a class 5 half fault. -/
  | dirWatchdog (t : Nat) (h : Half)
  /-- ISL_WATCHDOG (R348): The island watchdog expires, so Zenith and the partner restart the half. -/
  | islWatchdog (t : Nat) (h : Half)
  /-- HALF_CTL_RETURN (R396): HALF_CTL 0x01 returns the half to service. -/
  | halfCtlReturn (t : Nat) (ch : Channel) (h : Half)
  /-- HALF_CTL_HOLD_OUT (R396): HALF_CTL 0x02 holds the half out while the other continues degraded. -/
  | halfCtlHoldOut (t : Nat) (ch : Channel) (h : Half)
  /-- HALF_CTL_RESTART (R396): HALF_CTL 0x03 restarts the half as a class 5 event. -/
  | halfCtlRestart (t : Nat) (ch : Channel) (h : Half)
  /-- HALF_CTL_RETIRE (R396): HALF_CTL 0x04 retires the half until power-up. -/
  | halfCtlRetire (t : Nat) (ch : Channel) (h : Half)
  /-- DERATE_CLEAR (R396): Clears the selected derates and their counters. -/
  | derateClear (t : Nat) (ch : Channel) (h : Half) (mask : BitVec 64)
  /-- POWER_ON (R400): VIN_CORE exceeds 1.71 V and the half enters Boot. -/
  | powerOn (t : Nat) (h : Half)
  /-- FUSE_SENSE (R508): The mask ROM senses fuses once both VIO rails are in range. -/
  | fuseSense (t : Nat) (h : Half) (vioOk : Bool)
  /-- SLATE_FILL (R479): DIR_S generates slate data from seeds and checks each FILL_CRC. -/
  | slateFill (t : Nat) (h : Half)
  /-- BROWN_OUT (R402): VIN_CORE below 1.62 V for 2 µs resets the half without firmware. -/
  | brownOut (t : Nat)
  /-- SUPPLY_RANGE (R405): VIN_CORE's 1 ms average leaves its range, and the half enters Degraded. -/
  | supplyRange (t : Nat) (h : Half) (mv : Nat)
  /-- REG_FAULT (R405): A regulator output is off its setpoint by 5 % for 10 µs. -/
  | regFault (t : Nat) (h : Half) (rail mv : Nat)
  /-- CLOCK_FAULT (R406): The reference stops for 1 µs or drifts beyond 1,000 ppm. -/
  | clockFault (t : Nat) (h : Half)
  /-- SENSOR_READ (R409): Every thermal sensor is read every 10 µs. -/
  | sensorRead (t : Nat) (h : Half) (readings : List Int) (power16 : Nat) (inNtc outNtc : Nat)
  /-- THROTTLE_UPDATE (R413): Every 100 µs Zenith adds or removes reactive throttle steps. -/
  | throttleUpdate (t : Nat) (h : Half)
  /-- THERMAL_TRIP (R416): A sensor at 115 °C for 1 ms fences the half and switches off its regulators. -/
  | thermalTrip (t : Nat) (h : Half)
  /-- THERMAL_TRIP_HW (R416): The hardware comparator trips at 125 °C without firmware. -/
  | thermalTripHw (t : Nat) (h : Half)
  /-- FLOW_PULSE (R417): A coolant flow pulse is counted. -/
  | flowPulse (t : Nat) (h : Half)
  /-- COOL_STATUS_CHANGE (R418): A cooling status bit sets or clears after its condition holds 10 s. -/
  | coolStatusChange (t : Nat) (h : Half) (bit : Nat)
  /-- DEGRADED_EXIT (R400): All Degraded conditions clear for 10 s, and the half returns to Run. -/
  | degradedExit (t : Nat) (h : Half)
  /-- AGE_MEASURE (R419): The ageing monitors are measured hourly and the guard updated. -/
  | ageMeasure (t : Nat) (h : Half) (temp : Int) (slowdowns : List Nat)
  /-- SHUTDOWN_BIST (R421): POWER_CTL 0x02 requests shutdown with BIST. -/
  | shutdownBist (t : Nat) (ch : Channel) (vinMv refPpm : Nat × Nat)
  /-- SHUTDOWN (R421): POWER_CTL 0x03 requests shutdown without BIST. -/
  | shutdown (t : Nat) (ch : Channel)
  /-- RESTART (R421): POWER_CTL 0x04 restarts the device from Shutdown-test through Boot. -/
  | restart (t : Nat) (ch : Channel)
  /-- BIST_DONE (R423): BIST ends: repairs are chosen, fuses programmed, POWER_STATE reads 0x05. -/
  | bistDone (t : Nat) (h : Half) (columns : List BistColumn) (slabs : List Nat) (units : List (Nat × Nat))
  /-- DICT_READ (R441): A dictionary read request returns the value from OFFSET. -/
  | dictRead (t : Nat) (ch : Channel) (txn index sub offset max : Nat)
  /-- DICT_WRITE (R442): A dictionary write segment is gathered and applied or staged on LAST. -/
  | dictWrite (t : Nat) (ch : Channel) (txn index sub offset : Nat) (last : Bool) (data : List Byte)
  /-- DICT_CANCEL (R443): Cancels the channel's transaction in flight. -/
  | dictCancel (t : Nat) (ch : Channel) (txn : Nat)
  /-- DICT_TIMEOUT (R444): A transaction not complete in 50 ms ends with abort 0xA303. -/
  | dictTimeout (t : Nat) (ch : Channel)
  /-- OPEN (R446): Opens the half's edit session for the channel. -/
  | openSession (t : Nat) (ch : Channel) (h : Half)
  /-- COMMIT (R448): Validates the staged set as a whole and commits or refuses it. -/
  | commit (t : Nat) (ch : Channel) (h : Half)
  /-- DISCARD (R445): Drops the staged set and closes the session. -/
  | discard (t : Nat) (ch : Channel) (h : Half)
  /-- SESSION_EXPIRE (R450): An open session idle for 1 s is discarded. -/
  | sessionExpire (t : Nat) (h : Half)
  /-- ARM (R350): ARM 0x01 arms the active and degraded images. -/
  | arm (t : Nat) (ch : Channel) (h : Half)
  /-- DISARM (R350): ARM 0x02 disarms at the next period boundary. -/
  | disarm (t : Nat) (ch : Channel) (h : Half)
  /-- CLEAR (R350): Clears one job context's accounting values together. -/
  | clear (t : Nat) (ch : Channel) (h : Half) (ctx : Nat)
  /-- ROLLBACK_COMMIT (R484): Programs a rollback counter up to the running image's value. -/
  | rollbackCommit (t : Nat) (ch : Channel) (type : Nat)
  /-- KEY_PROGRAM (R483): Programs a customer key slot's hash and PROGRAMMED bit. -/
  | keyProgram (t : Nat) (ch : Channel) (slot : Nat) (hash : List Byte)
  /-- REVOKE_KEY (R483): Revokes a customer key slot. -/
  | revokeKey (t : Nat) (ch : Channel) (slot : Nat)
  /-- ATTEST_NONCE (R488): A nonce write builds and signs an attestation report. -/
  | attestNonce (t : Nat) (ch : Channel) (nonce : List Byte)
  /-- UPDATE_IMAGE (R499): Verifies an image and writes it into the unused flash copy. -/
  | updateImage (t : Nat) (ch : Channel) (image : List Byte)
  /-- CMD0 (R454): SDIO CMD0 resets the card. -/
  | cmd0 (t : Nat)
  /-- CMD3 (R454): SDIO CMD3 sends the relative address. -/
  | cmd3 (t : Nat)
  /-- CMD5 (R454): SDIO CMD5 returns the OCR with the ready bit. -/
  | cmd5 (t : Nat) (arg : BitVec 32)
  /-- CMD7 (R454): SDIO CMD7 selects the card. -/
  | cmd7 (t : Nat) (arg : BitVec 32)
  /-- CMD11 (R454): SDIO CMD11 switches signalling to 1.8 V. -/
  | cmd11 (t : Nat)
  /-- CMD15 (R454): SDIO CMD15 puts the card inactive. -/
  | cmd15 (t : Nat) (arg : BitVec 32)
  /-- CMD19 (R454): SDIO CMD19 sends the tuning block. -/
  | cmd19 (t : Nat)
  /-- CMD52 (R454): SDIO CMD52 performs a single-byte register access. -/
  | cmd52 (t : Nat) (arg : BitVec 32)
  /-- CMD53 (R456): SDIO CMD53 moves a byte or block transfer, including Function 2 window and entry-stream access. -/
  | cmd53 (t : Nat) (arg : BitVec 32) (data : List Byte)
  /-- DOORBELL (R455): Writing DOORBELL submits the Function 1 REQ mailbox. -/
  | doorbell (t : Nat) (value : Byte)
  /-- RSP_READ (R455): Reading RSP byte 0 clears RSP_READY. -/
  | rspRead (t : Nat)
  /-- IO_ABORT (R457): An I/O abort written to the CCCR ends the transfer. -/
  | ioAbort (t : Nat) (function : Nat)
  /-- SDIO_DATA_TIMEOUT (R457): A CMD53 data phase stopped for 1 s is ended. -/
  | sdioDataTimeout (t : Nat)
  /-- CAN_REQUEST (R458): A CAN FD request frame with the half's identifier arrives. -/
  | canRequest (t : Nat) (h : Half) (id : Nat) (fd : Bool) (data : List Byte)
  /-- EMCY_SEND (R461): The next queued emergency message is sent. -/
  | emcySend (t : Nat) (h : Half)
  /-- BUS_OFF (R458): The CAN FD controller goes bus-off. -/
  | busOff (t : Nat) (h : Half)
  /-- BUS_OFF_RECOVERY (R458): After 128 occurrences of 11 recessive bits the controller rejoins. -/
  | busOffRecovery (t : Nat) (h : Half)
  /-- BAR0_WRITE (R462): A host write to the register window is dropped and logged. -/
  | bar0Write (t : Nat) (h : Half) (offset : Nat) (data : List Byte)
  /-- BAR2_WRITE (R462): A host write into HBM or bank pool, subject to region and HOST_WR checks. -/
  | bar2Write (t : Nat) (h : Half) (offset : Nat) (data : List Byte)
  /-- BAR2_READ (R462): A host read of HBM or bank pool, or Completer Abort. -/
  | bar2Read (t : Nat) (h : Half) (offset len : Nat)
  /-- HOT_RESET (R465): A hot reset or link-down restores configuration space defaults. -/
  | hotReset (t : Nat) (h : Half)
  /-- PCIE_PERST (R466): PCIE_PERST_N deasserts and link training begins. -/
  | pciePerst (t : Nat) (pin : PerstPin)
  /-- LINK_UP (R466): The PCIe link reaches L0. -/
  | linkUp (t : Nat) (h : Half) (speed width : Nat)
  /-- REGISTER_WRITE (R13): A write to a register without its own row, shadowed or refused while enabled. -/
  | registerWrite (t : Nat) (h : Half) (offset : Nat) (value : BitVec 64) (world : World)
  /-- WHEEL_PULSE (R494): A wheel pulse is counted on its channel. -/
  | wheelPulse (t : Nat) (channel : Nat)
  /-- TALLY_SEAL (R492): The seal opens or closes, moving Tally into or out of SERVICE. -/
  | tallySeal (t : Nat) (isOpen : Bool)
  /-- HIRE (R492): The display HIRE frame starts a fare. -/
  | hire (t : Nat) (crcOk : Bool)
  /-- STOP (R492): The display STOP frame freezes the fare. -/
  | stop (t : Nat) (crcOk : Bool)
  /-- CLEAR_FARE (R492): The display CLEAR frame returns Tally to FOR_HIRE. -/
  | clearFare (t : Nat) (crcOk : Bool)
  /-- IDENT (R496): The display IDENT frame requests the identification frame. -/
  | ident (t : Nat) (crcOk : Bool)
  /-- IMAGE_SEGMENT (R491): A Tally image segment arrives in SERVICE and is verified on completion. -/
  | imageSegment (t : Nat) (data : List Byte) (last : Bool) (crcOk : Bool)
  /-- TALLY_TICK (R494): Each 100 ms tick updates fare, trip, odometer and the window. -/
  | tallyTick (t : Nat)
  /-- PULSE_DISAGREEMENT (R494): After 1,000 pulses a channel difference above 20 freezes the fare and enters FAULT. -/
  | pulseDisagreement (t : Nat)
  /-- TALLY_FRAME_SEND (R496): A status frame is sent every 200 ms and at each state change. -/
  | tallyFrameSend (t : Nat)
  /-- TALLY_JOURNAL (R495): Odometer and fare state are journaled at least each second. -/
  | tallyJournal (t : Nat)
  /-- TALLY_POWER_UP (R497): VAUX_TALLY appears and Tally resumes from its journal. -/
  | tallyPowerUp (t : Nat)
  /-- PAIRING_TIMEOUT (R360): The partner has not paired within 1 s of the half's own service-ready, so the half logs PARTNER_LOST and switches to its degraded sheet. -/
  | pairingTimeout (t : Nat) (h : Half)
  /-- TOKEN_BUCKET_REFILL (R169): A regulator or non-Dolly port bucket gains tokens each ns and admits a thread's stalled request once it holds 64. -/
  | tokenBucketRefill (t : Nat) (h : Half) (ns : Nat)
  /-- BOOT_STAGE_DONE (R480): A boot-chain stage finishes verifying and starts its image (FS, ISL, ZEN with BOOT_CFG, DIR_S with ENFORCE, DIR_NS), advancing CAN FD, SDIO and dictionary availability. -/
  | bootStageDone (t : Nat) (h : Half) (stage : BootStage)
  /-- HDR_UE (R254): A CSI-2 packet arrives whose header is uncorrectable; it is discarded, counted against the port, and marks the frame HDR_UE. -/
  | hdrUe (t : Nat) (h : Half) (port : Nat)
  /-- PCIE_CONFIG_WRITE (R465): A host configuration write, such as one setting Bus Master Enable or the D0 or D3hot power state, decides whether rings can write records. -/
  | pcieConfigWrite (t : Nat) (h : Half) (offset : Nat) (value : BitVec 32)
  /-- MSIX_TABLE_WRITE (R462): A host write through BAR4 sets an MSI-X table entry that later result records signal. -/
  | msixTableWrite (t : Nat) (h : Half) (offset : Nat) (data : List Byte)
  /-- VAUX_TALLY_LOSS (R490): VAUX_TALLY is removed; Tally stops, its window reads 0, and a fare in HIRED resumes as STOPPED with INTERRUPTED set. -/
  | vauxTallyLoss (t : Nat)
  /-- CAN_REJOIN (R459): After a committed change of identifiers or bit rates, the CAN FD controller rejoins the bus with the new settings within 1 ms. -/
  | canRejoin (t : Nat) (h : Half)
  /-- UPDATE_WRITTEN (R499): The flash write started by UPDATE_IMAGE completes, and UPDATE_STATUS moves from writing to written. -/
  | updateWritten (t : Nat) (h : Half)
deriving DecidableEq, Repr

end Sys2Proof
end

