-- ==== Sys2Proof/Decode.lean ====
section
/-! DEFINITION. Words that spell a command: none, because spec/opcode_table.json gives no row any bits. -/

namespace Sys2Proof

/-- The command a word spells by the table's bits: the table gives no row bits, so no word spells one. -/
def decodeTableWord (_nbits _w : Nat) : Option Instr := none

end Sys2Proof
end

