-- ==== Sys2Proof/Config.lean ====
section
/-! DEFINITION. The values the spec leaves open, as constants without a body: a proof can see no value of them. -/

namespace Sys2Proof

/-- Events the spec says are logged and to which R362 gives no CODE (log entry 14). -/
inductive Unlisted where
  /-- A ceiling hold was still open at a teardown (CUE_HELD, R346). -/
  | cueHeld
  /-- The flags of a killed execution (R59). -/
  | killFlags
  /-- NAN or INF_IN of a printed execution (R59). -/
  | printFlags
  /-- The mode an ATTB ran in (R227). -/
  | attbMode
  /-- A debugger halt request refused (R355). -/
  | debugRefused
  /-- A write to a configuration register refused because its block is enabled (R13). -/
  | writeRefused
  /-- A staged register set refused at its apply (R264). -/
  | applyRefused
  /-- A host write that the region descriptors refuse (R314). -/
  | hostRefused
  /-- A PCIe error that Advanced Error Reporting reports (R463). -/
  | aerError
deriving DecidableEq, Repr

namespace Config

/-- The contents of a byte whose contents the spec leaves undefined (R36, R135, R227): any byte, by the range's
seed and the address (log entry 8). -/
opaque freeByte (seed addr : Nat) : Byte

/-- An open 32-bit result of arithmetic (R16, R60, R61) of the `n`-th execution, by element and stage: any word; the operation that draws it keeps the
bound its rule gives (log entry 7). -/
opaque freeWord (n element stage : Nat) : Word32

/-- The CODE of a logged event that R362 does not list: any 16-bit number. -/
opaque unlistedCode (e : Unlisted) : Nat

/-- A word of a thread's descriptor that R161 does not fix: the loops the issue stage derives (log entry 15). -/
opaque threadWord (ctx stream word : Nat) : BitVec 64

/-- A field of the `n`-th record whose value no rule states: FRAME_SEQ, FRAME_MARK, RETAKES, CMD_TAG, PRINT_LINE and
FLAGS 5 to 1 of a record that reports no printed result (R281, R282; log entry 16). -/
opaque recordField (n field : Nat) : Nat

/-- The unit whose region of its die holds thermal sensor `i` (R390, R409): the spec gives no map (log entry 18). -/
opaque sensorUnit (i : Nat) : Nat

/-- The cause in bits 31:24 of BOOT_STATUS of a failed verification of an image type, by the check that failed (R499). -/
opaque bootCause (type check : Nat) : Nat

/-- How long the programming of a key slot or of a rollback counter takes, in ns (R483, R484, R501; log entry 131). -/
opaque fuseTime : Nat

/-- The boot region set (R474): each descriptor's first and last page and its WORLD, RD and WR bits; the firmware's own
areas are not given. -/
opaque bootRegions (half : Nat) : List (Nat × Nat × Nat)

/-- CMD_TAG and CRC of the four signatures a slate image's body carries (R368, R479), whose layout is not given. -/
opaque slateSigs (body : List Byte) : List (Nat × Nat)

/-- Bits 23:0 of the OCR with which CMD5 is answered (R454). -/
opaque sdioOcr : Nat

/-- A CCCR, FBR or CIS byte of the SDIO card that R454 does not fix, as long as the host has not written it. -/
opaque sdioByte (addr : Nat) : Byte

/-- Where the PCI Power Management control word and the PCI Express Device Control word lie in the configuration space:
R463 gives no offsets of capabilities. -/
opaque pmcsrOffset : Nat
opaque devCtlOffset : Nat
/-- Where the MSI-X capability and the Device Serial Number capability lie, for the same reason. -/
opaque msixCtlOffset : Nat
opaque dsnOffset : Nat

/-- Where the extended capability with an identifier lies, but for Advanced Error Reporting, the first, and Device Serial
Number, for the same reason. -/
opaque extOffset (id : Nat) : Nat

/-- A configuration word that R462 and R463 do not fix, as long as the host has not written it. -/
opaque pcieWord (half offset : Nat) : BitVec 32

/-- Where the manufacturer tuple lies within the SDIO card's CIS (R454). -/
opaque cisManufacturer : Nat

end Config

end Sys2Proof
end

