-- ==== Sys2Proof/Machine/State.lean ====
section
/-! DEFINITION. The state of the device as plain data: every register, counter, buffer and mode the spec names, the
reset values, the queue of waiting commands, and the (unused) reasons to stop. Each field cites the rule of spec/
that names it; a default is its value at reset. -/

namespace Sys2Proof.Machine

open Sys2Proof

/-- Why the machine stops with a fault. No meaning of this model answers with one: every event the spec describes
ends in a next state. -/
inductive Fault where
  /-- Raised by nothing; safe. -/
  | none
deriving DecidableEq, Repr

/-- Why the machine refuses a command. No meaning of this model answers with one. -/
inductive Refusal where
  /-- A command whose meaning has not been written, by its mnemonic; safe. -/
  | notModelled (mnemonic : String)
deriving DecidableEq, Repr

/-- The three part numbers (R2). -/
inductive Part where
  | fbz2400AT
  | fbz2400AN
  | fbz1200AN
deriving DecidableEq, Repr

/-- Where an execution of a command stands (R28, R36, R330). -/
inductive ExecPhase where
  /-- It waits for its cue condition. -/
  | parked
  /-- Its cue condition is met and it may be dispatched again. -/
  | resumable
  /-- It has written all its results without a detected error and waits for its print. -/
  | written
  /-- It has been killed and the kill is not complete. -/
  | killing
deriving DecidableEq, Repr

/-- What is issued when a kill completes (R38). -/
inductive RetakeKind where
  /-- Nothing: the run ends without a fault, or the job is torn down. -/
  | none
  /-- The same record, at the partition's next dispatch. -/
  | same
  /-- The wide variant, at once. -/
  | wide
deriving DecidableEq, Repr

/-- JOB_STAT.STATE (R349). -/
inductive JobStatus where
  | idle
  | released
  | running
  | parked
  | faulted
  | teardown
deriving DecidableEq, Repr

/-- A frame's print token (R342, R343). -/
inductive Token where
  | free
  | heldBy (h : Half)
deriving DecidableEq, Repr

/-- LOCK_STATE (R262, R263). -/
inductive LockState where
  | freeRun
  | acquiring
  | locked
  | holdover
deriving DecidableEq, Repr

/-- The state of a slab (R396). -/
inductive SlabState where
  | active
  | spare
  | retired
deriving DecidableEq, Repr

/-- A self-test slice of R394's table. -/
inductive SliceKind where
  /-- LOCALISE, on the array. -/
  | localise
  /-- POST_FP, on the post unit. -/
  | postFp
  /-- OUTLIER, on the outlier side lane. -/
  | outlier
  /-- THREAD, on one thread group. -/
  | thread (group : Nat)
  /-- BANK_MARCH, on one bank. -/
  | bankMarch (bank : Nat)
deriving DecidableEq, Repr

/-- A half's power state (R400). -/
inductive PowerState where
  | off
  | boot
  | run
  | degraded
  | testing
  | testDone
deriving DecidableEq, Repr

/-- Tally's states (R492). -/
inductive TallyState where
  | forHire
  | hired
  | stopped
  | fault
  | service
deriving DecidableEq, Repr

/-- A byte range [base, base+len) of device memory (R108). -/
structure Region where
  /-- First byte address (R108). -/
  base : Nat := 0
  /-- Length in bytes (R108). -/
  len : Nat := 0
deriving DecidableEq, Repr

/-- A byte range whose contents the spec leaves undefined (R36, R135, R227); it reads as free bytes of Config.freeByte seed. -/
structure UndefArea where
  /-- First byte address (R36). -/
  base : Nat := 0
  /-- Length (R36). -/
  len : Nat := 0
  /-- Which free contents (the model's own). -/
  seed : Nat := 0
  /-- Restricted to one bank of the set: address bits 9:6 (R174). -/
  lane : Option Nat := none
deriving DecidableEq, Repr

/-- One slot entry (R319). -/
structure SlotEntry where
  /-- START_LINE, 14 bits (R319). -/
  startLine : Nat := 0
  /-- LENGTH_M1, 6 bits (R319). -/
  lengthM1 : Nat := 0
  /-- PARTITION, 3 bits (R319). -/
  part : Nat := 0
  /-- STRICT (R319). -/
  strict : Bool := false
  /-- RETRAIN (R319). -/
  retrain : Bool := false
  /-- SELFTEST (R319). -/
  selftest : Bool := false
  /-- ENERGY_CLASS, 3 bits (R319). -/
  energy : Nat := 0
deriving DecidableEq, Repr

/-- One job entry (R320). -/
structure JobEntry where
  /-- CTX, 8 bits (R320). -/
  ctx : Nat := 0
  /-- RELEASE, 2 bits (R320). -/
  release : Nat := 0
  /-- WORLD: true non-secure (R320). -/
  world : Bool := false
  /-- STREAM, 5 bits, 0x1F none (R320). -/
  stream : Nat := 31
  /-- BACKUP (R320). -/
  backup : Bool := false
  /-- RETAKE_LIMIT, 8 bits (R320). -/
  retakeLimit : Nat := 0
  /-- RELEASE_LINE, 14 bits (R320). -/
  releaseLine : Nat := 0
  /-- QUEUE_LEN, 16 bits (R320). -/
  queueLen : Nat := 0
  /-- QUEUE_PTR, 40 bits (R320). -/
  queuePtr : Nat := 0
  /-- COMPL_LOG2, 5 bits (R320). -/
  complLog2 : Nat := 0
  /-- COMPL_PTR, 40 bits (R320). -/
  complPtr : Nat := 0
deriving DecidableEq, Repr

/-- One stream entry (R323). -/
structure StreamEntry where
  /-- CONTEXT, 5 bits (R323). -/
  context : Nat := 0
  /-- ROLE: true shadow (R323). -/
  shadow : Bool := false
  /-- JOB_CTX, 8 bits (R323). -/
  jobCtx : Nat := 0
  /-- DEADLINE_NS or BACKUP_OFFSET_NS, 32 bits (R323). -/
  timeNs : Nat := 0
deriving DecidableEq, Repr

/-- One cue entry (R324). -/
structure CueEntry where
  /-- CUE, 15 bits (R324). -/
  cue : Nat := 0
  /-- CEILING, 4 bits (R324). -/
  ceiling : Nat := 8
  /-- USERS, 8 bits (R324). -/
  users : Nat := 0
  /-- INIT, 32 bits (R324). -/
  init : Nat := 0
deriving DecidableEq, Repr

/-- One regulator-table entry (R325). -/
structure RegEntry where
  /-- REG_HBM[p] (R325). -/
  hbm : BitVec 64 := 0
  /-- REG_CTR[p] (R325). -/
  ctr : BitVec 64 := 0
  /-- CTR_SHARE[p], 32 bits (R325). -/
  share : Nat := 0
deriving DecidableEq, Repr

/-- A call-sheet image as checked and held (R318 to R325). -/
structure Sheet where
  /-- Address of the image (R318). -/
  addr : Nat := 0
  /-- SHEET_ID, 32 bits (R318). -/
  sheetId : Nat := 0
  /-- VERSION, 8 bits (R318). -/
  version : Nat := 0
  /-- PERIOD_FRAMES, 4 bits (R318). -/
  periodFrames : Nat := 1
  /-- FRAME_LINES, 12 bits (R318). -/
  frameLines : Nat := 1125
  /-- TWO_HALF (R318). -/
  twoHalf : Bool := false
  /-- SELFTEST_PART, 3 bits (R318). -/
  selftestPart : Nat := 0
  /-- FLOOR_ARRAY, 4 bits (R318). -/
  floorArray : Nat := 0
  /-- FLOOR_DOLLY, 4 bits (R318). -/
  floorDolly : Nat := 0
  /-- FLOOR_BANKPOOL, 4 bits (R318). -/
  floorBank : Nat := 0
  /-- FLOOR_DIRECTOR, 4 bits (R318). -/
  floorDir : Nat := 0
  /-- WDG_MARGIN16, 8 bits (R318). -/
  wdgMargin16 : Nat := 20
  /-- HOLD_MAX, 8 bits (R318). -/
  holdMax : Nat := 1
  /-- RETRAIN_MIN, 8 bits (R318). -/
  retrainMin : Nat := 6
  /-- DIR_WDG, 10 bits (R318). -/
  dirWdg : Nat := 0
  /-- Slot table (R319). -/
  slots : List SlotEntry := []
  /-- Job table (R320). -/
  jobs : List JobEntry := []
  /-- Cue table (R324). -/
  cues : List CueEntry := []
  /-- Stream table (R323). -/
  streams : List StreamEntry := []
  /-- 256 BANK_OWNER bytes (R325). -/
  bankOwner : List Nat := []
  /-- 256-bit reservation mask (R325). -/
  bankReserved : List Bool := []
  /-- 96 group bytes (R325). -/
  groupMap : List Nat := []
  /-- 8 regulator entries (R325). -/
  regs : List RegEntry := []
deriving DecidableEq, Repr

/-- One execution of a command of a job, from issue to print or to the end of its kill (R28 to R37). -/
structure Exec where
  /-- The 64-byte record being executed (its head record for a chain) (R99). -/
  record : List Byte := []
  /-- The further records of a fused chain (R134). -/
  chain : List (List Byte) := []
  /-- The bytes of the descriptors and blocks its records name, as fetched at issue (R100). -/
  objects : List (Nat × Byte) := []
  /-- Parked, resumable, written (ready to print) or killing (R330). -/
  phase : ExecPhase := .parked
  /-- The wide variant is executing (R89). -/
  wide : Bool := false
  /-- The wide variant's record, fetched at the guarded issue (R90). -/
  wideRecord : List Byte := []
  /-- CLIP of this execution (R59). -/
  clip : Bool := false
  /-- NAN of this execution (R59). -/
  nan : Bool := false
  /-- INF_IN of this execution (R59). -/
  infIn : Bool := false
  /-- Every comparison of the check column passed (R110). -/
  checkPass : Bool := false
  /-- Print log, at most 256 deferred atomics (R33). -/
  printLog : List (BitVec 64) := []
  /-- Acquisitions in escrow: cue, amount (R34). -/
  escrow : List (Nat × Nat) := []
  /-- Bytes the command has written into its dark output regions (R28). -/
  staged : List (Nat × Byte) := []
  /-- Declared input regions (R108). -/
  inputs : List Region := []
  /-- Declared output regions, dark until print (R108). -/
  outputs : List Region := []
  /-- Flow regions of a fused chain (R135). -/
  flow : List Region := []
  /-- Instant at which its HBM writes were admitted (R299). -/
  writtenAt : Nat := 0
  /-- Contrail data packets not yet acknowledged as written (R307). -/
  acksDue : Nat := 0
  /-- HBM lines written and not yet acknowledged (R297). -/
  hbmDue : List Nat := []
  /-- Contrail credits the command holds (R304). -/
  credits : Nat := 0
  /-- Threads allocated to the command (R164). -/
  threads : List Nat := []
  /-- Requests its threads have still to make through the HBM and the Contrail regulator (R169, R170). -/
  requests : Nat × Nat := (0, 0)
  /-- The lines of its ZBM drains are known, and counted among its requests (R193). -/
  drained : Bool := false
  /-- Instant from which its watchdog runs (ns) (R330). -/
  startedAt : Nat := 0
  /-- CMD_TAG it reports: the last record's of a chain, the guarded record's of a wide variant (R110). -/
  tag : Nat := 0
  /-- Its watchdog limit in 1/16 ns (R94). -/
  budget : Nat := 0
  /-- Tag line and TAG Director code expects of a halo, checked after the print of its CUEW (R245). -/
  halo : Option (Nat × Nat) := none
  /-- CRC-32C of a slate command's output in drain order (R368). -/
  slateCrc : Nat := 0
  /-- The frame's print token has been granted to this result command (R343). -/
  tokenHeld : Bool := false
  /-- Event code that raised the kill, 0 for a pre-emption (R36). -/
  killCode : Nat := 0
  /-- What is issued when the kill completes (R38). -/
  retake : RetakeKind := .none
  /-- HBM lines whose read has been answered (R298). -/
  answered : List Nat := []
deriving DecidableEq, Repr

/-- A job's printed acquisitions and signals of one cue with a ceiling (R332). -/
structure Hold where
  /-- Cue (R332). -/
  cue : Nat := 0
  /-- Amounts acquired by printed commands (R332). -/
  acquired : Nat := 0
  /-- Amounts signalled by printed commands (R332). -/
  signalled : Nat := 0
deriving DecidableEq, Repr

/-- One job context (R181, R320, R349, R350). -/
structure Job where
  /-- Its entry in the running sheet, none when it has none (R320). -/
  entry : Option JobEntry := none
  /-- JOB_STAT.STATE (R349). -/
  status : JobStatus := .idle
  /-- JOB_STAT.KILLS, 8 bits (R349). -/
  kills : Nat := 0
  /-- JOB_STAT.FAULT, 16 bits (R349). -/
  fault : Nat := 0
  /-- JOB_STAT.QUEUE_INDEX, 16 bits (R349). -/
  queueIndex : Nat := 0
  /-- JOB_COMPL, 64 bits (R322). -/
  compl : Nat := 0
  /-- WAIT_SUM_NS, 64 bits (R350). -/
  waitSum : Nat := 0
  /-- WAIT_MAX_NS, 32 bits (R350). -/
  waitMax : Nat := 0
  /-- PREEMPTIONS, 32 bits (R350). -/
  preemptions : Nat := 0
  /-- Instant its present queue wait began (R349). -/
  waitingSince : Option Nat := none
  /-- The command in execution (R28). -/
  exec : Option Exec := none
  /-- The head command's non-consuming wait has been satisfied (R35). -/
  satisfied : Bool := false
  /-- The head command's retake is its wide variant (R41). -/
  wideNext : Bool := false
  /-- Retakes of the head command (R110). -/
  retakes : Nat := 0
  /-- Watchdog expiries of the head record without a print (R365). -/
  expiries : Nat := 0
  /-- Ceiling holds (R332). -/
  holds : List Hold := []
  /-- Frame the present run computes (R342). -/
  frame : Option Nat := none
  /-- Threads that fetch early for the queue's next command (R19, R165). -/
  early : List Nat := []
  /-- A release waits for the end of a teardown or partition reset (R321). -/
  deferredRelease : Bool := false
  /-- A run of a once job has completed (R321). -/
  onceDone : Bool := false
  /-- Faulted under R23 since its last release, and due for release at the return boundary (R381). -/
  lost : Bool := false
  /-- Instant the teardown under way began (R346). -/
  teardownAt : Option Nat := none
  /-- Output regions of its unprinted command, dark until print or teardown (R28). -/
  dark : List Region := []
  /-- Flow regions of its unprinted command, until print or teardown (R184). -/
  flow : List Region := []
deriving DecidableEq, Repr

/-- One waiting cue operation (R336). -/
structure Waiter where
  /-- Half whose command waits (R337). -/
  half : Half := .a
  /-- Its job context (R336). -/
  ctx : Nat := 0
  /-- Consuming acquisition (else non-consuming wait) (R336). -/
  acquire : Bool := false
  /-- Amount or value, 32 bits (R336). -/
  amount : Nat := 0
deriving DecidableEq, Repr

/-- One cue (R335, R349). -/
structure Cue where
  /-- CUE_STATE.ARMED (R349). -/
  armed : Bool := false
  /-- CUE_STATE.CEILING, 4 bits (R349). -/
  ceiling : Nat := 8
  /-- CUE_STATE.USERS, 8 bits (R349). -/
  users : Nat := 0
  /-- CUE_STATE.COUNTER, 32 bits (R335). -/
  counter : Nat := 0
  /-- INIT of the armed entry, 32 bits (R347). -/
  init : Nat := 0
  /-- Waiting operations in order of arrival (R336). -/
  waiters : List Waiter := []
deriving DecidableEq, Repr

/-- What an arming or a switch still has to do once the teardowns are complete and every changing group's ACTIVE has read 0:
steps 4 and 5 of R327 (R328). -/
structure ArmRest where
  /-- Cue entries to set to INIT (R324). -/
  cues : List CueEntry := []
  /-- Indices of cues that the new sheet does not list; at an arming, every other one (R327). -/
  gone : List Nat := []
  /-- Jobs new in the sheet (R328). -/
  fresh : List JobEntry := []
  /-- An arming: dispatch starts with step 5. -/
  arming : Bool := false
deriving DecidableEq, Repr

/-- The Director's dispatch state of one half (R318 to R350). -/
structure Disp where
  /-- SHEET_STAT.STATE, 2 bits (R349). -/
  sheetState : Nat := 0
  /-- SHEET_STAT.STANDBY (R349). -/
  standby : Bool := false
  /-- SHEET_STAT.ARM_ERROR, 16 bits (R349). -/
  armError : Nat := 0
  /-- The active sheet (R326). -/
  active : Option Sheet := none
  /-- The degraded sheet held (R326). -/
  degraded : Option Sheet := none
  /-- ACTIVE_IMAGE, 64 bits (R350). -/
  activeImage : Nat := 0
  /-- DEGRADED_IMAGE, 64 bits (R350). -/
  degradedImage : Nat := 0
  /-- ARM value (1 arm, 2 disarm) waiting for the period boundary (R327). -/
  armPending : Option Nat := none
  /-- A switch to the degraded sheet waits for the next slot boundary (R376). -/
  switchPending : Bool := false
  /-- Job context whose command is dispatched (R329). -/
  running : Option Nat := none
  /-- Job contexts 0 to 255 (R320). -/
  jobs : Table Job := []
  /-- Cues homed in the half, index 0 to 16383 (R335). -/
  cues : Table Cue := []
  /-- Pre-emptions that a hold suspends: job context, and the sheet line, counted from power-up, and the ns into it at which
  that began (R333). -/
  deferredPreempt : List (Nat × Nat × Nat) := []
  /-- Steps of an arming or a switch that wait for teardowns and groups (R327, R328). -/
  armRest : Option ArmRest := none
  /-- Director watchdog period, units of 100 us (1 ms while no sheet is armed) (R348). -/
  dirWdg : Nat := 10
  /-- CMD_TAG and expected CRC-32C of the slate commands (R368). -/
  slateSigs : List (Nat × Nat) := []
  /-- Jobs are torn down at the next slot boundary (R421). -/
  shutdownPending : Bool := false
deriving DecidableEq, Repr

/-- One thread group (R200). -/
structure Group where
  /-- ENABLED (R200). -/
  enabled : Bool := false
  /-- ACTIVE, 9 bits (R200). -/
  active : Nat := 0
  /-- PARTITION, 3 bits (R200). -/
  part : Nat := 0
  /-- A clear of ENABLED waits for ACTIVE = 0 (R200). -/
  disabling : Bool := false
  /-- Group-map byte the island writes once ACTIVE reads 0 (R327). -/
  next : Option Nat := none
deriving DecidableEq, Repr

/-- One bank's BANK_CTL and BANK_STAT (R181, R201). -/
structure Bank where
  /-- OWNED (R181). -/
  owned : Bool := false
  /-- HOST_WR (R181). -/
  hostWr : Bool := false
  /-- SCRUBBING (R181). -/
  scrubbing : Bool := false
  /-- BANK_OWNER partition, 3 bits (R181). -/
  ownerPart : Nat := 0
  /-- BANK_OWNER role, 5 bits (R181). -/
  ownerRole : Nat := 0
  /-- CE_COUNT, 16 bits (R201). -/
  ceCount : Nat := 0
  /-- UE_COUNT, 8 bits (R201). -/
  ueCount : Nat := 0
  /-- SPARES_USED, 5 bits (from fuses) (R201). -/
  sparesUsed : Nat := 0
  /-- Spare columns the factory used in each sub-array (fuses; log entry 11) (R179). -/
  factory : List Nat := [0, 0, 0, 0]
  /-- RETIRED (from fuses) (R201). -/
  retired : Bool := false
  /-- LAST_SYNDROME, 7 bits (R201). -/
  syndrome : Nat := 0
deriving DecidableEq, Repr

/-- One thread context (R160 to R163). -/
structure Thread where
  /-- Descriptor word 0x00 (R161). -/
  desc0 : BitVec 64 := 0
  /-- Descriptor word 0x08 (R161). -/
  desc1 : BitVec 64 := 0
  /-- Descriptor word 0x10 (R161). -/
  desc2 : BitVec 64 := 0
  /-- Descriptor word 0x18 (R161). -/
  desc3 : BitVec 64 := 0
  /-- Allocated to a command (R165). -/
  busy : Bool := false
  /-- Requests issued so far (R163). -/
  generated : Nat := 0
  /-- Responses delivered so far (R163). -/
  delivered : Nat := 0
  /-- Generation numbers returned and not yet delivered (R163). -/
  returned : List Nat := []
  /-- Its next request waits for tokens (R163). -/
  stalled : Bool := false
  /-- The regulator it waits on: 0 HBM, 1 Contrail; 2 the room of its level in the HBM (R163, R292). -/
  waitsOn : Nat := 0
  /-- Requests of its walk (R162). -/
  total : Nat := 0
  /-- Thread `share.1` of the `share.2` among which a window's output positions are dealt (R166; log entry 112). -/
  share : Nat × Nat := (0, 1)
  /-- The record of the command's chain it serves (R134). -/
  chainIx : Nat := 0
  /-- Its lines one by one, where no loops of the descriptor have them (R162). -/
  lines : Option (List Nat) := none
deriving DecidableEq, Repr

/-- A write into a bank that is being scrubbed: it waits until the scrub ends (R185). -/
inductive HeldWrite where
  /-- Output row `row` of frame `seq` of a stream (R270). -/
  | row (stream seq row addr : Nat) (bytes : List Byte) (clip : Bool)
  /-- Leader row `row` of frame `seq` of a stream (R273). -/
  | leader (stream seq row addr : Nat) (bytes : List Byte) (clip : Bool)
  /-- A host write (R182). -/
  | host (secure : Bool) (addr : Nat) (bytes : List Byte)
deriving DecidableEq, Repr

/-- Dolly of one half (R160 to R201). -/
structure Dolly where
  /-- DOLLY_APPLY.PENDING (R199). -/
  applyPending : Bool := false
  /-- REG_HBM[0..7] in effect (BURST_LINES 0x40, PRIO 3, RATE 0) (R171). -/
  regHbm : List (BitVec 64) := List.replicate 8 0x040C000000000000#64
  /-- REG_CTR[0..7] in effect (R171). -/
  regCtr : List (BitVec 64) := List.replicate 8 0x0400000000000000#64
  /-- Written REG_HBM values (R171). -/
  stagedHbm : List (BitVec 64) := List.replicate 8 0x040C000000000000#64
  /-- Written REG_CTR values (R171). -/
  stagedCtr : List (BitVec 64) := List.replicate 8 0x0400000000000000#64
  /-- REG_HBM values as the last APPLY found them, until the slot boundary (R13). -/
  takeHbm : List (BitVec 64) := List.replicate 8 0x040C000000000000#64
  /-- REG_CTR values as that APPLY found them (R13). -/
  takeCtr : List (BitVec 64) := List.replicate 8 0x0400000000000000#64
  /-- HBM bucket of each partition, 1/1000 byte (R169). -/
  tokHbm : List Nat := List.replicate 8 0
  /-- Contrail bucket of each partition, 1/1000 byte (R169). -/
  tokCtr : List Nat := List.replicate 8 0
  /-- Thread groups 0 to 95 (R200). -/
  groups : Table Group := []
  /-- Banks 0 to 255 (R181). -/
  banks : Table Bank := []
  /-- Thread contexts 0 to 24575 (R160). -/
  threads : Table Thread := []
  /-- Next bank of the background scrubber (R178). -/
  scrubBank : Nat := 0
  /-- Next line of the background scrubber (R178). -/
  scrubLine : Nat := 0
  /-- Instant up to which tokens have been added (R169). -/
  refilledAt : Nat := 0
  /-- Landing and host writes that wait for a scrub, oldest first (R185). -/
  held : List HeldWrite := []
deriving DecidableEq, Repr

/-- One pseudo-channel's error counters (R316). -/
structure HbmErr where
  /-- CE_COUNT, 16 bits (R316). -/
  ce : Nat := 0
  /-- UE_COUNT, 8 bits (R316). -/
  ue : Nat := 0
  /-- PARITY_RETRIES, 8 bits (R316). -/
  parity : Nat := 0
deriving DecidableEq, Repr

/-- One request in a bank queue of a pseudo-channel (R292). -/
structure HbmReq where
  /-- Bank, 0 to 47 (R291). -/
  bank : Nat := 0
  /-- Row (R291). -/
  row : Nat := 0
  /-- Priority level, 0 to 3 (R293). -/
  level : Nat := 0
  /-- The line it names (R292). -/
  line : Nat := 0
  /-- The port it came through (R293). -/
  port : HbmPort := .island
  /-- Acknowledged or answered already: a queued write, or a read whose port has its data (R297). -/
  acked : Bool := true
deriving DecidableEq, Repr

/-- One pseudo-channel: its bank queues, pick pointer, open rows and retraining (R292, R295). -/
structure HbmQueue where
  /-- Requests admitted and not yet served, in order of arrival; a bank's queue is its part of the list (R292). -/
  reqs : List HbmReq := []
  /-- Open rows: bank, row, column accesses in a row (R292). -/
  openRows : List (Nat × Nat × Nat) := []
  /-- Instant up to which command slots have been used (R292). -/
  pickedAt : Nat := 0
  /-- Part of a command slot that has passed since, in 1/80 of it (R408). -/
  slotRest : Nat := 0
  /-- Rotating pick pointer over 48 banks (R292). -/
  pointer : Nat := 0
  /-- Retraining steps done in the present pass, 0 to 16 (R295). -/
  steps : Nat := 0
  /-- Instant of the last retraining step (R295). -/
  lastStepAt : Option Nat := none
  /-- Banks blocked by a refresh or step, with the instant it ends (R294). -/
  blocked : List (Nat × Nat) := []
deriving DecidableEq, Repr

/-- The HBM controller of one half (R288 to R302, R316). -/
structure Hbm where
  /-- HBM_APPLY.PENDING (R316). -/
  applyPending : Bool := false
  /-- HBM_PORT_CTL.HZN_PRIO in effect, 2 bits (R316). -/
  hznPrio : Nat := 0
  /-- DIR_PRIO, 2 bits (R316). -/
  dirPrio : Nat := 0
  /-- PCIE_PRIO, 2 bits (R316). -/
  pciePrio : Nat := 3
  /-- HBM_PORT_CTL as written, 8 bits (R316). -/
  stagedPort : Nat := 12
  /-- HBM_PORT_CTL as the last APPLY found it, until the slot boundary (R13). -/
  takePort : Nat := 12
  /-- HBM_STAT.STACK_TEMP, 8 bits (R316). -/
  stackTemp : Nat := 0
  /-- HBM_STAT.TRAIN, 2 bits (R316). -/
  train : Nat := 0
  /-- REFRESH_2X (R316). -/
  refresh2x : Bool := false
  /-- RETRAIN_DUE (R316). -/
  retrainDue : Bool := false
  /-- RETRAIN_LATE (R316). -/
  retrainLate : Bool := false
  /-- LANES_REPAIRED, 6 bits (R316). -/
  lanesRepaired : Nat := 0
  /-- RETRAIN_PASSES, 32 bits (R316). -/
  passes : Nat := 0
  /-- HBM_PC_ERR[0..31] (R316). -/
  pcErr : Table HbmErr := []
  /-- Pseudo-channels 0 to 31 (R292). -/
  queues : Table HbmQueue := []
  /-- HBM_LOG[0..63], 32 bytes each (R301). -/
  log : Table (List Byte) := []
  /-- HBM_LOG_HEAD, 6 bits (R316). -/
  logHead : Nat := 0
  /-- Events logged since reset (R301). -/
  logCount : Nat := 0
  /-- Stack temperature at the last pass (R295). -/
  passTemp : Nat := 0
  /-- Instant of the last completed pass (R295). -/
  passAt : Nat := 0
  /-- Instant the present pass became due (R295). -/
  dueSince : Option Nat := none
  /-- Requests that timed out and whose response has not come: port, line (R299). -/
  late : List (HbmPort × Nat) := []
  /-- Buckets of the Horizon, Director and PCIe ports, 1/1000 byte (R293). -/
  tokPort : List Nat := [4096000, 4096000, 4096000]
  /-- Tokens that an admitted access of the Horizon, Director and PCIe ports still owes its bucket, 1/1000 byte
  (R293). -/
  owed : List Nat := [0, 0, 0]
deriving DecidableEq, Repr

/-- One data packet in the receiver's write queue (R304, R308). -/
structure LinkPacket where
  /-- Producing job context of the partner half (R308). -/
  ctx : Nat := 0
  /-- Line-aligned destination (R304). -/
  addr : Nat := 0
  /-- Up to 256 bytes (R304). -/
  bytes : List Byte := []
  /-- World of the producing job (R471). -/
  nonSecure : Bool := false
deriving DecidableEq, Repr

/-- One half's Contrail end (R303 to R311). -/
structure Link where
  /-- CTR_APPLY.PENDING (R316). -/
  applyPending : Bool := false
  /-- CTR_APPLY.ERR (R316). -/
  err : Bool := false
  /-- CTR_STAT.LINK_STATE, 2 bits (R316). -/
  state : Nat := 0
  /-- SPARES_USED, 5 bits (R316). -/
  sparesUsed : Nat := 0
  /-- REPLAYS, 16 bits (R316). -/
  replays : Nat := 0
  /-- CORRECTED, 16 bits (R316). -/
  corrected : Nat := 0
  /-- CTR_SHARE[0..7] in effect, 10 bits (R316). -/
  share : List Nat := List.replicate 8 64
  /-- CTR_SHARE as written (R316). -/
  stagedShare : List Nat := List.replicate 8 64
  /-- CTR_SHARE as the last accepted APPLY found it, until the slot boundary (R13). -/
  takeShare : List Nat := List.replicate 8 64
  /-- Credits in use per partition (R304). -/
  creditsUsed : List Nat := List.replicate 8 0
  /-- Packets received and waiting for the bank pool (R304). -/
  writeQueue : List LinkPacket := []
  /-- Flits accepted in send order (R305). -/
  flitSeq : Nat := 0
  /-- The oldest undelivered flit was negatively acknowledged and is awaited (R305). -/
  naked : Bool := false
  /-- Instants of the replays of the last 1 ms (R309). -/
  replayTimes : List Nat := []
  /-- Consecutive failed replays of one flit (R309). -/
  failedReplays : Nat := 0
  /-- A retraining was started and has not completed (R310). -/
  retraining : Bool := false
  /-- The link has gone down since the last arming: cross-half jobs do not run (R310). -/
  waitArm : Bool := false
  /-- Control messages sent and not yet delivered, oldest first (R306). -/
  outbox : List CtrMessage := []
  /-- Data packets sent and not yet delivered, oldest first (R305). -/
  outData : List LinkPacket := []
  /-- Data packets that wait for a credit of their partition, oldest first (R304). -/
  unsent : List LinkPacket := []
  /-- Bytes of the oldest sent packet that its flits have delivered (R303). -/
  flitBytes : Nat := 0
  /-- Instant of the last acknowledgement of the half's flits (R309). -/
  ackAt : Nat := 0
  /-- The last control flit received, by its 4 ns unit, and the messages taken from it (R303). -/
  control : Nat × Nat := (0, 0)
deriving DecidableEq, Repr

/-- One region descriptor (R312, R316). -/
structure RegionDesc where
  /-- REGION_BASE, page number, 28 bits (R316). -/
  base : Nat := 0
  /-- REGION_LIMIT, page number, 28 bits (R316). -/
  limit : Nat := 0
  /-- REGION_ATTR (R316). -/
  attr : BitVec 64 := 0
deriving DecidableEq, Repr

/-- Region protection of one half (R312 to R316). -/
structure Prot where
  /-- PROT_CTL.LOCK in effect (R316). -/
  lock : Bool := false
  /-- PROT_CTL.ENFORCE in effect (R316). -/
  enforce : Bool := false
  /-- PROT_CTL.ERR (R316). -/
  err : Bool := false
  /-- PROT_CTL.PENDING (R316). -/
  pending : Bool := false
  /-- LOCK as written (R316). -/
  stagedLock : Bool := false
  /-- ENFORCE as written (R316). -/
  stagedEnforce : Bool := false
  /-- Descriptors 0 to 63 in effect (R312). -/
  regions : Table RegionDesc := []
  /-- Descriptors as written (R315). -/
  staged : Table RegionDesc := []
  /-- LOCK as the last accepted APPLY found it, until the slot boundary (R13). -/
  takeLock : Bool := false
  /-- ENFORCE as that APPLY found it (R13). -/
  takeEnforce : Bool := false
  /-- Descriptors as that APPLY found them (R13). -/
  take : Table RegionDesc := []
deriving DecidableEq, Repr

/-- One frame-sync output (R266). -/
structure Fsync where
  /-- ENABLE (R266). -/
  enable : Bool := false
  /-- POLARITY (R266). -/
  activeLow : Bool := false
  /-- SENSE, level at the ball (R266). -/
  sense : Bool := false
  /-- WIDTH_M1, 4 bits (R266). -/
  widthM1 : Nat := 0
  /-- OFFSET, 12 bits (R266). -/
  offset : Nat := 0
  /-- Level driven (R266). -/
  driven : Bool := false
  /-- Lines of the present pulse still to come (R266). -/
  linesLeft : Nat := 0
  /-- Driven low by the island after FSYNC_FAULT (R266). -/
  faulted : Bool := false
  /-- SHEET_FRAME at its last active edge (R266). -/
  edgeFrame : Nat := 0
  /-- Sheet line, counted from power-up, at whose start that edge fell (R271). -/
  edgeAt : Option Nat := none
deriving DecidableEq, Repr

/-- One CSI-2 receiver port (R253, R286). -/
structure Port where
  /-- PORT_CTL 63:48 (ENABLE, lanes, lane map, polarity) (R286). -/
  ctl : BitVec 64 := 0
  /-- PORT_CTL as written, not yet applied (R13). -/
  written : Option (BitVec 64) := none
  /-- PORT_CTL as the last APPLY found it, until the slot boundary (R13). -/
  taken : Option (BitVec 64) := none
  /-- Header errors corrected, 16 bits (R286). -/
  corrected : Nat := 0
  /-- Packets discarded, 16 bits (R286). -/
  discarded : Nat := 0
deriving DecidableEq, Repr

/-- The configuration registers of one stream context (R258, R259, R286). -/
structure StreamCfg where
  /-- STREAM_CTL (LAND_FMT 0x1, FIRST_LINE 0x029) (R258). -/
  ctl : BitVec 64 := 0x0000020000290000#64
  /-- STREAM_GEOM word 0 (R259). -/
  geom0 : BitVec 64 := 0x3BF8000EFE000000#64
  /-- STREAM_GEOM word 1 (R259). -/
  geom1 : BitVec 64 := 0x4370004370000000#64
  /-- LAND_DESC, 40 bits (R286). -/
  landDesc : Nat := 0
  /-- LEADER_PTR, 40 bits (R286). -/
  leaderPtr : Nat := 0
  /-- LEADER_LINE, 12 bits (R273). -/
  leaderLine : Nat := 1
  /-- RESULT_DESC, 40 bits (R286). -/
  resultDesc : Nat := 0
  /-- STREAM_RES (R279). -/
  res : BitVec 64 := 0
  /-- STREAM_NORM[0..3] (R286). -/
  norm : List (BitVec 64) := List.replicate 4 0x000000003F800000#64
  /-- LEADER_CRC[0..15], 32 bits (R286). -/
  leaderCrc : List Nat := List.replicate 16 0
deriving DecidableEq, Repr

/-- One frame of a stream in a half, from its frame-start to its record (R266, R276, R279, R341 to R343). -/
structure Frame where
  /-- FRAME_SEQ, 32 bits (R266). -/
  seq : Nat := 0
  /-- Instant of the frame-start (R276). -/
  startedAt : Nat := 0
  /-- Line-start packets received (R276). -/
  lineStarts : Nat := 0
  /-- Long packets received (R269). -/
  longPackets : Nat := 0
  /-- Output rows gathered, written or waiting for a scrub (R185, R269). -/
  rowsFormed : Nat := 0
  /-- Output rows written (R271). -/
  rowsLanded : Nat := 0
  /-- Frame-end received or the frame ended early (R276). -/
  ended : Bool := false
  /-- Its mark is final (R276). -/
  final : Bool := false
  /-- FRAME_MARK, 16 bits (R276). -/
  mark : Nat := 0
  /-- Instant of its last landing (R271). -/
  lastLanding : Option Nat := none
  /-- Treated as marked after a CHECK_FAIL or an arming (R370). -/
  withheldBy : Bool := false
  /-- A run of it has ended or was torn down (R321). -/
  runOver : Bool := false
  /-- Print token: free, held by Half A or by Half B (R343). -/
  token : Token := .free
  /-- Its deadline has passed (R341). -/
  deadlinePassed : Bool := false
  /-- Its backup time has passed (R342). -/
  backupDue : Bool := false
  /-- Instant at which its result printed (R281). -/
  printed : Option Nat := none
  /-- Sheet line at print (R281). -/
  printLine : Nat := 0
  /-- WIDE, CHECK_PASS, CLIP, NAN and INF_IN of the printed result (R110). -/
  status8 : Nat := 0
  /-- RETAKES of the printed result (R281). -/
  retakes : Nat := 0
  /-- CMD_TAG of the printed result (R281). -/
  cmdTag : Nat := 0
  /-- A record has been written or dropped (R39). -/
  recorded : Bool := false
  /-- Printed under the degraded sheet (R282). -/
  fallback : Bool := false
  /-- Finished by the survivor although the tokens have returned (R380). -/
  kept : Bool := false
  /-- Sheet line, counted from power-up, at which its first active line is expected (R261, R271). -/
  expectAt : Nat := 0
  /-- DEADLINE_NS of the sheet whose jobs were torn down before the result printed (R327). -/
  abandonNs : Option Nat := none
deriving DecidableEq, Repr

/-- One stream context (R257, R286). -/
structure Stream where
  /-- Configuration in effect (R258). -/
  cfg : StreamCfg := {}
  /-- Applied configuration waiting for the stream's next frame-start (R264). -/
  staged : Option StreamCfg := none
  /-- Register values written and not yet applied (R13). -/
  written : Option StreamCfg := none
  /-- Register values as the last APPLY found them, until the slot boundary (R13). -/
  taken : Option StreamCfg := none
  /-- STREAM_STAT.DISCARDED, 16 bits (R286). -/
  discarded : Nat := 0
  /-- STREAM_STAT.MARKED, 16 bits (R286). -/
  marked : Nat := 0
  /-- STREAM_STAT.LANDED, 16 bits (R286). -/
  landed : Nat := 0
  /-- STREAM_STAT last FRAME_MARK, 16 bits (R286). -/
  lastMark : Nat := 0
  /-- SHEET_FRAME at the last active edge of its FSYNC_SEL output before its newest frame-start (R266). -/
  seqSource : Nat := 0
  /-- Frames open or without a record, newest first (R276). -/
  frames : List Frame := []
  /-- Cropped source lines gathered for the next output row (R269). -/
  lines : List (List Nat) := []
  /-- Index of the next line-start of the frame on the wire; none between frames (R261). -/
  activeLine : Option Nat := none
  /-- SHEET_FRAME of the last leader rows (R275). -/
  leaderSeq : Nat := 0
  /-- FRAME_MARK bits those rows gave (R275). -/
  leaderBits : Nat := 0
  /-- Consecutive frames with LEADER_FAIL (R373). -/
  leaderFails : Nat := 0
  /-- FRAME_SEQ of the last record counted in PRODUCER (R358). -/
  lastRecord : Option Nat := none
deriving DecidableEq, Repr

/-- One result ring (R280 to R285). -/
structure Ring where
  /-- RING_BASE, 64 bits (R280). -/
  base : Nat := 0
  /-- RING_CB, 64 bits (R280). -/
  cb : Nat := 0
  /-- RING_CTL.ENABLE (R280). -/
  enable : Bool := false
  /-- SLOTS_LOG2, 5 bits (R280). -/
  slotsLog2 : Nat := 4
  /-- SLOT_LOG2, 5 bits (R280). -/
  slotLog2 : Nat := 8
  /-- MSIX, 5 bits (R280). -/
  msix : Nat := 0
  /-- PRODUCER, 32 bits (R280). -/
  producer : Nat := 0
  /-- NEXT_SEQ, 64 bits (R280). -/
  nextSeq : Nat := 0
  /-- LAST_FRAME, 32 bits (R280). -/
  lastFrame : Nat := 0
  /-- CONSUMER as last read, 32 bits (R284). -/
  consumer : Nat := 0
  /-- Instant of the last read of CONSUMER (R284). -/
  consumerReadAt : Option Nat := none
  /-- Records dropped since the last OVERFLOW record (R284). -/
  dropped : Nat := 0
  /-- FRAME_SEQ of the first dropped record (R282). -/
  firstDropped : Nat := 0
  /-- FRAME_SEQ of the last dropped record (R282). -/
  lastDropped : Nat := 0
  /-- A GAP record is due first (R285). -/
  gapDue : Bool := false
deriving DecidableEq, Repr

/-- LINE_CTL's writable fields (R263). -/
structure LineCfg where
  /-- MODE: true locked (R263). -/
  locked : Bool := false
  /-- MODE was written with a reserved value (R263). -/
  reservedMode : Bool := false
  /-- MASTER, 5 bits (R263). -/
  master : Nat := 0
  /-- ALT_MASTER, 5 bits (R263). -/
  altMaster : Nat := 0
  /-- ALT_EN (R263). -/
  altEn : Bool := false
  /-- FRAME_LINES, 12 bits (R263). -/
  frameLines : Nat := 1125
  /-- LINE_NS, 17 bits (R263). -/
  lineNs : Nat := 14800
  /-- LOCK_TOL, 12 bits (R263). -/
  lockTol : Nat := 1000
deriving DecidableEq, Repr

/-- Horizon of one half (R253 to R286). -/
structure Hzn where
  /-- HZN_APPLY.ERR (R286). -/
  err : Bool := false
  /-- An accepted apply waits for its slot boundary (R264). -/
  pending : Bool := false
  /-- LINE_CTL in effect (R263). -/
  line : LineCfg := {}
  /-- LINE_CTL as written, not yet applied (R13). -/
  lineWritten : Option LineCfg := none
  /-- LINE_CTL as the last APPLY found it, until the slot boundary (R13). -/
  lineTaken : Option LineCfg := none
  /-- LINE_CTL applied at a slot boundary, waiting for line 0 (R264). -/
  lineStaged : Option LineCfg := none
  /-- FSYNC_CTL words written, not yet applied (R13). -/
  fsyncWritten : Table (BitVec 32) := []
  /-- FSYNC_CTL words as the last APPLY found them, until the slot boundary (R13). -/
  fsyncTaken : Table (BitVec 32) := []
  /-- FSYNC_CTL words waiting for line 0 (R264). -/
  fsyncStaged : Table (BitVec 32) := []
  /-- LOCK_STATE (R262). -/
  lockState : LockState := .freeRun
  /-- ON_ALT (R263). -/
  onAlt : Bool := false
  /-- SHEET_FRAME, 32 bits (R260). -/
  sheetFrame : Nat := 0
  /-- Present sheet line, 12 bits (R260). -/
  lineNo : Nat := 0
  /-- Instant the present sheet line began (R286). -/
  lineStart : Nat := 0
  /-- Length of the present sheet line in ns, fixed at its start (R260, R261). -/
  linePeriod : Nat := 14800
  /-- Sheet lines begun since power-up (R260). -/
  lines : Nat := 0
  /-- Instant of the last move to LOCKED (R268). -/
  lockedAt : Nat := 0
  /-- LINE_STAT last e, I32 (R286). -/
  lastE : Int := 0
  /-- LINE_STAT delta, I32 (R286). -/
  delta : Int := 0
  /-- Consecutive in-tolerance line-starts (R262). -/
  goodRun : Nat := 0
  /-- Consecutive bad packets (R262). -/
  badRun : Nat := 0
  /-- A line-start of the stream in use arrived in this sheet frame (R262). -/
  seenThisFrame : Bool := false
  /-- Consecutive in-window packets in holdover (R262). -/
  holdoverRun : Nat := 0
  /-- Frame-sync outputs 0 to 3 (R266). -/
  fsync : Table Fsync := []
  /-- Receiver ports 0 to 5 (R286). -/
  ports : Table Port := []
  /-- Stream contexts 0 to 23 (R257). -/
  streams : Table Stream := []
  /-- Result rings 0 to 3 (R280). -/
  rings : Table Ring := []
  /-- The partner's SHEET_FRAME is adopted at the next line 0 (R268). -/
  adopt : Bool := false
deriving DecidableEq, Repr

/-- One lockstep pair (R352 to R357). -/
structure Pair where
  /-- Halted by the debugger (R356). -/
  halted : Bool := false
  /-- Comparison armed (R356). -/
  comparing : Bool := true
  /-- A debugger action could not be replayed into the checker (R356). -/
  diverged : Bool := false
  /-- Its core self-test runs (R357). -/
  testing : Bool := false
  /-- Last verdict, 0 none (R357). -/
  verdict : Nat := 0
  /-- Ring index of the log entry of its last mismatch (R357). -/
  entryAt : Nat := 0
  /-- Registers and private state of the main copy written by the debugger (R356). -/
  main : List (Nat × Nat) := []
  /-- The same of the checker copy (R356). -/
  checker : List (Nat × Nat) := []
deriving DecidableEq, Repr

/-- One slab (R385 to R388, R396). -/
structure Slab where
  /-- Score, 0 to 255 (R385). -/
  score : Nat := 0
  /-- Active, spare or retired (R396). -/
  state : SlabState := .active
  /-- Slab column it serves while active (a retired slab's column passes to its row's spare) (R386). -/
  col : Nat := 0
  /-- Consecutive passes at shutdown BIST, 2 bits (R388). -/
  passCount : Nat := 0
  /-- Instant from which the next 10 s of decay runs (R385). -/
  lastEvent : Nat := 0
deriving DecidableEq, Repr

/-- One receiving heartbeat lane (R358 to R360). -/
structure HbLane where
  /-- HB_SEQ of the last good heartbeat (R358). -/
  lastSeq : Option Nat := none
  /-- Instant of the last good heartbeat (R359). -/
  lastAt : Option Nat := none
  /-- HB_SEQ of the next heartbeat sent, 32 bits (R358). -/
  txSeq : Nat := 0
  /-- The last heartbeat sent on the lane (R358). -/
  sent : List Byte := []
  /-- Instant since which good in-service heartbeats have arrived without a gap (R360). -/
  goodSince : Option Nat := none
  /-- Reported silent by HB_LANE (R358). -/
  silent : Bool := false
deriving DecidableEq, Repr

/-- The configuration snapshot (R378). -/
structure Snapshot where
  /-- LINE_CTL (R378). -/
  line : LineCfg := {}
  /-- FSYNC_CTL (R378). -/
  fsync : Table Fsync := []
  /-- PORT_CTL (R378). -/
  ports : Table Port := []
  /-- Stream registers (R378). -/
  streams : Table StreamCfg := []
  /-- Ring registers (R378). -/
  rings : Table Ring := []
  /-- HBM_PORT_CTL (R378). -/
  portCtl : Nat := 12
  /-- CTR_SHARE (R378). -/
  share : List Nat := List.replicate 8 64
  /-- Region descriptors (R378). -/
  regions : Table RegionDesc := []
  /-- ENFORCE (R378). -/
  enforce : Bool := false
  /-- LOCK (R378). -/
  lock : Bool := false
  /-- SAFETY_MODE (R378). -/
  safetyMode : Nat := 0
  /-- ACTIVE_IMAGE (R378). -/
  activeImage : Nat := 0
  /-- DEGRADED_IMAGE (R378). -/
  degradedImage : Nat := 0
  /-- A sheet was armed (R378). -/
  arm : Bool := false
  /-- Its CRC-32C is right (R378). -/
  good : Bool := true
  /-- A snapshot has been taken since power-up (R378). -/
  taken : Bool := false
deriving DecidableEq, Repr

/-- The repair record in the boot flash (R389, R420). -/
structure Repair where
  /-- Retirement map, pass counts and scores as last written (R389). -/
  slabs : Table Slab := []
  /-- DERATE, 64 bits (R389). -/
  derate : Nat := 0
  /-- Derate event counters: unit, band, powered hour (R389). -/
  derateEvents : List (Nat × Nat × Nat) := []
  /-- Lockstep verdicts (R389). -/
  verdicts : List Nat := []
  /-- AGE values (R420). -/
  age : List Nat := List.replicate 12 0
  /-- Ageing guards, 0.5 mV (R420). -/
  guards : List Nat := List.replicate 5 0
  /-- POWERED_HOURS (R420). -/
  poweredHours : Nat := 0
  /-- LAST_BIST (R429). -/
  lastBist : Nat := 0
  /-- Slabs set to score 128 by BIST (R424). -/
  pendingSlabs : List Nat := []
  /-- Tj of the previous ageing measurement, 1/16 °C (R419). -/
  ageTemp : Int := 0
  /-- Units, with their failing elements, that the last BIST found and that are reported at Boot (R424). -/
  failedUnits : List (Nat × Nat) := []
deriving DecidableEq, Repr

/-- The continuity island of one half (R352 to R397). -/
structure Isl where
  /-- FAULT_LOG ring of 256 entries, 32 bytes each (R361). -/
  log : Table (List Byte) := []
  /-- FAULT_LOG_HEAD, entries written since power-up (R396). -/
  logCount : Nat := 0
  /-- HALF_STATE, 8 bits (R396). -/
  halfState : Nat := 1
  /-- RESTARTS, 16 bits (R396). -/
  restarts : Nat := 0
  /-- LAST_HALF_FAULT, 16 bits (R396). -/
  lastHalfFault : Nat := 0
  /-- SAFETY_MODE, 8 bits (R396). -/
  safetyMode : Nat := 0
  /-- The half is fenced (R374). -/
  fenced : Bool := false
  /-- Level of ISL_FAULT_N (false: asserted low) (R397). -/
  faultN : Bool := false
  /-- Instants at which restarts began (R382). -/
  restartTimes : List Nat := []
  /-- Director pairs 0 and 1, island pair 2 (R352). -/
  pairs : List Pair := [{}, {}, {}]
  /-- The two receiving heartbeat lanes (R358). -/
  lanes : List HbLane := [{}, {}]
  /-- HALF_STATE in the partner's last heartbeat, 0 none (R358). -/
  partnerState : Nat := 0
  /-- SHEET_FRAME in the partner's last heartbeat (R358). -/
  partnerFrame : Nat := 0
  /-- LAST_FRAME[0..23] of the partner (R358). -/
  partnerLast : List Nat := List.replicate 24 4294967295
  /-- COOL_IN, COOL_OUT, FLOW of the partner when valid (R358). -/
  partnerCool : Option (Int × Int × Nat) := none
  /-- Paired with the partner (R360). -/
  paired : Bool := false
  /-- The partner has been declared lost (R359). -/
  partnerLost : Bool := false
  /-- PARTNER_LOST already logged for an unpaired partner (R360). -/
  partnerReported : Bool := false
  /-- Holds the print tokens of the partner's shadowed streams (R375). -/
  holdsTokens : Bool := false
  /-- Stream and FRAME_SEQ reported by HALF_DOWN (R374). -/
  downFrames : List (Nat × Nat) := []
  /-- The half's own HALF_DOWN, formed as it is fenced: home context and the last FRAME_SEQ counted in PRODUCER (R374). -/
  downMessage : List (Nat × Nat) := []
  /-- RESTART_REQ towards the partner is asserted (R359). -/
  restartReq : Bool := false
  /-- Instant of the half's service-ready (R360). -/
  readyAt : Option Nat := none
  /-- SHEET_FRAME of the return boundary (R380). -/
  returnFrame : Option Nat := none
  /-- A restarted half before its return boundary (R380). -/
  withholding : Bool := false
  /-- 272 slabs, row-major, spares last in each row (R385). -/
  slabs : Table Slab := []
  /-- RETIREMENTS, 0 to 2 (R396). -/
  retirements : Nat := 0
  /-- Slabs that reached 128, with the SHEET_FRAME of that instant (R386). -/
  retireDue : List (Nat × Nat) := []
  /-- DERATE, bit 8u+b (R396). -/
  derate : Nat := 0
  /-- Derate-counted events: unit, band, powered hour (R392). -/
  derateEvents : List (Nat × Nat × Nat) := []
  /-- DISAGREE, 10 counts of 16 bits (R396). -/
  disagree : List Nat := List.replicate 10 0
  /-- Sheet frames of the disagreements of each unit in the window (R371). -/
  disagreeAt : List (List Nat) := List.replicate 10 []
  /-- Units whose self-test slices are due; 16 a LOCALISE after a slate mismatch (R369) (R371). -/
  slicesDue : List Nat := []
  /-- Self-test slices in progress that a more critical slot is going to cut short (R395). -/
  slices : List SliceKind := []
  /-- Self-test slices that were cut short and whose retake is due (R395). -/
  slicesCut : List SliceKind := []
  /-- A frame and the number of streams with LEADER_FAIL in it (R371). -/
  leaderFrame : Nat × Nat := (0, 0)
  /-- Unit and sheet frame of the last BEYOND_FLOOR (R414). -/
  beyondFloor : List (Nat × Nat) := []
  /-- Configuration snapshot (R378). -/
  snapshot : Snapshot := {}
  /-- Repair record (R389). -/
  repair : Repair := {}
  /-- Instant of the class 5 event being handled (R379). -/
  lastClass5 : Nat := 0
  /-- Verdict that the mask ROM must repeat at restart (R357). -/
  coreFailed : Nat := 0
  /-- Held out after a failed snapshot until software configures and arms it again (R378). -/
  unconfigured : Bool := false
deriving DecidableEq, Repr

/-- One throttle unit's Zenith state (R413, R428). -/
structure Unit where
  /-- REACT, 4 bits (R428). -/
  react : Nat := 0
  /-- FORECAST, 4 bits (R428). -/
  forecast : Nat := 0
  /-- DERATE, 4 bits (R428). -/
  derateSteps : Nat := 0
  /-- Step kept after AGE_WARN (R420). -/
  ageStep : Nat := 0
  /-- STEPS, 4 bits (R428). -/
  steps : Nat := 0
  /-- T(u) in 1/16 C (R428). -/
  temp16 : Int := 0
deriving DecidableEq, Repr

/-- One core rail (R403, R428). -/
structure Rail where
  /-- Setpoint in mV (per rail, see RAILS) (R428). -/
  setpoint : Nat := 800
  /-- Measured output in mV (R428). -/
  measured : Nat := 800
  /-- Ageing guard in 0.5 mV (R420). -/
  guard : Nat := 0
deriving DecidableEq, Repr

/-- One cooling status bit's timer (R418). -/
structure CoolBit where
  /-- Instant since which its condition has held (or been absent) (R418). -/
  since : Option Nat := none
deriving DecidableEq, Repr

/-- Zenith of one half (R400 to R430). -/
structure Zen where
  /-- Power state of the half (R400). -/
  power : PowerState := .boot
  /-- VIN_CORE in mV (R428). -/
  vinMv : Nat := 1800
  /-- Half power in 1/16 W (R428). -/
  power16 : Nat := 0
  /-- 72 sensors, 1/16 C (R428). -/
  sensors : Table Int := []
  /-- Sensors at 115 C or more with the instant it began (R416). -/
  sensorHigh : List (Nat × Nat) := []
  /-- Instant since which every sensor reads below 95 C (R416). -/
  coolSince : Option Nat := none
  /-- THERMAL_TRIP holds the restart (R416). -/
  tripped : Bool := false
  /-- Compute-die regulators on (R416). -/
  regsOn : Bool := true
  /-- Units 0 to 11 (R428). -/
  units : Table Unit := []
  /-- VDD_ARRAY, VDD_MEM, VDD_PHY, VDD_LINK, VDD_ISL (R428). -/
  rails : List Rail := [{ setpoint := 730, measured := 730 }, {}, { setpoint := 750, measured := 750 },
    { setpoint := 750, measured := 750 }, {}]
  /-- Field fuse rows 0 to 63 (R425). -/
  fuseRows : Table (BitVec 32) := []
  /-- POWER_EVENTS, 8 bits (R429). -/
  powerEvents : Nat := 0
  /-- SUPPLY_RANGE is set (R405). -/
  supplyBad : Bool := false
  /-- Event code of the last entry into Degraded (R401). -/
  degradedCause : Nat := 0
  /-- Instant since which every Degraded condition has been clear (R400). -/
  degradedClear : Option Nat := none
  /-- ONSET_C (R429). -/
  onset : Nat := 105
  /-- HBM_ONSET_C (R429). -/
  hbmOnset : Nat := 95
  /-- COOL_STATUS, 8 bits (R429). -/
  coolStatus : Nat := 0
  /-- Instants since which the three conditions differ from their bits (R418). -/
  coolTimers : List (Option Nat) := [none, none, none]
  /-- Inlet temperature in 1/16 C, none when absent (R417). -/
  coolIn16 : Option Int := none
  /-- Outlet temperature in 1/16 C (R417). -/
  coolOut16 : Option Int := none
  /-- Instants of the flow pulses of the last 1 s (R417). -/
  flowPulses : List Nat := []
  /-- Instant of the last flow pulse (R418). -/
  lastFlow : Option Nat := none
  /-- NTC_R25 (R429). -/
  ntcR25 : Nat := 10000
  /-- NTC_B (R429). -/
  ntcB : Nat := 3435
  /-- FLOW_K (R429). -/
  flowK : Nat := 2000
  /-- CP_VOL, FP32 3570 (R429). -/
  cpVol : BitVec 32 := 0x455F2000#32
  /-- COOL_SRC (R429). -/
  coolSrc : Nat := 0
  /-- AGE, 12 values of 16 bits (R429). -/
  age : List Nat := List.replicate 12 0
  /-- Tj of the previous ageing measurement, 1/16 C (R419). -/
  ageTemp : Int := 0
  /-- POWERED_HOURS (R429). -/
  poweredHours : Nat := 0
  /-- Instant at which the present powered hour began (R419). -/
  hourAt : Nat := 0
  /-- LAST_BIST (R429). -/
  lastBist : Nat := 0
  /-- Shutdown was requested with BIST (R421). -/
  bistRequested : Bool := false
  /-- BIST runs (R423). -/
  bistRunning : Bool := false
  /-- BIST_RESULT entries (R426). -/
  bistResult : List (BitVec 64) := []
  /-- FAIL_OVERFLOW, 32 bits (R426). -/
  failOverflow : Nat := 0
  /-- Instant of the last step added (R413). -/
  lastAdd : Option Nat := none
  /-- Instant of the last step removed (R413). -/
  lastRemove : Option Nat := none
  /-- Instant, unit and t(u) of the throttle updates of the last 1 ms (R413). -/
  hotHistory : List (Nat × Nat × Int) := []
  /-- Instant of the last THERMAL_ONSET (R414). -/
  onsetLoggedAt : Option Nat := none
  /-- Instant of the last POWER_LIMIT (R415). -/
  limitLoggedAt : Option Nat := none
  /-- C(L) of the present line (R410). -/
  forecastClass : Nat := 7
  /-- Filtered model correction, 1/16 C (R412). -/
  deltaModel : Int := 0
  /-- Reference clock within its limits (R406). -/
  refOk : Bool := true
  /-- Instant and value of the hottest sensor minus the model, 1/16 °C, over the last 1 s (R412). -/
  deltaHist : List (Nat × Int) := []
  /-- Instant and half power in 1/16 W of the readings of the last 10 s (R8) (R429). -/
  powerHist : List (Nat × Nat) := []
  /-- Instant of the last power-on or restart, from which a missing flow pulse is timed (R418). -/
  startedAt : Nat := 0
deriving DecidableEq, Repr

/-- One half's edit session (R445). -/
structure Session where
  /-- STATE, 8 bits (R445). -/
  state : Nat := 0
  /-- HOLDER, 8 bits (R445). -/
  holder : Nat := 255
  /-- Staged entries: index, sub-index, data (R446). -/
  staged : List (Nat × Nat × List Byte) := []
  /-- Committed set waiting for its boundary (R449). -/
  committed : List (Nat × Nat × List Byte) := []
  /-- Committed set released to its blocks, not yet in effect in every part (R449). -/
  released : List (Nat × Nat × List Byte) := []
  /-- RESULT, 16 bits (R445). -/
  result : Nat := 0
  /-- APPLIED_AT, 64 bits (R445). -/
  appliedAt : Nat := 0
  /-- Instant of the last write (R450). -/
  lastWrite : Nat := 0
  /-- The set committed last, and the instant of its commit: a boundary at that instant does not release it (R470). -/
  newest : List (Nat × Nat × List Byte) := []
  /-- Instant of the last commit (R470). -/
  committedAt : Nat := 0
deriving DecidableEq, Repr

/-- One dictionary channel of a half (R439 to R444). -/
structure Chan where
  /-- A transaction is in flight (R443). -/
  inFlight : Bool := false
  /-- Instant of its last segment (R444). -/
  startedAt : Nat := 0
  /-- Its TXN (R439). -/
  txn : Nat := 0
  /-- Its INDEX (R439). -/
  index : Nat := 0
  /-- Its SUB (R439). -/
  sub : Nat := 0
  /-- Data gathered so far (R442). -/
  gathered : List Byte := []
  /-- Last response (R440). -/
  response : List Byte := []
deriving DecidableEq, Repr

/-- One half's CAN FD controller (R458 to R461). -/
structure Can where
  /-- On the bus (R467). -/
  onBus : Bool := false
  /-- Bus-off (R458). -/
  busOff : Bool := false
  /-- Leaving the bus to rejoin with new settings (R459). -/
  rejoinAt : Option Nat := none
  /-- REQ_ID (R459). -/
  reqId : Nat := 0x1B4A0100
  /-- RSP_ID (R459). -/
  rspId : Nat := 0x1B4A0101
  /-- EMCY_ID (R459). -/
  emcyId : Nat := 0x1B4A0080
  /-- NOMINAL_KBPS (R459). -/
  nominalKbps : Nat := 500
  /-- DATA_KBPS (R459). -/
  dataKbps : Nat := 2000
  /-- BUS_OFF_COUNT, 16 bits (R459). -/
  busOffCount : Nat := 0
  /-- EMCY_LOST, 16 bits (R459). -/
  emcyLost : Nat := 0
  /-- Queued emergency messages, oldest first (R461). -/
  emcyQueue : List (List Byte) := []
  /-- EMCY_SEQ of the next message, 8 bits (R460). -/
  emcySeq : Nat := 0
  /-- Messages were dropped since the last one sent (R461). -/
  lostFlag : Bool := false
  /-- Frames sent: identifier, data, newest first (R458). -/
  txFrames : List (Nat × List Byte) := []
deriving DecidableEq, Repr

/-- One half's PCIe endpoint (R462 to R466). -/
structure Pcie where
  /-- LINK_STATE, 8 bits (R466). -/
  linkState : Nat := 0
  /-- LINK_SPEED (R466). -/
  linkSpeed : Nat := 0
  /-- LINK_WIDTH (R466). -/
  linkWidth : Nat := 0
  /-- AER_CORRECTABLE, 32 bits (R466). -/
  aerCorr : Nat := 0
  /-- AER_UNCORRECTABLE, 32 bits (R466). -/
  aerUncorr : Nat := 0
  /-- Level of PCIE_PERST_N (true: deasserted) (R466). -/
  perstN : Bool := false
  /-- Bus Master Enable (R465). -/
  busMaster : Bool := false
  /-- In D3hot (R463). -/
  d3hot : Bool := false
  /-- Max Payload Size in force (R463). -/
  maxPayload : Nat := 128
  /-- Max Read Request in force (R463). -/
  maxRead : Nat := 512
  /-- Other configuration words written by the host (R465). -/
  config : Table (BitVec 32) := []
  /-- MSI-X table entries 0 to 31 (R462). -/
  msixTable : Table (List Byte) := []
  /-- Pending-bit array, 32 bits (R462). -/
  msixPending : Nat := 0
  /-- MSI-X messages sent, newest first (R283). -/
  msixSent : List Nat := []
  /-- Completion of the last host read, none for Completer Abort (R462). -/
  readData : Option (List Byte) := none
  /-- MSI-X Enable of the MSI-X capability (R463). -/
  msixOn : Bool := false
  /-- Function Mask of the MSI-X capability (R463). -/
  msixHeld : Bool := false
deriving DecidableEq, Repr

/-- One measurement entry (R485). -/
structure Measure where
  /-- TYPE (R485). -/
  type : Nat := 0
  /-- COPY (R485). -/
  copy : Nat := 0
  /-- SIGNER (R485). -/
  signer : Nat := 0
  /-- VERSION (R485). -/
  version : Nat := 0
  /-- ROLLBACK (R485). -/
  rollback : Nat := 0
  /-- DIGEST (R485). -/
  digest : List Byte := []
deriving DecidableEq, Repr

/-- One copy region of the xSPI flash (R475). -/
structure FlashCopy where
  /-- The directory's 8 entries: TYPE (0 unused) and OFFSET from the copy's base (R475). -/
  dir : List (Nat × Nat) := List.replicate 8 (0, 0)
  /-- Bytes by the offset from the copy's base at which they begin: an image's header and body (R475). -/
  images : Table (List Byte) := []
deriving DecidableEq, Repr

/-- Boot flash, fuses and boot state of one half (R473 to R488, R499). -/
structure Boot where
  /-- BOOT_PHASE, 8 bits (R451). -/
  phase : Nat := 1
  /-- Boot-chain stages completed (R480). -/
  stage : Nat := 0
  /-- 0 none, 1 abort 0xA301 on CAN FD, 2 identity, 3 PCIe up, 4 full (R467). -/
  dictLevel : Nat := 0
  /-- 0 no response, 1 busy, 2 ready (R467). -/
  sdioLevel : Nat := 0
  /-- FS, ISL, ZEN or DIR_S failed in both copies (R481). -/
  failed : Bool := false
  /-- Copy A of the xSPI flash, at its offset 0x000_0000 (R475). -/
  flashA : FlashCopy := {}
  /-- Copy B, at offset 0x100_0000 (R475). -/
  flashB : FlashCopy := {}
  /-- BOOT_STATUS, 32 bits (R499). -/
  status : Nat := 0
  /-- Measurement entries (R485). -/
  measures : List Measure := []
  /-- Slate image verified and its data generated (R479). -/
  slateReady : Bool := false
  /-- Slate image verified (R479). -/
  slateVerified : Bool := false
  /-- NS_FW of the boot configuration (R473). -/
  nsFw : Bool := false
  /-- Customer firmware runs (R473). -/
  nsRunning : Bool := false
  /-- LOCK_WORLDS in force (R473). -/
  lockWorlds : Bool := false
  /-- LOCK_REGIONS (R473). -/
  lockRegions : Bool := false
  /-- The first arming commit has applied LOCK (R474). -/
  regionsLockDone : Bool := false
  /-- VENDOR_KEY_HASH (from fuses) (R482). -/
  vendorHash : List Byte := []
  /-- CUST_KEY_HASH[0], [1]; [] when no bit is set (R482). -/
  custHash : List (List Byte) := [[], []]
  /-- PROGRAMMED (R482). -/
  custProgrammed : List Bool := [false, false]
  /-- REVOKED (R482). -/
  custRevoked : List Bool := [false, false]
  /-- Key state sensed at the last boot (R483). -/
  keysAtBoot : List (List Byte × Bool × Bool) := [([], false, false), ([], false, false)]
  /-- ROLLBACK[1..7], counts of programmed bits (R482). -/
  rollback : List Nat := List.replicate 7 0
  /-- UDS (from fuses, never readable) (R482). -/
  uds : List Byte := []
  /-- IDENTITY_CERT (R482). -/
  cert : List Byte := []
  /-- HBM_CODE (from fuses; log entry 11) (R451). -/
  hbmCode : List Byte := [0x48, 0x33, 0x41, 0x31]
  /-- Fuses sensed (R508). -/
  fusesSensed : Bool := false
  /-- Both VIO rails in range (R508). -/
  vioOk : Bool := true
  /-- Last ATTEST_NONCE (R488). -/
  nonce : List Byte := []
  /-- Last ATTEST_REPORT (R488). -/
  report : List Byte := []
  /-- UPDATE_STATUS, 8 bits (R499). -/
  updateStatus : Nat := 0
  /-- Image being written: type, copy, bytes (R499). -/
  updating : Option (Nat × Nat × List Byte) := none
  /-- Boot configuration in force (R473). -/
  bootCfg : List Byte := []
  /-- Instant from which the power-up times run (R467). -/
  powerOnAt : Nat := 0
  /-- Slot and instant of the last KEY_PROGRAM (R501). -/
  keyBurnt : Option (Nat × Nat) := none
  /-- Type, instant and former count of the last ROLLBACK_COMMIT that advanced a counter (R501). -/
  rollBurnt : Option (Nat × Nat × Nat) := none
deriving DecidableEq, Repr

/-- Everything one half holds (R18, R20). -/
structure HalfState where
  /-- Director and call sheets (R318). -/
  disp : Disp := {}
  /-- Dolly and the bank pool (R199). -/
  dolly : Dolly := {}
  /-- HBM controller (R316). -/
  hbm : Hbm := {}
  /-- Contrail end (R316). -/
  link : Link := {}
  /-- Region protection (R316). -/
  prot : Prot := {}
  /-- Horizon (R286). -/
  hzn : Hzn := {}
  /-- Continuity island (R396). -/
  isl : Isl := {}
  /-- Zenith (R428). -/
  zen : Zen := {}
  /-- Edit session (R445). -/
  session : Session := {}
  /-- Channels 0 SDIO, 1 CAN FD, 2 Director secure, 3 Director non-secure (R443). -/
  chans : Table Chan := []
  /-- Channel served last (R444). -/
  rotor : Nat := 0
  /-- CAN FD controller (R458). -/
  can : Can := {}
  /-- PCIe endpoint (R462). -/
  pcie : Pcie := {}
  /-- Boot chain, keys, attestation (R480). -/
  boot : Boot := {}
deriving DecidableEq, Repr

/-- Half B at reset: as Half A but for its CAN FD identifiers (R459). -/
def HalfState.resetB : HalfState :=
  { can := { reqId := 0x1B4A0200, rspId := 0x1B4A0201, emcyId := 0x1B4A0081 } }

/-- The shared SDIO host port (R454 to R457). -/
structure Sdio where
  /-- CMD5 answered with the ready bit (R454). -/
  ocrSeen : Bool := false
  /-- Relative card address, 16 bits (R454). -/
  rca : Nat := 0
  /-- Selected by CMD7 (R454). -/
  selected : Bool := false
  /-- Inactive after CMD15 (R454). -/
  inactive : Bool := false
  /-- Signalling at 1.8 V (R454). -/
  v18 : Bool := false
  /-- Host set S18R (R454). -/
  s18r : Bool := false
  /-- CCCR, FBR and CIS bytes written or defined (R454). -/
  cccr : Table Byte := []
  /-- REQ mailbox (R455). -/
  req : List Byte := []
  /-- RSP mailbox (R455). -/
  rsp : List Byte := []
  /-- MB_STATUS.BUSY (R455). -/
  busy : Bool := false
  /-- MB_STATUS.RSP_READY (R455). -/
  rspReady : Bool := false
  /-- F2_BASE, 64 bits (R455). -/
  f2Base : Nat := 0
  /-- F2_MODE (R455). -/
  f2Mode : Nat := 0
  /-- F2_ENTRY index (R455). -/
  f2Index : Nat := 0
  /-- F2_ENTRY sub-index (R455). -/
  f2Sub : Nat := 0
  /-- F2_STATUS.ERROR (R455). -/
  f2Error : Bool := false
  /-- A CMD53 data phase is open (R457). -/
  transfer : Bool := false
  /-- Instant at which the open data phase stopped (R457). -/
  stoppedAt : Nat := 0
  /-- Response and data of the last command, [] when none is given (R454). -/
  cmdResponse : List Byte := []
  /-- Response flags of the last CMD52 or CMD53 (bit 0 ERROR) (R456). -/
  respFlags : Nat := 0
deriving DecidableEq, Repr

/-- The applied tariff (R494). -/
structure Tariff where
  /-- TARIFF_ID (R494). -/
  id : Nat := 0
  /-- K_PULSE (R494). -/
  kPulse : Nat := 0
  /-- FLAG_FALL (R494). -/
  flagFall : Nat := 0
  /-- PER_KM (R494). -/
  perKm : Nat := 0
  /-- PER_MIN (R494). -/
  perMin : Nat := 0
  /-- V_SWITCH (R494). -/
  vSwitch : Nat := 0
  /-- CURRENCY (R494). -/
  currency : Nat := 0
deriving DecidableEq, Repr

/-- Tally's journaled counters and fare (R492 to R497). -/
structure Fare where
  /-- STATE (R492). -/
  state : TallyState := .forHire
  /-- ODO_M, 64 bits (R495). -/
  odo : Nat := 0
  /-- Remainder r (R495). -/
  rem : Nat := 0
  /-- FARE (R494). -/
  fare : Nat := 0
  /-- TRIP_M (R495). -/
  tripM : Nat := 0
  /-- TRIP_TICKS (R495). -/
  tripTicks : Nat := 0
  /-- P_h (R495). -/
  pulsesHired : Nat := 0
  /-- P_d (R494). -/
  pulsesDist : Nat := 0
  /-- T_t (R494). -/
  ticksTime : Nat := 0
  /-- INTERRUPTED (R497). -/
  interrupted : Bool := false
  /-- Pulse disagreement, bit 9 of STATE (R497). -/
  disagree : Bool := false
deriving DecidableEq, Repr

/-- The Tally unit (R489 to R498). -/
structure Tally where
  /-- VAUX_TALLY present (R490). -/
  powered : Bool := false
  /-- Present fare state (R492). -/
  live : Fare := {}
  /-- Fare state as journaled in flash (R495). -/
  journal : Fare := {}
  /-- TALLY_SEAL level: true open (R489). -/
  sealOpen : Bool := false
  /-- Applied tariff, none when no valid one (R494). -/
  tariff : Option Tariff := none
  /-- Its 24 bytes (R498). -/
  tariffBody : List Byte := []
  /-- FW_VERSION (R491). -/
  fwVersion : Nat := 0
  /-- SW_ID (R491). -/
  swId : Nat := 0
  /-- CHANGE_COUNT (OTP) (R491). -/
  changeCount : Nat := 0
  /-- Rollback counter (OTP) (R491). -/
  rollback : Nat := 0
  /-- Metrology key hash (OTP) (R491). -/
  metroHash : List Byte := []
  /-- PULSES0, 32 bits (R495). -/
  pulses0 : Nat := 0
  /-- PULSES1, 32 bits (R495). -/
  pulses1 : Nat := 0
  /-- Channel-0 pulses of the present tick (R494). -/
  tickPulses : Nat := 0
  /-- Instant at which the present tick began (R494). -/
  tickAt : Nat := 0
  /-- Channel-0 pulses of the present 1000-pulse span (R494). -/
  span0 : Nat := 0
  /-- Channel-1 pulses over the same span (R494). -/
  span1 : Nat := 0
  /-- Channel-0 pulses received in SERVICE (R493). -/
  svcSeen : Nat := 0
  /-- Image segments received so far (R491). -/
  imageBuf : List Byte := []
  /-- SEQ (R497). -/
  seq : Nat := 0
  /-- Window words 0x000 to 0x030 as last updated (R497). -/
  window : List Nat := List.replicate 13 0
  /-- Instant of the last journal write (R495). -/
  journalAt : Nat := 0
  /-- Journaled happenings: code, fare (R492). -/
  journalLog : List (Nat × Nat) := []
  /-- Frames sent on TALLY_TXD, newest first (R496). -/
  sentFrames : List (List Byte) := []
  /-- Bit 8 as the island last saw it (R498). -/
  islSeal : Bool := false
  /-- STATE as the island last saw it (R498). -/
  islState : Nat := 0
  /-- CHANGE_COUNT as the island last saw it (R498). -/
  islCount : Nat := 0
  /-- Channel-1 pulses received since SERVICE began (R493). -/
  svcOnes : Nat := 0
  /-- Count of channel 1 in SERVICE at each of the last channel-0 pulses there, newest first, and before the first
  (R493). -/
  svcMarks : List Nat := [0]
deriving DecidableEq, Repr

/-- The whole device, and the queue of commands that wait. -/
structure State where
  /-- The instant of the last command, in ns of the model's one time axis (log entry 1). -/
  now : Nat := 0
  /-- The part number (R2; log entry 5). -/
  part : Part := .fbz2400AT
  /-- Half A (R18). -/
  a : HalfState := {}
  /-- Half B (R18). -/
  b : HalfState := HalfState.resetB
  /-- HBM and bank pools by device address (R11); an unlisted byte reads 0 (log entry 4). -/
  mem : List Host.Cell := []
  /-- Ranges of device memory whose contents the spec leaves undefined (R36; log entry 8). -/
  undef : List UndefArea := []
  /-- Bytes of the objects that the issue stage fetched for the command whose work is computed (R100): they stand in the state
  that work is computed from, and in no state between commands. -/
  held : List (Nat × Byte) := []
  /-- Host memory as far as the device's result rings write it (R280). -/
  hostMem : List Host.Cell := []
  /-- The shared SDIO host port (R454). -/
  sdio : Sdio := {}
  /-- The Tally unit (R489). -/
  tally : Tally := {}
  /-- SDIO_WORLD, true non-secure (R437). -/
  sdioWorld : Bool := false
  /-- CAN_A_WORLD (R437). -/
  canAWorld : Bool := false
  /-- CAN_B_WORLD (R437). -/
  canBWorld : Bool := false
  /-- PKG_POWER_LIMIT in W (R429). -/
  pkgLimit : Nat := 380
  /-- UNIQUE_ID, from fuses (R451; log entry 11). -/
  uniqueId : Nat := 0
  /-- The model's own counter of free values drawn (log entry 6). -/
  free : Nat := 0
  /-- The commands that wait, first in, first out. -/
  pending : List Instr := []
deriving DecidableEq, Repr

/-- The machine right after reset: the device of R2 as power-up leaves it, at the start of Boot (R400), with
nothing listed in memory and no command waiting (log entries 5, 9). -/
def State.reset : State := {}

end Sys2Proof.Machine
end

