-- ==== Sys2Proof/Machine/Ops.lean ====
section
/-! DEFINITION. The named operations the meanings share: bit fields, byte order, sparse tables, memory, checksums,
time, access to one half, the address map, and the fault log with its emergency messages. -/

namespace Sys2Proof.Machine

open Sys2Proof

/-! ### Bit fields and byte order (R10) -/

/-- Bits `hi` to `lo` of `n`. -/
def field (n hi lo : Nat) : Nat := n / 2 ^ lo % 2 ^ (hi + 1 - lo)

/-- Bit `i` of `n`. -/
def flag (n i : Nat) : Bool := n / 2 ^ i % 2 == 1

/-- A flag as a number. -/
def bitOf (b : Bool) : Nat := if b then 1 else 0

/-- The number little-endian bytes spell (R10). -/
def leNat : List Byte → Nat
  | [] => 0
  | b :: r => b.toNat + 256 * leNat r

/-- The `k` little-endian bytes of `n` (R10). -/
def toLe : Nat → Nat → List Byte
  | 0, _ => []
  | k + 1, n => BitVec.ofNat 8 (n % 256) :: toLe k (n / 256)

/-- The little-endian number of `k` bytes of a record at byte offset `off`; bytes beyond its end read 0. -/
def leAt (l : List Byte) (off k : Nat) : Nat := leNat ((l.drop off).take k)

/-- The two's-complement value of the low `w` bits of `n`. -/
def signedOf (w n : Nat) : Int :=
  if n % 2 ^ w < 2 ^ (w - 1) then (n % 2 ^ w : Nat) else (n % 2 ^ w : Nat) - (2 ^ w : Nat)

/-- The low `w` bits of an integer in two's complement. -/
def unsignedOf (w : Nat) (i : Int) : Nat := (i % (2 ^ w : Nat)).toNat

/-- A counter that stops at `top` (its field's largest value). -/
def satAdd (top n k : Nat) : Nat := min top (n + k)

/-- `⌈n / d⌉`. -/
def ceilDiv (n d : Nat) : Nat := (n + d - 1) / d

/-- `n` rounded up to a multiple of `d`. -/
def roundUp (n d : Nat) : Nat := ceilDiv n d * d

/-! ### Checksums -/

/-- One bit of a reflected CRC-32C. -/
def crcBit (c : Nat) : Nat := if c % 2 = 1 then (c / 2) ^^^ 0x82F63B78 else c / 2

/-- One byte of a CRC-32C (reflected, polynomial 0x1EDC6F41). -/
def crcByte (c : Nat) (b : Byte) : Nat :=
  crcBit (crcBit (crcBit (crcBit (crcBit (crcBit (crcBit (crcBit (c ^^^ b.toNat))))))))

/-- CRC-32C of a byte string (log entry 12). -/
def crc32c (l : List Byte) : Nat := l.foldl crcByte 0xFFFFFFFF ^^^ 0xFFFFFFFF

/-- One bit of a CRC-16/CCITT-FALSE. -/
def crc16Bit (c : Nat) : Nat := if flag c 15 then (c * 2 % 65536) ^^^ 0x1021 else c * 2 % 65536

/-- CRC-16/CCITT-FALSE of a byte string (R496; log entry 12). -/
def crc16 (l : List Byte) : Nat :=
  l.foldl (fun c b =>
    crc16Bit (crc16Bit (crc16Bit (crc16Bit (crc16Bit (crc16Bit (crc16Bit (crc16Bit (c ^^^ b.toNat * 256)))))))))
    0xFFFF

/-! ### Sparse tables -/

/-- The entry of a table at an index; `d` where none is listed. -/
def tget {α : Type} (d : α) : Table α → Nat → α
  | [], _ => d
  | (j, v) :: r, k => if k < j then d else if k = j then v else tget d r k

/-- The table with the entry at an index set. -/
def tput {α : Type} : Table α → Nat → α → Table α
  | [], k, v => [(k, v)]
  | (j, w) :: r, k, v =>
    if k < j then (k, v) :: (j, w) :: r else if k = j then (k, v) :: r else (j, w) :: tput r k v

/-- The table with the entry at an index changed. -/
def tmod {α : Type} (d : α) (t : Table α) (k : Nat) (f : α → α) : Table α := tput t k (f (tget d t k))

/-- The list with its element at an index set; unchanged where there is none. -/
def lset {α : Type} (l : List α) (i : Nat) (v : α) : List α := l.set i v

/-- The list with its element at an index changed. -/
def lmod {α : Type} (d : α) (l : List α) (i : Nat) (f : α → α) : List α := l.set i (f (l.getD i d))

/-! ### Memory -/

/-- A byte of a memory; an unlisted byte reads 0 (log entry 4). -/
def memGet : List Host.Cell → Nat → Byte
  | [], _ => 0
  | (j, v) :: r, a => if a < j then 0 else if a = j then v else memGet r a

/-- A memory with one byte written, in canonical form. -/
def memPut : List Host.Cell → Nat → Byte → List Host.Cell
  | [], a, b => if b = 0 then [] else [(a, b)]
  | (j, v) :: r, a, b =>
    if a < j then (if b = 0 then (j, v) :: r else (a, b) :: (j, v) :: r)
    else if a = j then (if b = 0 then r else (a, b) :: r)
    else (j, v) :: memPut r a b

/-- A memory with consecutive bytes written from an address. -/
def memWrite (m : List Host.Cell) (a : Nat) : List Byte → List Host.Cell
  | [] => m
  | b :: r => memWrite (memPut m a b) (a + 1) r

/-- Addresses strictly rise from `lo` on and no listed byte is 0. -/
def memWfFrom (lo : Nat) : List Host.Cell → Bool
  | [] => true
  | (j, v) :: r => decide (lo ≤ j) && decide (v ≠ 0) && memWfFrom (j + 1) r

/-- The canonical form of a memory. -/
def Memory.wf (m : List Host.Cell) : Bool := memWfFrom 0 m

/-- Whether an address lies in a range. -/
def inRange (base len a : Nat) : Bool := decide (base ≤ a) && decide (a < base + len)

/-- A range of undefined contents holds an address: a range restricted to one bank holds its lines only (R174). -/
def UndefArea.holds (u : UndefArea) (a : Nat) : Bool :=
  inRange u.base u.len a && (match u.lane with
    | none => true
    | some l => field a 9 6 == l)

/-- The first range of undefined contents that holds an address. -/
def undefAt : List UndefArea → Nat → Option UndefArea
  | [], _ => none
  | u :: r, a => if u.holds a then some u else undefAt r a

/-- What is left of a range of undefined contents when `[a, a + n)` becomes defined. -/
def carveArea (a n : Nat) (u : UndefArea) : List UndefArea :=
  if a + n ≤ u.base ∨ u.base + u.len ≤ a then [u]
  else
    (if u.base < a then [{ u with len := a - u.base }] else []) ++
    (if a + n < u.base + u.len then [{ u with base := a + n, len := u.base + u.len - (a + n) }] else [])

/-- One byte of device memory as any reader finds it: a free byte inside a range of undefined contents (R36). -/
def State.readByte (s : State) (a : Nat) : Byte :=
  match undefAt s.undef a with
  | some u => Config.freeByte u.seed a
  | none => memGet s.mem a

/-- `n` bytes of device memory from an address. -/
def State.readBytes (s : State) (a : Nat) : Nat → List Byte
  | 0 => []
  | n + 1 => s.readByte a :: State.readBytes s (a + 1) n

/-- A little-endian number of `n` bytes in device memory. -/
def State.readLe (s : State) (a n : Nat) : Nat := leNat (s.readBytes a n)

/-- Device memory with bytes written from an address. -/
def State.writeBytes (s : State) (a : Nat) (l : List Byte) : State :=
  { s with mem := memWrite s.mem a l, undef := s.undef.flatMap (carveArea a l.length) }

/-- Device memory with single bytes written, in list order. -/
def State.writeCells (s : State) : List (Nat × Byte) → State
  | [] => s
  | (a, b) :: r => State.writeCells (s.writeBytes a [b]) r

/-- The contents of a range become undefined (R36). -/
def State.markUndef (s : State) (r : Region) : State :=
  { s with
    undef := { base := r.base, len := r.len, seed := s.free } :: s.undef.flatMap (carveArea r.base r.len)
    free := s.free + 1 }

/-- The contents of several ranges become undefined. -/
def State.markUndefs (s : State) : List Region → State
  | [] => s
  | r :: rest => State.markUndefs (s.markUndef r) rest

/-- What is left of a range of undefined contents when lane `lane` of the 8 MiB bank set at `lo` becomes defined. -/
def carveBank (lo lane : Nat) (u : UndefArea) : List UndefArea :=
  let base := max u.base lo
  let top := min (u.base + u.len) (lo + 2 ^ 23)
  if u.lane = some lane then carveArea lo (2 ^ 23) u
  else if u.lane = none ∧ base < top then
    carveArea lo (2 ^ 23) u ++
      ((List.range 16).filter (fun l => l != lane)).map (fun l => { u with base := base, len := top - base, lane := some l })
  else [u]

/-- The contents of one bank become undefined (R346, R378). -/
def State.markBankUndef (s : State) (pool bank : Nat) : State :=
  { s with
    undef := { base := pool + bank / 16 * 2 ^ 23, len := 2 ^ 23, seed := s.free, lane := some (bank % 16) } :: s.undef
    free := s.free + 1 }

/-- Every byte of a range becomes 0. -/
def State.zeroRange (s : State) (base len : Nat) : State :=
  { s with
    mem := s.mem.filter (fun c => !(inRange base len c.1))
    undef := s.undef.flatMap (carveArea base len) }

/-- A free 32-bit value (log entry 6). -/
def State.freeWord (s : State) : Word32 := Config.freeWord s.free 0 0

/-! ### Time and the halves -/

/-- The instant of a command: never earlier than the last one (log entry 1). -/
def State.advance (t : Nat) (s : State) : State := { s with now := max s.now t }

/-- The half's state. -/
def State.half (s : State) : Half → HalfState
  | .a => s.a
  | .b => s.b

/-- The state with one half's state set. -/
def State.setHalf (s : State) : Half → HalfState → State
  | .a, x => { s with a := x }
  | .b, x => { s with b := x }

/-- The state with one half's state changed. -/
def State.modHalf (s : State) (h : Half) (f : HalfState → HalfState) : State := s.setHalf h (f (s.half h))

/-- The other half. -/
def otherHalf : Half → Half
  | .a => .b
  | .b => .a

/-- 0 for Half A, 1 for Half B. -/
def halfNum : Half → Nat
  | .a => 0
  | .b => 1

/-- The half exists on this part (R2, R5). -/
def State.hasHalf (s : State) : Half → Bool
  | .a => true
  | .b => s.part != .fbz1200AN

/-- The part has two halves (R6). -/
def State.twoHalves (s : State) : Bool := s.part != .fbz1200AN

/-- The half is supplied (R400). -/
def HalfState.powered (x : HalfState) : Bool := x.zen.power != .off

/-- The half is restarting, held out, failed or retired (0xA205 of R438). -/
def HalfState.down (x : HalfState) : Bool :=
  x.isl.halfState == 4 || (x.isl.halfState == 5 && !x.isl.unconfigured) || x.isl.halfState == 6 || x.isl.halfState == 7

/-- The half exists, is supplied and is not fenced; a failed or retired half stays fenced. -/
def State.live (s : State) (h : Half) : Bool :=
  s.hasHalf h && (s.half h).powered && !(s.half h).isl.fenced

/-- The half exists and is supplied. -/
def State.supplied (s : State) (h : Half) : Bool := s.hasHalf h && (s.half h).powered

/-- Changes of one part of a half. -/
def State.modDisp (s : State) (h : Half) (f : Disp → Disp) : State :=
  s.modHalf h (fun x => { x with disp := f x.disp })
def State.modDolly (s : State) (h : Half) (f : Dolly → Dolly) : State :=
  s.modHalf h (fun x => { x with dolly := f x.dolly })
def State.modHbm (s : State) (h : Half) (f : Hbm → Hbm) : State :=
  s.modHalf h (fun x => { x with hbm := f x.hbm })
def State.modLink (s : State) (h : Half) (f : Link → Link) : State :=
  s.modHalf h (fun x => { x with link := f x.link })
def State.modProt (s : State) (h : Half) (f : Prot → Prot) : State :=
  s.modHalf h (fun x => { x with prot := f x.prot })
def State.modHzn (s : State) (h : Half) (f : Hzn → Hzn) : State :=
  s.modHalf h (fun x => { x with hzn := f x.hzn })
def State.modIsl (s : State) (h : Half) (f : Isl → Isl) : State :=
  s.modHalf h (fun x => { x with isl := f x.isl })
def State.modZen (s : State) (h : Half) (f : Zen → Zen) : State :=
  s.modHalf h (fun x => { x with zen := f x.zen })
def State.modSession (s : State) (h : Half) (f : Session → Session) : State :=
  s.modHalf h (fun x => { x with session := f x.session })
def State.modCan (s : State) (h : Half) (f : Can → Can) : State :=
  s.modHalf h (fun x => { x with can := f x.can })
def State.modPcie (s : State) (h : Half) (f : Pcie → Pcie) : State :=
  s.modHalf h (fun x => { x with pcie := f x.pcie })
def State.modBoot (s : State) (h : Half) (f : Boot → Boot) : State :=
  s.modHalf h (fun x => { x with boot := f x.boot })

/-- The job context `c` of a half. -/
def State.job (s : State) (h : Half) (c : Nat) : Job := tget {} (s.half h).disp.jobs c
def State.modJob (s : State) (h : Half) (c : Nat) (f : Job → Job) : State :=
  s.modDisp h (fun d => { d with jobs := tmod {} d.jobs c f })

/-- Bank `b` of a half. -/
def State.bank (s : State) (h : Half) (b : Nat) : Bank := tget {} (s.half h).dolly.banks b
def State.modBank (s : State) (h : Half) (b : Nat) (f : Bank → Bank) : State :=
  s.modDolly h (fun d => { d with banks := tmod {} d.banks b f })

/-- Stream context `k` of a half. -/
def State.stream (s : State) (h : Half) (k : Nat) : Stream := tget {} (s.half h).hzn.streams k
def State.modStream (s : State) (h : Half) (k : Nat) (f : Stream → Stream) : State :=
  s.modHzn h (fun z => { z with streams := tmod {} z.streams k f })

/-- Result ring `r` of a half. -/
def State.ring (s : State) (h : Half) (r : Nat) : Ring := tget {} (s.half h).hzn.rings r
def State.modRing (s : State) (h : Half) (r : Nat) (f : Ring → Ring) : State :=
  s.modHzn h (fun z => { z with rings := tmod {} z.rings r f })

/-- Throttle unit `u` of a half. -/
def State.unit (s : State) (h : Half) (u : Nat) : Unit := tget {} (s.half h).zen.units u
def State.modUnit (s : State) (h : Half) (u : Nat) (f : Unit → Unit) : State :=
  s.modZen h (fun z => { z with units := tmod {} z.units u f })

/-- Slab `k` of a half; the 17th slab of each row is its spare (chapter 00, Five levels; R396; log entry 13). -/
def slabReset (k : Nat) : Slab := if k % 17 = 16 then { state := .spare } else { col := k % 17 }
def State.slab (s : State) (h : Half) (k : Nat) : Slab := tget (slabReset k) (s.half h).isl.slabs k
def State.modSlab (s : State) (h : Half) (k : Nat) (f : Slab → Slab) : State :=
  s.modIsl h (fun i => { i with slabs := tput i.slabs k (f (tget (slabReset k) i.slabs k)) })

/-- A command that concerns one half: nothing happens where the half is absent or unsupplied (log entry 3). -/
def onHalf (s : State) (h : Half) (f : State → State) : State := if s.supplied h then f s else s

/-- A command that concerns one running half: nothing happens where the half is absent, unsupplied or fenced
(log entry 3). -/
def onLive (s : State) (h : Half) (f : State → State) : State := if s.live h then f s else s

/-! ### Sheet time (R260, R286, R318) -/

/-- SHEET_TIME: frame in bits 63:32, line in 31:20, ns into the line in 19:0 (R286). -/
def State.sheetTime (s : State) (h : Half) : Nat :=
  (s.half h).hzn.sheetFrame % 2 ^ 32 * 2 ^ 32 + (s.half h).hzn.lineNo % 4096 * 2 ^ 20 +
    min (2 ^ 20 - 1) (s.now - (s.half h).hzn.lineStart)

/-- The sheet in force in a half: the degraded one in sheet state 2, else the active one in state 1. -/
def HalfState.sheet (x : HalfState) : Option Sheet :=
  if x.disp.sheetState = 1 then x.disp.active else if x.disp.sheetState = 2 then x.disp.degraded else none

/-- The period line of the present instant (R318). -/
def HalfState.periodLine (x : HalfState) (sh : Sheet) : Nat :=
  x.hzn.sheetFrame % sh.periodFrames * sh.frameLines + x.hzn.lineNo

/-- Lines of the sheet's period. -/
def Sheet.periodLines (sh : Sheet) : Nat := sh.periodFrames * sh.frameLines

/-- Whether a slot covers a period line, wrapping past the period's end (R319). -/
def SlotEntry.covers (e : SlotEntry) (period line : Nat) : Bool :=
  decide ((line + period - e.startLine % period) % period ≤ e.lengthM1)

/-- Some slot of a partition covers the present instant. -/
def HalfState.slotOf (x : HalfState) (p : Nat) : Bool :=
  match x.sheet with
  | none => false
  | some sh => sh.slots.any (fun e => e.part == p && e.covers sh.periodLines (x.periodLine sh))

/-- The load class of a partition at the present instant (R390). -/
def HalfState.loadClass (x : HalfState) (p : Nat) : Nat :=
  match x.sheet with
  | none => 0
  | some sh =>
    match sh.slots.find? (fun e => e.part == p && e.covers sh.periodLines (x.periodLine sh)) with
    | none => 0
    | some e => if e.energy ≤ 2 then 1 else if e.energy ≤ 5 then 2 else 3

/-! ### The address map (R11, R174, R291) -/

/-- What an address names. -/
inductive Target where
  | hbm (h : Half)
  | bankPool (h : Half)
  | registers (h : Half)
  | tallyWindow
  | unmapped
deriving DecidableEq, Repr

/-- First address of a half's HBM. -/
def hbmBase : Half → Nat
  | .a => 0x0000000000
  | .b => 0x0800000000
/-- First address of a half's bank pool. -/
def poolBase : Half → Nat
  | .a => 0x1000000000
  | .b => 0x1008000000
/-- First address of a half's register window. -/
def regBase : Half → Nat
  | .a => 0x1100000000
  | .b => 0x1104000000
/-- Bytes of a half's HBM (24 GiB). -/
def hbmBytes : Nat := 0x600000000
/-- Bytes of a half's bank pool (128 MiB). -/
def poolBytes : Nat := 0x8000000
/-- Bytes of a half's register window (64 MiB). -/
def regBytes : Nat := 0x4000000
/-- First address of the Tally read window. -/
def tallyBase : Nat := 0x1200000000

/-- The top-level map of R11, with Half B's ranges unmapped where Half B is absent (R5). -/
def State.target (s : State) (a : Nat) : Target :=
  if inRange (hbmBase .a) hbmBytes a then .hbm .a
  else if inRange (poolBase .a) poolBytes a then .bankPool .a
  else if inRange (regBase .a) regBytes a then .registers .a
  else if s.twoHalves && inRange (hbmBase .b) hbmBytes a then .hbm .b
  else if s.twoHalves && inRange (poolBase .b) poolBytes a then .bankPool .b
  else if s.twoHalves && inRange (regBase .b) regBytes a then .registers .b
  else if decide (tallyBase ≤ a) && decide (a < 2 ^ 40) then .tallyWindow
  else .unmapped

/-- The bank of a bank-pool offset: 16 × SET + LANE (R174). -/
def bankOf (o : Nat) : Nat := 16 * field o 26 23 + field o 9 6
/-- The line of a bank-pool offset within its bank (R174). -/
def bankLine (o : Nat) : Nat := field o 22 10
/-- The bank-pool offset of a line of a bank (R174). -/
def bankOffset (bank line : Nat) : Nat := bank / 16 * 2 ^ 23 + line * 2 ^ 10 + bank % 16 * 64

/-- The pseudo-channel, bank and row of an HBM offset (R291). -/
def hbmRow (o : Nat) : Nat := o / 64 / 32 / 16 / 48
def hbmBank (o : Nat) : Nat := o / 64 / 32 / 16 % 48
def hbmPc (o : Nat) : Nat := (o / 64 % 32) ^^^ (hbmRow o % 32)

/-! ### The fault log (R361, R362, R390) and emergency messages (R460, R461) -/

/-- The core rail of a unit of R361 (R403): VDD_ARRAY, VDD_MEM, VDD_PHY, VDD_LINK or VDD_ISL. -/
def railOfUnit (u : Nat) : Nat :=
  if u = 0 ∨ u = 8 ∨ u = 9 then 0
  else if 1 ≤ u ∧ u ≤ 5 then 1
  else if u = 10 then 2
  else if u = 11 then 3
  else 4

/-- The junction-temperature band of a temperature in 1/16 °C (R390). -/
def tjBand (t : Int) : Nat :=
  if t < 0 then 0 else if t < 25 * 16 then 1 else if t < 50 * 16 then 2 else if t < 70 * 16 then 3
  else if t < 85 * 16 then 4 else if t < 95 * 16 then 5 else if t < 105 * 16 then 6 else 7

/-- An event to be logged: CODE, CLASS, UNIT, CTX, CMD_TAG and DETAIL of R361. -/
structure Event where
  code : Nat
  cls : Nat := 7
  unit : Nat := 0xFF
  ctx : Nat := 0xFF
  tag : Nat := 0
  detail : Nat := 0
deriving DecidableEq, Repr

/-- The 32-byte fault-log entry of an event at the present instant (R361). -/
def State.logEntry (s : State) (h : Half) (e : Event) : List Byte :=
  let x := s.half h
  let u := tget ({} : Unit) x.zen.units (if e.unit = 8 ∨ e.unit = 9 then 0 else e.unit)
  let load := (List.range 8).foldl (fun acc p => acc + x.loadClass p * 2 ^ (28 + 2 * p)) 0
  toLe 8 (e.code % 65536 * 2 ^ 48 + e.cls % 256 * 2 ^ 40 + e.unit % 256 * 2 ^ 32 + e.ctx % 256 * 2 ^ 24 +
    e.tag % 65536 * 2 ^ 8) ++
  toLe 8 (s.sheetTime h) ++
  toLe 8 (tjBand u.temp16 * 2 ^ 61 + (x.zen.rails.getD (railOfUnit e.unit) {}).measured % 8192 * 2 ^ 48 +
    u.steps % 16 * 2 ^ 44 + load) ++
  toLe 8 e.detail

/-- Whether an event is sent as an emergency message: class 5 and 6 (R364), and the events R401, R418, R460 and
R500 name. -/
def emergencyEvent (e : Event) : Bool :=
  e.cls == 5 || e.cls == 6 ||
    [0x050B, 0x050D, 0x0510, 0x0512, 0x0515, 0x0607, 0x0608, 0x0609, 0x060A, 0x060E, 0x0901, 0x0907, 0x0908].contains
      e.code

/-- Queue an emergency message: at most 16; a class 5 or 6 message replaces the oldest class 7 one of a full queue,
any other is dropped and counted (R461). `status` is FLAGS bit 0. -/
def queueEmcy (half : Nat) (e : Event) (status : Bool) (entry : List Byte) (c : Can) : Can :=
  let msg := toLe 2 e.code ++ toLe 1 e.cls ++ toLe 1 half ++ toLe 1 0 ++ toLe 1 (bitOf status) ++ toLe 2 0 ++
    entry ++ toLe 8 0
  if c.emcyQueue.length < 16 then { c with emcyQueue := c.emcyQueue ++ [msg] }
  else
    let dropped := { c with emcyLost := satAdd 0xFFFF c.emcyLost 1, lostFlag := true }
    if (e.cls == 5 || e.cls == 6) && c.emcyQueue.any (fun m => leAt m 2 1 == 7) then
      { dropped with emcyQueue := c.emcyQueue.eraseP (fun m => leAt m 2 1 == 7) ++ [msg] }
    else dropped

/-- Put an event in a half's fault log, a ring of 256 entries (R361). -/
def State.logOnly (s : State) (h : Half) (e : Event) : State :=
  s.modIsl h (fun i =>
    { i with log := tput i.log (i.logCount % 256) (s.logEntry h e), logCount := (i.logCount + 1) % 65536 })

/-- Log an event and queue its emergency message where one is sent. -/
def State.logWith (s : State) (h : Half) (e : Event) (status : Bool) : State :=
  if emergencyEvent e then (s.logOnly h e).modCan h (queueEmcy (halfNum h) e status (s.logEntry h e))
  else s.logOnly h e

/-- Log an event to which R362 gives no CODE; none of these is sent as an emergency message (log entry 14). -/
def State.logUnlisted (s : State) (h : Half) (u : Unlisted) (e : Event) : State :=
  s.logOnly h { e with code := Config.unlistedCode u }

/-- Log an event whose status is "set". -/
def State.log (s : State) (h : Half) (e : Event) : State := s.logWith h e true

end Sys2Proof.Machine
end

