-- ==== Sys2Proof/Machine/Fp.lean ====
section
/-! DEFINITION. Number formats, packing, rounding, conversion and the arithmetic of the array and the post unit
(chapter 02). A value is an exact rational, or absent for NaN, and carries the sticky flags of R59. Where the spec
bounds a result and does not fix it, the operation takes the free value drawn for it when that lies within the
bound, and otherwise the correctly rounded result (log entry 7). -/

namespace Sys2Proof.Machine

open Sys2Proof

/-! ### Formats (R42 to R44, R49) -/

/-- The thirteen formats (R42). -/
inductive Fmt where
  | int4 | int8 | int16 | int32 | fp4 | fp6e3m2 | fp6e2m3 | e4m3 | e5m2 | bf16 | fp16 | fp32 | ue8
deriving DecidableEq, Repr

/-- The format a 4-bit code names; none for 0xD to 0xF (R42). -/
def fmtOf : Nat → Option Fmt
  | 0 => some .int4 | 1 => some .int8 | 2 => some .int16 | 3 => some .int32 | 4 => some .fp4
  | 5 => some .fp6e3m2 | 6 => some .fp6e2m3 | 7 => some .e4m3 | 8 => some .e5m2 | 9 => some .bf16
  | 10 => some .fp16 | 11 => some .fp32 | 12 => some .ue8 | _ => none

/-- Width in bits (R42). -/
def Fmt.bits : Fmt → Nat
  | .int4 => 4 | .int8 => 8 | .int16 => 16 | .int32 => 32 | .fp4 => 4 | .fp6e3m2 => 6 | .fp6e2m3 => 6
  | .e4m3 => 8 | .e5m2 => 8 | .bf16 => 16 | .fp16 => 16 | .fp32 => 32 | .ue8 => 8

/-- A signed integer format (R43). -/
def Fmt.isInt : Fmt → Bool
  | .int4 | .int8 | .int16 | .int32 => true
  | _ => false

/-- A format the array takes as an operand (R49). -/
def Fmt.arrayOk : Fmt → Bool
  | .int32 | .fp32 | .ue8 => false
  | _ => true

/-- A format of the post unit's inputs and of command outputs: all but UE8 (R49). -/
def Fmt.postOk (f : Fmt) : Bool := f != .ue8

/-- Mantissa bits of a floating format (R44). -/
def Fmt.mant : Fmt → Nat
  | .fp4 => 1 | .fp6e3m2 => 2 | .fp6e2m3 => 3 | .e4m3 => 3 | .e5m2 => 2 | .bf16 => 7 | .fp16 => 10 | .fp32 => 23
  | _ => 0

/-- Exponent bias of a floating format (R44). -/
def Fmt.bias : Fmt → Nat
  | .fp4 => 1 | .fp6e3m2 => 3 | .fp6e2m3 => 1 | .e4m3 => 7 | .e5m2 => 15 | .bf16 => 127 | .fp16 => 15
  | .fp32 => 127 | _ => 127

/-- The code of the largest finite magnitude of a floating format (R44). -/
def Fmt.maxCode : Fmt → Nat
  | .fp4 => 0x7 | .fp6e3m2 => 0x1F | .fp6e2m3 => 0x1F | .e4m3 => 0x7E | .e5m2 => 0x7B | .bf16 => 0x7F7F
  | .fp16 => 0x7BFF | .fp32 => 0x7F7FFFFF | _ => 0

/-- The code of positive infinity, where the format has one (R44). -/
def Fmt.infCode : Fmt → Option Nat
  | .e5m2 => some 0x7C | .bf16 => some 0x7F80 | .fp16 => some 0x7C00 | .fp32 => some 0x7F800000 | _ => none

/-- The canonical NaN, where the format has one (R57). -/
def Fmt.nanCode : Fmt → Option Nat
  | .e4m3 => some 0x7F | .e5m2 => some 0x7E | .bf16 => some 0x7FC0 | .fp16 => some 0x7E00
  | .fp32 => some 0x7FC00000 | _ => none

/-- Exponent of the smallest normal value (R44). -/
def Fmt.eMin (f : Fmt) : Int := 1 - (f.bias : Int)

/-! ### Exact arithmetic -/

/-- `2^e`. -/
def pow2 (e : Int) : Rat := if 0 ≤ e then ((2 ^ e.toNat : Nat) : Rat) else mkRat 1 (2 ^ (-e).toNat)

/-- The magnitude of a rational. -/
def ratAbs (q : Rat) : Rat := mkRat q.num.natAbs q.den

/-- `⌊log2 |q|⌋` for `q ≠ 0`. -/
def floorLog2 (q : Rat) : Int :=
  let k : Int := (Nat.log2 q.num.natAbs : Int) - (Nat.log2 q.den : Int)
  if pow2 k ≤ ratAbs q then k else k - 1

/-- The integer nearest to `num / den`, ties away from zero (R55). -/
def roundDiv (num : Int) (den : Nat) : Int :=
  let a := (2 * num.natAbs + den) / (2 * den)
  if num < 0 then -(a : Int) else a

/-- The integer nearest to a rational, ties away from zero (R55). -/
def roundRat (q : Rat) : Int := roundDiv q.num q.den

/-- The exponent of ulp_F(q): max(⌊log2 |q|⌋, e_min) − m (Error bounds, chapter 02). -/
def Fmt.ulpExp (f : Fmt) (q : Rat) : Int :=
  (if q = 0 then f.eMin else max (floorLog2 q) f.eMin) - (f.mant : Int)

/-- ulp_F(q). -/
def Fmt.ulp (f : Fmt) (q : Rat) : Rat := pow2 (f.ulpExp q)

/-- The value with a mantissa step of `f` nearest to `q`, the exponent range unbounded above; ties away from zero
(R55). -/
def Fmt.roundTo (f : Fmt) (q : Rat) : Rat :=
  let u := f.ulp q
  (roundRat (q / u) : Rat) * u

/-- The value of a magnitude code of a floating format (R43). -/
def Fmt.magnitude (f : Fmt) (c : Nat) : Rat :=
  let e := c / 2 ^ f.mant
  let m := c % 2 ^ f.mant
  if e = 0 then (m : Rat) * pow2 (f.eMin - f.mant)
  else ((2 ^ f.mant + m : Nat) : Rat) * pow2 ((e : Int) - f.bias - f.mant)

/-- The largest finite value of a floating format (R44). -/
def Fmt.maxFinite (f : Fmt) : Rat := f.magnitude f.maxCode

/-! ### Values with their sticky flags (R59) -/

/-- CLIP, NAN and INF_IN (R59). -/
structure Flags where
  clip : Bool := false
  nan : Bool := false
  infIn : Bool := false
deriving DecidableEq, Repr

/-- Flags set in either. -/
def Flags.join (a b : Flags) : Flags := ⟨a.clip || b.clip, a.nan || b.nan, a.infIn || b.infIn⟩

/-- A value in flight: an exact rational or NaN, and the flags raised on its way. -/
structure Fv where
  val : Option Rat := some 0
  fl : Flags := {}
deriving DecidableEq, Repr

/-- The FP32 canonical NaN, which sets NAN (R58). -/
def fvNan (fl : Flags) : Fv := ⟨none, { fl with nan := true }⟩

/-- An exact value without flags. -/
def fvOf (q : Rat) : Fv := ⟨some q, {}⟩

/-- The flags of a list of values. -/
def flagsOf (l : List Fv) : Flags := l.foldl (fun a x => a.join x.fl) {}

/-! ### Reading elements (R43, R44, R46, R47) -/

/-- The value a code of a format stands for. An infinity reads as the largest finite value and sets INF_IN (R47);
a NaN code, or UE8 0xFF, reads as NaN. -/
def Fmt.decode (f : Fmt) (code : Nat) : Fv :=
  if f.isInt then fvOf (signedOf f.bits code : Int)
  else if f = .ue8 then (if code % 256 = 255 then fvNan {} else fvOf (pow2 (((code % 256 : Nat) : Int) - 127)))
  else
    let c := code % 2 ^ (f.bits - 1)
    let sgn : Rat := if flag code (f.bits - 1) then -1 else 1
    if c ≤ f.maxCode then fvOf (sgn * f.magnitude c)
    else if f.infCode = some c then ⟨some (sgn * f.maxFinite), { infIn := true }⟩
    else fvNan {}

/-- A code names an infinity of its format. -/
def Fmt.isInf (f : Fmt) (code : Nat) : Bool := f.infCode == some (code % 2 ^ (f.bits - 1))

/-! ### Conversion (R55 to R57) -/

/-- The code of a non-negative representable magnitude of a floating format. -/
def Fmt.codeOf (f : Fmt) (q : Rat) : Nat :=
  let k : Int := max (floorLog2 q) f.eMin
  let n := (roundRat (q / pow2 (k - f.mant))).toNat
  if n < 2 ^ f.mant then n else ((k + f.bias).toNat - 1) * 2 ^ f.mant + n

/-- Smallest and largest integer of an integer format (R43). -/
def Fmt.intMin (f : Fmt) : Int := -(2 ^ (f.bits - 1) : Nat)
def Fmt.intMax (f : Fmt) : Int := (2 ^ (f.bits - 1) : Nat) - 1

/-- An integer saturated to an integer format; CLIP when that changes it (R52, R56). -/
def Fmt.satInt (f : Fmt) (i : Int) : Int × Bool :=
  if i < f.intMin then (f.intMin, true) else if f.intMax < i then (f.intMax, true) else (i, false)

/-- A value converted to a format: its value there, with CLIP or NAN (R55 to R57). -/
def Fmt.convert (f : Fmt) (x : Fv) : Fv :=
  match x.val with
  | none => ⟨if f.nanCode.isSome then none else some 0, { x.fl with nan := true }⟩
  | some q =>
    if f.isInt then
      let r := f.satInt (roundRat q)
      ⟨some (r.1 : Rat), { x.fl with clip := x.fl.clip || r.2 }⟩
    else
      let r := f.roundTo q
      if f.maxFinite < r then ⟨some f.maxFinite, { x.fl with clip := true }⟩
      else if r < -f.maxFinite then ⟨some (-f.maxFinite), { x.fl with clip := true }⟩
      else ⟨some r, x.fl⟩

/-- The code of a value that has been converted to a format: the canonical NaN, or +0 for zero (R46, R57). -/
def Fmt.encode (f : Fmt) (x : Option Rat) : Nat :=
  match x with
  | none => f.nanCode.getD 0
  | some q =>
    if f.isInt then unsignedOf f.bits q.num
    else if q = 0 then 0
    else if q < 0 then 2 ^ (f.bits - 1) + f.codeOf (-q) else f.codeOf q

/-! ### Packing (R48) -/

/-- Bytes of a packed row of `n` elements (R48). -/
def Fmt.rowBytes (f : Fmt) (n : Nat) : Nat :=
  match f.bits with
  | 4 => ceilDiv n 2
  | 6 => 3 * ceilDiv n 4
  | b => n * (b / 8)

/-- The code of element `i` of a packed row. -/
def Fmt.elemAt (f : Fmt) (row : List Byte) (i : Nat) : Nat :=
  match f.bits with
  | 4 => leAt row (i / 2) 1 / 2 ^ (4 * (i % 2)) % 16
  | 6 => leAt row (3 * (i / 4)) 3 / 2 ^ (6 * (i % 4)) % 64
  | b => leAt row (i * (b / 8)) (b / 8)

/-- The number of a list of fields of `w` bits, the first lowest. -/
def packFields (w : Nat) : List Nat → Nat
  | [] => 0
  | c :: r => c % 2 ^ w + 2 ^ w * packFields w r

/-- A row of codes packed, unused positions zero (R48). -/
def Fmt.packRow (f : Fmt) (codes : List Nat) : List Byte := toLe (f.rowBytes codes.length) (packFields f.bits codes)

/-! ### FP32 arithmetic: one rounding, ties away from zero (R54, R56, R58, R61) -/

/-- An exact result delivered as FP32. -/
def fv32 (fl : Flags) (q : Rat) : Fv := Fmt.fp32.convert ⟨some q, fl⟩

/-- A step of one operand: NaN in gives NaN (R58). -/
def Fv.map (x : Fv) (f : Rat → Rat) : Fv :=
  match x.val with
  | some q => fv32 x.fl (f q)
  | none => fvNan x.fl

/-- A step of two operands: NaN in gives NaN (R58). -/
def Fv.map2 (x y : Fv) (f : Rat → Rat → Rat) : Fv :=
  match x.val, y.val with
  | some p, some q => fv32 (x.fl.join y.fl) (f p q)
  | _, _ => fvNan (x.fl.join y.fl)

/-- An exact product, unrounded; NaN where either is. -/
def Fv.times (x y : Fv) : Fv :=
  match x.val, y.val with
  | some p, some q => ⟨some (p * q), x.fl.join y.fl⟩
  | _, _ => fvNan (x.fl.join y.fl)

def Fv.add (x y : Fv) : Fv := x.map2 y (· + ·)
def Fv.sub (x y : Fv) : Fv := x.map2 y (· - ·)
def Fv.mul (x y : Fv) : Fv := x.map2 y (· * ·)
/-- `x * y + z` with one rounding (R61). -/
def Fv.fma (x y z : Fv) : Fv :=
  match x.val, y.val, z.val with
  | some p, some q, some r => fv32 ((x.fl.join y.fl).join z.fl) (p * q + r)
  | _, _, _ => fvNan ((x.fl.join y.fl).join z.fl)
def Fv.max (x y : Fv) : Fv := x.map2 y (fun p q => if p ≤ q then q else p)
def Fv.min (x y : Fv) : Fv := x.map2 y (fun p q => if p ≤ q then p else q)

/-! ### Results the spec bounds (R60, R61; log entry 7) -/

/-- The free words of one execution, by element and stage. -/
abbrev Draw := Nat → Nat → Word32

/-- The free value of a draw where it is a finite FP32 value within `bound` of the exact result; otherwise the
correctly rounded result. -/
def within (w : Word32) (exact bound : Rat) : Rat :=
  match (Fmt.fp32.decode w.toNat) with
  | ⟨some c, fl⟩ => if !fl.infIn && decide (ratAbs (c - exact) ≤ bound) then c else Fmt.fp32.roundTo exact
  | ⟨none, _⟩ => Fmt.fp32.roundTo exact

/-- A free finite FP32 value in `[lo, hi]`; `dflt` where the draw lies outside. -/
def freeIn (w : Word32) (lo hi dflt : Rat) : Rat :=
  match (Fmt.fp32.decode w.toNat) with
  | ⟨some c, fl⟩ => if !fl.infIn && decide (lo ≤ c) && decide (c ≤ hi) then c else dflt
  | ⟨none, _⟩ => dflt

/-- An exact product as a sum takes it: what FP32 saturates it to where it leaves FP32's range (R56), else itself, for the
bound of R60 is about the exact products and covers their rounding. -/
def Fv.term (x : Fv) : Fv :=
  let y := Fmt.fp32.convert x
  if y.fl = x.fl then x else y

/-- A bounded result: saturated where its exact value lies beyond FP32 (R56). -/
def fvWithin (fl : Flags) (w : Word32) (exact bound : Rat) : Fv :=
  let r := Fmt.fp32.convert ⟨some exact, fl⟩
  if r.fl.clip && !fl.clip then r
  else Fmt.fp32.convert ⟨some (within w exact bound), fl⟩

/-- A result of which the spec states nothing: any finite FP32 value. -/
def fvFree (fl : Flags) (w : Word32) : Fv := ⟨some (freeIn w (-Fmt.fp32.maxFinite) Fmt.fp32.maxFinite 0), fl⟩

/-- The unit roundoff of FP32, 2^−24. -/
def u32 : Rat := pow2 (-24)

/-- γ_n = n·u / (1 − n·u). -/
def gamma (n : Nat) : Rat := (n : Rat) * u32 / (1 - (n : Rat) * u32)

/-- Sum and sum of magnitudes of a list of exact terms. -/
def sumAbs : List Rat → Rat × Rat
  | [] => (0, 0)
  | q :: r => let p := sumAbs r; (q + p.1, ratAbs q + p.2)

/-- Every partial sum of the terms, in whatever order, is an FP32 value: the terms are multiples of 2^−149 or of a
larger power of two, and their magnitudes together count at most 2^24 of it. -/
def sumsExact (terms : List Rat) : Bool :=
  let d : Nat := terms.foldl (fun (a : Nat) (q : Rat) => max a q.den) 1
  decide (d ≤ (2 ^ 149 : Nat)) && decide ((sumAbs terms).2 * (d : Rat) ≤ pow2 24)

/-- A sum in FP32 whose order the device chooses, within `g × Σ|terms| + extra` of the exact sum. Each addition rounds
to the nearest value (R54), so a sum all of whose partial sums are FP32 values is exact: a sum of no terms is zero
(R235), a sum of equal probabilities their count (R216). When the magnitudes together exceed FP32's range, a partial
sum may saturate: then CLIP and the value are free (log entry 7). -/
def fvSum (fl : Flags) (w : Word32) (terms : List Rat) (g extra : Rat) : Fv :=
  let p := sumAbs terms
  if sumsExact terms then ⟨some p.1, fl⟩
  else if Fmt.fp32.maxFinite < p.2 && !(decide (ratAbs p.1 > Fmt.fp32.maxFinite)) && flag w.toNat 0 then
    fvFree { fl with clip := true } w
  else fvWithin fl w p.1 (g * p.2 + extra)

/-- `⌈log2 n⌉` for `n ≥ 1`. -/
def ceilLog2 (n : Nat) : Nat := if n ≤ 1 then 0 else Nat.log2 (n - 1) + 1

/-! ### Elementary functions, to 2^−90 of the exact value by series in fixed point -/

/-- Fixed point with 128 fractional bits. -/
def fix (q : Rat) : Int := (q.num * (2 ^ 128 : Nat)) / (q.den : Int)
/-- The product of two fixed-point numbers. -/
def fixMul (x y : Int) : Int := x * y / (2 ^ 128 : Nat)

/-- `Σ r^k / k!` by Horner's rule over `n` terms, in fixed point. -/
def fixExp (r : Int) : Nat → Nat → Int
  | 0, _ => (2 ^ 128 : Nat)
  | n + 1, k => (2 ^ 128 : Nat) + fixMul r (fixExp r n (k + 1)) / (k : Int)

/-- ln 2 in fixed point, by `Σ 1 / (k 2^k)`. -/
def fixLn2 : Nat → Int
  | 0 => 0
  | k + 1 => fixLn2 k + (2 ^ 128 : Nat) / ((k + 1 : Nat) * 2 ^ (k + 1) : Nat)

/-- ln 2 (an exact value of the series, within 2^−120). -/
def ln2 : Int := fixLn2 130

/-- A fixed-point number as a rational. -/
def unfix (x : Int) : Rat := mkRat x (2 ^ 128)

/-- e^q; arguments beyond ±1000 are far outside FP32's range and are cut there. -/
def expApprox (q : Rat) : Rat :=
  let x := if q < -1000 then -1000 else if 1000 < q then 1000 else q
  let f := fix x
  let k := f / ln2
  unfix (fixExp (f - k * ln2) 40 1) * pow2 k

/-- `Σ z^(2k+1) / (2k+1)` over `n` terms in fixed point. -/
def fixAtanh (z2 p : Int) : Nat → Nat → Int
  | 0, _ => 0
  | n + 1, k => p / (k : Int) + fixAtanh z2 (fixMul z2 p) n (k + 2)

/-- ln q for q > 0: exponent and the series of the mantissa in [1, 2). -/
def logApprox (q : Rat) : Rat :=
  let k := floorLog2 q
  let m := q / pow2 k
  let z := fix ((m - 1) / (m + 1))
  unfix (k * ln2 + 2 * fixAtanh (fixMul z z) z 45 1)

/-- √q for q ≥ 0, to 2^−120 relative. -/
def sqrtApprox (q : Rat) : Rat :=
  if q = 0 then 0
  else
    let k := floorLog2 q / 2
    let m := q / pow2 (2 * k)
    mkRat (Nat.sqrt (m.num.natAbs * 2 ^ 256 / m.den)) (2 ^ 128) * pow2 k

/-- 1 / (1 + e^−q). -/
def sigmoidApprox (q : Rat) : Rat := 1 / (1 + expApprox (-q))

/-- tanh q = 2 sigmoid(2q) − 1. -/
def tanhApprox (q : Rat) : Rat := 2 * sigmoidApprox (2 * q) - 1

/-- `n` FP32 ulps of a value. -/
def ulps (n : Nat) (q : Rat) : Rat := (n : Rat) * Fmt.fp32.ulp q

/-- A step of one operand bounded as R61 says. -/
def Fv.bounded (x : Fv) (w : Word32) (f bound : Rat → Rat) : Fv :=
  match x.val with
  | none => fvNan x.fl
  | some q => fvWithin x.fl w (f q) (bound q)

/-- The largest finite FP32 value with CLIP: what a division by zero delivers (R145). -/
def fvSat (fl : Flags) (neg : Bool) : Fv :=
  ⟨some (if neg then -Fmt.fp32.maxFinite else Fmt.fp32.maxFinite), { fl with clip := true }⟩

/-- Reciprocal, 1 ulp; of a zero, +(2 − 2^−23) × 2^127 with CLIP (R61, R145). -/
def Fv.recip (x : Fv) (w : Word32) : Fv :=
  if x.val = some 0 then fvSat x.fl false else x.bounded w (fun q => 1 / q) (fun q => ulps 1 (1 / q))

/-- Square root, 1 ulp; of a negative value, NaN (R61, R145). -/
def Fv.sqrt (x : Fv) (w : Word32) : Fv :=
  match x.val with
  | some q => if q < 0 then fvNan x.fl else x.bounded w sqrtApprox (fun q => ulps 1 (sqrtApprox q))
  | none => fvNan x.fl

/-- Reciprocal square root, 1 ulp; of a zero, the largest finite value with CLIP; of a negative value, the reciprocal
of a NaN (R58, R61, R145). -/
def Fv.rsqrt (x : Fv) (w : Word32) : Fv :=
  match x.val with
  | some q =>
    if q = 0 then fvSat x.fl false
    else if q < 0 then fvNan x.fl
    else x.bounded w (fun q => 1 / sqrtApprox q) (fun q => ulps 1 (1 / sqrtApprox q))
  | none => fvNan x.fl

/-- A positive result below FP32's normal range, where R61 bounds nothing: +0 below half the smallest subnormal (R55);
otherwise a free subnormal, or the smallest normal, never flushed to zero (R45), and the rounded result where the draw
lies outside (log entry 7). -/
def subnormalResult (w : Word32) (exact : Rat) : Rat :=
  if exact < pow2 (-150) then 0 else freeIn w (pow2 (-149)) (pow2 (-126)) (Fmt.fp32.roundTo exact)

/-- A result whose bound holds only in FP32's normal range (R61). -/
def fvNormal (fl : Flags) (w : Word32) (exact : Rat) : Fv :=
  if decide (0 < exact) && decide (exact < pow2 (-126)) then ⟨some (subnormalResult w exact), fl⟩
  else if decide (exact < 0) && decide (-pow2 (-126) < exact) then ⟨some (-(subnormalResult w (-exact))), fl⟩
  else fvWithin fl w exact (ulps 2 exact)

/-- exp, 2 ulp in the normal range (R61). -/
def Fv.exp (x : Fv) (w : Word32) : Fv :=
  match x.val with
  | some q => fvNormal x.fl w (expApprox q)
  | none => fvNan x.fl

/-- Natural logarithm, 2 ulp; of a negative value NaN, of 0 −(2 − 2^−23) × 2^127 with CLIP (R61, R145). -/
def Fv.log (x : Fv) (w : Word32) : Fv :=
  match x.val with
  | some q =>
    if q < 0 then fvNan x.fl
    else if q = 0 then fvSat x.fl true
    else fvNormal x.fl w (logApprox q)
  | none => fvNan x.fl

/-- tanh and sigmoid: 2 ulp and 2^−24 absolute. -/
def Fv.tanh (x : Fv) (w : Word32) : Fv := x.bounded w tanhApprox (fun q => ulps 2 (tanhApprox q) + pow2 (-24))
def Fv.sigmoid (x : Fv) (w : Word32) : Fv :=
  x.bounded w sigmoidApprox (fun q => ulps 2 (sigmoidApprox q) + pow2 (-24))

/-- SiLU: 4 ulp and 2^−23·|x|. -/
def Fv.silu (x : Fv) (w : Word32) : Fv :=
  x.bounded w (fun q => q * sigmoidApprox q) (fun q => ulps 4 (q * sigmoidApprox q) + pow2 (-23) * ratAbs q)

/-- `Σ x^(2k+1) / (1·3·…·(2k+1))` over `n` terms in fixed point, `x2` the square of the argument. -/
def fixPhi (x2 p : Int) : Nat → Nat → Int
  | 0, _ => 0
  | n + 1, k => p + fixPhi x2 (fixMul p x2 / (k : Int)) n (k + 2)

/-- 1 / √(2π), to 40 decimal digits. -/
def invSqrt2Pi : Rat := mkRat 3989422804014326779399460599343818684759 (10 ^ 40)

/-- The standard normal distribution function, within 2^−40; beyond ±9 it is 0 or 1 within that. -/
def phiApprox (q : Rat) : Rat :=
  if q < -9 then 0
  else if 9 < q then 1
  else 1 / 2 + expApprox (-(q * q) / 2) * invSqrt2Pi * unfix (fixPhi (fix (q * q)) (fix q) 200 3)

/-- GELU: x × Φ(x), 4 ulp and 2^−23·|x| (R61, R113). -/
def Fv.gelu (x : Fv) (w : Word32) : Fv :=
  x.bounded w (fun q => q * phiApprox q) (fun q => ulps 4 (q * phiApprox q) + pow2 (-23) * ratAbs q)

/-! ### Slate requantisation (R65) -/

/-- `sat(round(acc × M / 2^S) + Z)` in an integer format. -/
def slateRequant (f : Fmt) (acc : Int) (m s : Nat) (z : Int) : Int × Bool :=
  f.satInt (roundDiv (acc * m) (2 ^ s) + z)

end Sys2Proof.Machine
end

