-- ==== Sys2Proof/Machine/Record.lean ====
section
/-! DEFINITION. The command record and every object it names: operand descriptors, quantisation descriptors, post
blocks, PARAM fields, attention blocks (chapters 03, 04, 06, 07), and the geometry they give (P_row, extents, lane
modes). -/

namespace Sys2Proof.Machine

open Sys2Proof

/-! ### Opcodes (R105) -/

/-- The operations of a command record. -/
inductive Op where
  | mmul | conv | tconv | pool | rsmp | ewise | norm | attn | attb | topk | cvt | move | cuew | cues | fence
deriving DecidableEq, Repr

/-- The operation an OPCODE selects; none for a reserved value (R105). -/
def opOf : Nat → Option Op
  | 0x01 => some .mmul | 0x02 => some .conv | 0x03 => some .tconv | 0x04 => some .pool | 0x05 => some .rsmp
  | 0x06 => some .ewise | 0x07 => some .norm | 0x08 => some .attn | 0x09 => some .attb | 0x0A => some .topk
  | 0x0B => some .cvt | 0x10 => some .move | 0x20 => some .cuew | 0x21 => some .cues | 0x22 => some .fence
  | _ => none

/-- MMUL, CONV, TCONV: the commands with a weight operand that may be guarded and checked. -/
def Op.isGemm : Op → Bool
  | .mmul | .conv | .tconv => true
  | _ => false

/-- The array commands (R96). -/
def Op.isArray : Op → Bool
  | .mmul | .conv | .tconv | .attn | .attb => true
  | _ => false

/-- CUEW, CUES and FENCE. -/
def Op.isControl : Op → Bool
  | .cuew | .cues | .fence => true
  | _ => false

/-- A post-unit-only command. -/
def Op.isPost : Op → Bool
  | .pool | .rsmp | .ewise | .norm | .topk | .cvt => true
  | _ => false

/-! ### The command record (R99) -/

/-- A command record's fields. -/
structure Rec where
  opcode : Nat
  aFmt : Nat
  wFmt : Nat
  oFmt : Nat
  part : Nat
  guard : Bool
  checked : Bool
  slate : Bool
  fuseIn : Bool
  fuseOut : Bool
  energy : Nat
  costClass : Nat
  costCount : Nat
  tag : Nat
  param : Nat
  postOpt : Nat
  aPtr : Nat
  cueIn : Nat
  cueInAmt : Nat
  wPtr : Nat
  cue0 : Nat
  amt0 : Nat
  oPtr : Nat
  cue1 : Nat
  amt1 : Nat
  auxPtr : Nat
  qPtr : Nat
  widePtr : Nat
deriving DecidableEq, Repr

/-- A pointer field: address bits 39:6 of its word. -/
def ptrField (w : Nat) : Nat := field w 39 6 * 64

/-- The record 64 bytes spell (R99). -/
def parseRec (l : List Byte) : Rec :=
  let w0 := leAt l 0x00 8
  let w2 := leAt l 0x10 8
  let w3 := leAt l 0x18 8
  let w4 := leAt l 0x20 8
  let w5 := leAt l 0x28 8
  { opcode := field w0 63 56, aFmt := field w0 55 52, wFmt := field w0 51 48, oFmt := field w0 47 44
    part := field w0 43 41, guard := flag w0 40, checked := flag w0 39, slate := flag w0 38
    fuseIn := flag w0 37, fuseOut := flag w0 36, energy := field w0 35 33, costClass := field w0 31 28, costCount := field w0 27 16
    tag := field w0 15 0, param := leAt l 0x08 8, postOpt := field w2 63 40, aPtr := ptrField w2
    cueIn := field w3 63 49, cueInAmt := field w3 48 41, wPtr := ptrField w3
    cue0 := field w4 63 49, amt0 := field w4 48 41, oPtr := ptrField w4
    cue1 := field w5 63 49, amt1 := field w5 48 41, auxPtr := ptrField w5
    qPtr := ptrField (leAt l 0x30 8), widePtr := ptrField (leAt l 0x38 8) }

/-- The operation of a record. -/
def Rec.op (r : Rec) : Option Op := opOf r.opcode
/-- ACT (R111). -/
def Rec.act (r : Rec) : Nat := field r.postOpt 23 20
/-- BIAS_EN. -/
def Rec.biasEn (r : Rec) : Bool := flag r.postOpt 19
/-- RES_EN. -/
def Rec.resEn (r : Rec) : Bool := flag r.postOpt 18
/-- RES_POS. -/
def Rec.resPos (r : Rec) : Bool := flag r.postOpt 17
/-- The declared cost in ns (R103). -/
def Rec.cost (r : Rec) : Nat := r.costCount * 2 ^ r.costClass
/-- The formats a record names; FP32 stands for a reserved code, which issue refuses (R42). -/
def Rec.fa (r : Rec) : Fmt := (fmtOf r.aFmt).getD .fp32
def Rec.fw (r : Rec) : Fmt := (fmtOf r.wFmt).getD .fp32
def Rec.fo (r : Rec) : Fmt := (fmtOf r.oFmt).getD .fp32

/-- The record at an address of device memory. -/
def State.record (s : State) (a : Nat) : List Byte := s.readBytes a 64

/-! ### Objects (R100) -/

/-- One byte of an object a record names: as the issue stage fetched it, for a command worked on, else as memory has it. -/
def State.objByte (s : State) (a : Nat) : Byte :=
  match s.held.find? (fun p => p.1 == a) with
  | some p => p.2
  | none => s.readByte a

/-- A little-endian number of `n` bytes of an object. -/
def State.objLe (s : State) (a n : Nat) : Nat := leNat ((List.range n).map (fun i => s.objByte (a + i)))

/-- The state as a command's work sees it: its objects are those the issue stage fetched (R100). -/
def State.withObjects (s : State) (l : List (Nat × Byte)) : State := { s with held := l }

/-- The state as the work of a job's command in execution sees it. -/
def State.view (s : State) (h : Half) (ctx : Nat) : State :=
  match (s.job h ctx).exec with
  | some e => s.withObjects e.objects
  | none => s

/-! ### Operand descriptors (R106, R107) -/

/-- An operand descriptor's fields. -/
structure Desc where
  base : Nat
  span : Nat
  d0 : Nat
  d1 : Nat
  d2 : Nat
  d3 : Nat
  layout : Nat
  linePitch : Nat
  imagePitch : Nat
deriving DecidableEq, Repr

/-- The descriptor at an address (R106). -/
def State.desc (s : State) (a : Nat) : Desc :=
  let w2 := s.objLe (a + 0x10) 8
  let w3 := s.objLe (a + 0x18) 8
  { base := s.objLe a 8 % 2 ^ 40, span := s.objLe (a + 8) 8 % 2 ^ 40
    d0 := field w2 63 44, d1 := field w2 43 28, d2 := field w2 27 12, d3 := field w2 11 0
    layout := field w3 63 60, linePitch := field w3 59 40, imagePitch := field w3 39 16 }

/-- Rows of a tensor: D1 × D2 × D3. -/
def Desc.rows (d : Desc) : Nat := d.d1 * d.d2 * d.d3

/-- First-level scales of an operand (R71): 0 none, 1 FP8 E4M3, 2 UE8. -/
def blockBytes (f : Fmt) : Nat := 4 * f.bits + 1

/-- P_row (R107, R190): `blk` says that the row is block-scaled. -/
def pRow (f : Fmt) (blk : Bool) (layout d0 : Nat) : Nat :=
  if layout = 1 then roundUp (d0 / 64 * (8 + 64 * (f.bits / 8))) 64
  else if blk then roundUp (d0 / 32 * blockBytes f) 64
  else
    let n := f.rowBytes d0
    if n ≤ 4 then 4 else if n ≤ 8 then 8 else if n ≤ 16 then 16 else if n ≤ 32 then 32 else roundUp n 64

/-- Bytes of one image (R107). -/
def Desc.imageBytes (d : Desc) (prow : Nat) : Nat := if 1 < d.d2 then d.d2 * d.linePitch * 64 else d.d1 * prow

/-- The extent of a tensor (R107). -/
def Desc.extent (d : Desc) (prow : Nat) : Nat :=
  (if 1 < d.d3 then (d.d3 - 1) * d.imagePitch * 64 else 0) + (if 1 < d.d2 then (d.d2 - 1) * d.linePitch * 64 else 0) +
    d.d1 * prow

/-- The dimensions, pitches and SPAN of a descriptor meet R107. -/
def Desc.shapeOk (d : Desc) (prow : Nat) : Bool :=
  d.d0 != 0 && d.d1 != 0 && d.d2 != 0 && d.d3 != 0 &&
  (d.d2 ≤ 1 || d.d1 * prow ≤ d.linePitch * 64) && (d.d3 ≤ 1 || d.imageBytes prow ≤ d.imagePitch * 64) &&
  decide (d.extent prow ≤ d.span)

/-- Address of row `r` of a tensor, rows counted over D1, then D2, then D3. -/
def Desc.rowAddr (d : Desc) (prow r : Nat) : Nat :=
  let img := r / (d.d1 * d.d2)
  let line := r / d.d1 % d.d2
  d.base + (if 1 < d.d3 then img * d.imagePitch * 64 else 0) + (if 1 < d.d2 then line * d.linePitch * 64 else 0) +
    r % d.d1 * prow

/-- A descriptor without the pitches the device ignores (R106). -/
def Desc.norm (d : Desc) : Desc :=
  { d with linePitch := if d.d2 = 1 then 0 else d.linePitch, imagePitch := if d.d3 = 1 then 0 else d.imagePitch }

/-- The declared region of a descriptor (R108). -/
def Desc.region (d : Desc) : Region := { base := d.base, len := d.span }

/-- Both descriptors have the same D0 to D3. -/
def Desc.sameDims (d e : Desc) : Bool := d.d0 == e.d0 && d.d1 == e.d1 && d.d2 == e.d2 && d.d3 == e.d3

/-! ### The quantisation descriptor (R71, R72) -/

/-- A quantisation descriptor's fields; all clear where QDESC_PTR is zero. -/
structure QDesc where
  aBlk : Nat := 0
  wBlk : Nat := 0
  oBlk : Nat := 0
  aG : Nat := 0
  wG : Nat := 0
  oG : Nat := 0
  outlier : Bool := false
  gather : Bool := false
  emit : Bool := false
  aGPtr : Nat := 0
  wGPtr : Nat := 0
  oGinvPtr : Nat := 0
  oBlkPtr : Nat := 0
  outListPtr : Nat := 0
  outAPtr : Nat := 0
  outWPtr : Nat := 0
  gatherListPtr : Nat := 0
  gatherOutPtr : Nat := 0
  emitPtr : Nat := 0
  emitValue : Nat := 0
deriving DecidableEq, Repr

/-- The quantisation descriptor a record's QDESC_PTR names. -/
def State.qdesc (s : State) (a : Nat) : QDesc :=
  if a = 0 then {}
  else
    let w := s.objLe a 8
    let p := fun o => s.objLe (a + o) 8 % 2 ^ 40
    { aBlk := field w 31 30, wBlk := field w 29 28, oBlk := field w 27 26, aG := field w 25 24
      wG := field w 23 22, oG := field w 21 20, outlier := flag w 19, gather := flag w 18, emit := flag w 17
      aGPtr := p 0x08, wGPtr := p 0x10, oGinvPtr := p 0x18, oBlkPtr := p 0x20, outListPtr := p 0x28
      outAPtr := p 0x30, outWPtr := p 0x38, gatherListPtr := p 0x40, gatherOutPtr := p 0x48
      emitPtr := p 0x50, emitValue := s.objLe (a + 0x58) 4 }

/-- A reserved mode encoding stands in the descriptor (R73). -/
def QDesc.reserved (q : QDesc) : Bool :=
  q.aBlk == 3 || q.wBlk == 3 || q.oBlk == 3 || decide (2 ≤ q.aG) || q.wG == 3 || q.oG == 3

/-! ### The post block (R114) -/

/-- A post block's fields. -/
structure PostBlk where
  biasPtr : Nat := 0
  resPtr : Nat := 0
  resFmt : Nat := 0
  slope : Nat := 0
  clampHi : Nat := 0
  clampLo : Nat := 0
  resScale : Nat := 0
  slateM : Nat := 0
  slateS : Nat := 0
  slateZ : Nat := 0
deriving DecidableEq, Repr

/-- The post block at an address; all zero where absent. -/
def State.postBlk (s : State) (a : Nat) : PostBlk :=
  if a = 0 then {}
  else
    { biasPtr := s.objLe a 8 % 2 ^ 40, resPtr := s.objLe (a + 8) 8 % 2 ^ 40
      resFmt := field (s.objLe (a + 0x10) 8) 63 60, slope := s.objLe (a + 0x10) 4
      clampHi := s.objLe (a + 0x1C) 4, clampLo := s.objLe (a + 0x18) 4, resScale := s.objLe (a + 0x20) 4
      slateM := field (s.objLe (a + 0x28) 8) 63 48, slateS := field (s.objLe (a + 0x28) 8) 45 40
      slateZ := s.objLe (a + 0x28) 4 }

/-! ### PARAM of the windowed commands (R117, R120) -/

/-- Kernel, stride, dilation, padding and groups of a window. -/
structure Window where
  kh : Nat
  kw : Nat
  sh : Nat
  sw : Nat
  dh : Nat
  dw : Nat
  padT : Nat
  padB : Nat
  padL : Nat
  padR : Nat
  padMode : Nat
  groups : Nat
  opadH : Nat
  opadW : Nat
deriving DecidableEq, Repr

/-- PARAM as CONV and TCONV lay it out (R117). -/
def windowOf (p : Nat) : Window :=
  { kh := field p 63 60 + 1, kw := field p 59 56 + 1, sh := field p 55 53 + 1, sw := field p 52 50 + 1
    dh := field p 49 46 + 1, dw := field p 45 42 + 1, padT := field p 41 38, padB := field p 37 34
    padL := field p 33 30, padR := field p 29 26, padMode := field p 25 24, groups := field p 23 8
    opadH := field p 7 4, opadW := field p 3 0 }

/-- The numerator of R118's output size; none where it is negative. -/
def convNum (n padLo padHi d k : Nat) : Option Nat :=
  if d * (k - 1) + 1 ≤ n + padLo + padHi then some (n + padLo + padHi - d * (k - 1) - 1) else none

/-- An output size of R118; none where the numerator is negative. -/
def convOut (n padLo padHi d k stride : Nat) : Option Nat :=
  (convNum n padLo padHi d k).map (fun m => m / stride + 1)

/-- An output size of R119; none where it is below 1. -/
def tconvOut (n padLo padHi d k stride opad : Nat) : Option Nat :=
  let m := (n - 1) * stride + d * (k - 1) + 1 + opad
  if padLo + padHi < m then some (m - padLo - padHi) else none

/-! ### Lane modes (R50) and the depth of a reduction (R60) -/

/-- The three lane modes. -/
inductive Lane where
  | single
  | double
  | quarter
deriving DecidableEq, Repr

/-- A 16-bit array format. -/
def Fmt.wide (f : Fmt) : Bool := f == .int16 || f == .bf16 || f == .fp16

/-- A format of 4 or 6 bits. -/
def Fmt.narrow (f : Fmt) : Bool := f == .int4 || f == .fp4 || f == .fp6e3m2 || f == .fp6e2m3

/-- The lane mode of two operand formats (R50). -/
def laneOf (a w : Fmt) : Lane :=
  if a.wide || w.wide then .quarter else if a.narrow && w.narrow then .double else .single

/-- D of R60 for a reduction of `k` products. -/
def Lane.depth (l : Lane) (k : Nat) : Nat :=
  match l with
  | .single => 21 + ceilDiv k 768
  | .double => 22 + ceilDiv k 1536
  | .quarter => 20 + ceilDiv k 384

/-- Tile K of R97. -/
def Lane.tileK : Lane → Nat
  | .double => 1536
  | .single => 768
  | .quarter => 384

/-- Tile N of R97. -/
def Lane.tileN : Lane → Nat
  | .quarter => 384
  | _ => 768

/-- The bound of R60: γ_D × Σ|p| + (K + D) × 2^−150, as its two factors. -/
def Lane.g (l : Lane) (k extra : Nat) : Rat := gamma (l.depth k + extra)
def Lane.tiny (l : Lane) (k extra : Nat) : Rat := ((k + l.depth k + extra : Nat) : Rat) * pow2 (-150)

/-! ### The attention block and ATTB's backward block (R205, R225) -/

/-- An attention block's fields. -/
structure AttnBlk where
  kDesc : Nat
  vDesc : Nat
  pageTable : Nat
  stats : Nat
  scoreIn : Nat
  scoreOut : Nat
  scale : Nat
  decay : Nat
  qPos0 : Nat
  nPages : Nat
  session : Nat
  recent16 : Nat
  sinks : Nat
deriving DecidableEq, Repr

/-- The attention block at an address (R205). -/
def State.attnBlk (s : State) (a : Nat) : AttnBlk :=
  let p := fun o => s.objLe (a + o) 8 % 2 ^ 40
  let w := s.objLe (a + 0x38) 8
  { kDesc := p 0x00, vDesc := p 0x08, pageTable := p 0x10, stats := p 0x18, scoreIn := p 0x20, scoreOut := p 0x28
    scale := s.objLe (a + 0x34) 4, decay := s.objLe (a + 0x30) 4
    qPos0 := field w 63 44, nPages := field w 43 32, session := field w 31 20, recent16 := field w 19 12
    sinks := field w 11 8 }

/-- PARAM of ATTN and ATTB (R204, R225). -/
structure AttnParam where
  mask : Nat
  dh : Nat
  hq : Nat
  group : Nat
  window : Nat
  scoreEn : Bool
  statsEn : Bool
  pWide : Bool
deriving DecidableEq, Repr

def attnParam (p : Nat) : AttnParam :=
  { mask := field p 63 62, dh := 32 * (field p 61 59 + 1), hq := field p 58 53 + 1, group := field p 52 48 + 1
    window := field p 47 32, scoreEn := flag p 31, statsEn := flag p 30, pWide := flag p 29 }

/-- ATTB's backward block (R225). -/
structure BackBlk where
  kDesc : Nat
  vDesc : Nat
  oDesc : Nat
  doDesc : Nat
  stats : Nat
  dkDesc : Nat
  dvDesc : Nat
  scoreBuf : Nat
deriving DecidableEq, Repr

/-- The backward block at an address. -/
def State.backBlk (s : State) (a : Nat) : BackBlk :=
  let p := fun o => s.objLe (a + o) 8 % 2 ^ 40
  { kDesc := p 0x00, vDesc := p 0x08, oDesc := p 0x10, doDesc := p 0x18, stats := p 0x20, dkDesc := p 0x28
    dvDesc := p 0x30, scoreBuf := p 0x38 }

/-- A page-table entry: POS16, FILL_M1, PAGE (R207). -/
structure PageEntry where
  pos16 : Nat
  fillM1 : Nat
  page : Nat
deriving DecidableEq, Repr

/-- The page table of an attention block (R207). -/
def State.pageTable (s : State) (a n : Nat) : List PageEntry :=
  (List.range n).map (fun t =>
    let w := s.readLe (a + 4 * t) 4
    { pos16 := field w 31 16, fillM1 := field w 15 12, page := field w 11 0 })

/-- A valid key of a query row is unmasked (R208). -/
def unmasked (p : AttnParam) (q k : Nat) : Bool :=
  match p.mask with
  | 0 => true
  | 1 => decide (k ≤ q)
  | _ => decide (k ≤ q) && decide (q < k + p.window)

/-! ### MOVE (R194) -/

/-- MODE of a MOVE: 0 copy, 1 halo, 2 KV page, 3 atomic. -/
def Rec.moveMode (r : Rec) : Nat := field r.param 63 61

end Sys2Proof.Machine
end

