-- ==== Sys2Proof/Machine/Operands.lean ====
section
/-! DEFINITION. Every operand form of a command: dense, block-scaled and ZBM rows read and written (R48, R76, R77,
R107, R190), first- and second-level scales (R67, R69, R79), window taps (R166, R234) and FP32 parameters (R47). -/

namespace Sys2Proof.Machine

open Sys2Proof

/-! ### FP32 parameters -/

/-- The FP32 value of a word; an infinity reads as the largest finite value and sets INF_IN (R47). -/
def f32 (w : Nat) : Fv := Fmt.fp32.decode w

/-- The FP32 word at an address. -/
def State.f32At (s : State) (a : Nat) : Fv := f32 (s.readLe a 4)

/-- The signed 32-bit word at an address. -/
def State.i32At (s : State) (a : Nat) : Int := signedOf 32 (s.readLe a 4)

/-- A FP32 code is NaN, is infinite, is finite. -/
def isNan32 (w : Nat) : Bool := (f32 w).val.isNone
def isInf32 (w : Nat) : Bool := Fmt.fp32.isInf w
def finite32 (w : Nat) : Bool := !isNan32 w && !isInf32 w

/-! ### Reading rows -/

/-- One element of a row: its stored code, its value without scales, and its block's scale (1 where none). -/
structure El where
  code : Nat := 0
  raw : Fv := {}
  scale : Fv := fvOf 1
deriving DecidableEq, Repr

/-- The value of a first-level scale byte: FP8 E4M3 by its magnitude (mode 1), or UE8 (mode 2) (R69). -/
def scaleValue (mode byte : Nat) : Fv :=
  if mode = 2 then Fmt.ue8.decode byte else Fmt.e4m3.decode (byte % 128)

/-- An element with its block's scale. A zero scale makes it zero and raises nothing; a NaN scale makes it NaN
(R69). -/
def elOf (f : Fmt) (mode code byte : Nat) : El :=
  if mode = 0 then { code := code, raw := f.decode code }
  else
    let sc := scaleValue mode byte
    if sc.val = some 0 then { code := code, raw := fvOf 0, scale := fvOf 0 }
    else { code := code, raw := f.decode code, scale := sc }

/-- Places of the set bits of a mask among `n`. -/
def maskBits (m n : Nat) : List Nat := (List.range n).filter (flag m)

/-- The codes of `n` blocks of a ZBM row from an address (R190); where a mask bit is clear, expansion puts code 0, which
is +0 in a floating format (R191). -/
def State.zbmBlocks (s : State) (f : Fmt) : Nat → Nat → List Nat
  | 0, _ => []
  | n + 1, a =>
    let m := s.readLe a 8
    let k := (maskBits m 64).length
    let w := f.bits / 8
    let codes := (List.range k).map (fun i => s.readLe (a + 8 + w * i) w)
    (List.range 64).map (fun j => if flag m j then codes.getD (maskBits m j).length 0 else 0) ++
      State.zbmBlocks s f n (a + 8 + w * k)

/-- The elements of the row at an address: `mode` is its first-level scale mode, `layout` its LAYOUT. -/
def State.rowAt (s : State) (f : Fmt) (mode layout d0 a : Nat) : List El :=
  if layout = 1 then (s.zbmBlocks f (d0 / 64) a).map (fun c => elOf f 0 c 0)
  else if mode = 0 then
    let bytes := s.readBytes a (f.rowBytes d0)
    (List.range d0).map (fun i => elOf f 0 (f.elemAt bytes i) 0)
  else
    let b := blockBytes f
    (List.range (d0 / 32)).flatMap (fun k =>
      let bytes := s.readBytes (a + b * k) b
      (List.range 32).map (fun j => elOf f mode (f.elemAt (bytes.take (b - 1)) j) (leAt bytes (b - 1) 1)))

/-- Row `r` of a tensor. -/
def State.row (s : State) (f : Fmt) (mode : Nat) (d : Desc) (r : Nat) : List El :=
  s.rowAt f mode d.layout d.d0 (d.rowAddr (pRow f (mode != 0) d.layout d.d0) r)

/-- `x × s`, exact (R67): the arithmetic that takes it rounds it (R53, R79). -/
def El.scaled (e : El) : Fv :=
  if e.scale = fvOf 1 then e.raw else e.raw.times e.scale

/-- A post-unit input: `x × s`, formed in FP32, times the operand's second-level scale (R79). -/
def El.entry (e : El) (g : Option Fv) : Fv :=
  let x := Fmt.fp32.convert e.scaled
  match g with
  | some q => x.mul q
  | none => x

/-- The second-level scale of an operand for a channel (R67, R71): mode 1 per tensor, 2 per output channel. -/
def State.secondLevel (s : State) (mode ptr n : Nat) : Option Fv :=
  match mode with
  | 0 => none
  | 1 => some (s.f32At ptr)
  | _ => some (s.f32At (ptr + 4 * n))

/-! ### Writing rows -/

/-- A code is zero: integer 0, or a floating code whose bits other than the sign are all 0, so a negative zero too and
no NaN (R191). -/
def Fmt.isZeroCode (f : Fmt) (c : Nat) : Bool := if f.isInt then c == 0 else c % 2 ^ (f.bits - 1) == 0

/-- The bytes of one ZBM block of codes (R190). -/
def zbmBlock (f : Fmt) (codes : List Nat) : List Byte :=
  toLe 8 (packFields 1 (codes.map (fun c => bitOf !(f.isZeroCode c)))) ++
    f.packRow (codes.filter (fun c => !(f.isZeroCode c)))

/-- The bytes of a row of codes, with the scale byte of each block where it is block-scaled; padding bytes are zero,
and a ZBM row ends after its last block (R76, R81, R107, R190). -/
def rowBytesOf (f : Fmt) (mode layout : Nat) (codes scales : List Nat) : List Byte :=
  let n := codes.length
  if layout = 1 then
    (List.range (n / 64)).flatMap (fun b => zbmBlock f ((codes.drop (64 * b)).take 64))
  else
    let body :=
      if mode = 0 then f.packRow codes
      else (List.range (n / 32)).flatMap (fun b => f.packRow ((codes.drop (32 * b)).take 32) ++ toLe 1 (scales.getD b 0))
    body ++ List.replicate (pRow f (mode != 0) layout n - body.length) 0

/-- Consecutive bytes as cells. -/
def cellsAt (a : Nat) : List Byte → List (Nat × Byte)
  | [] => []
  | b :: r => (a, b) :: cellsAt (a + 1) r

/-! ### Windows (R118, R119, R166, R234) -/

/-- An index of a window along one axis: outside, zero padding gives none and edge padding clamps (R166). -/
def clampIndex (mode : Nat) (i : Int) (n : Nat) : Option Nat :=
  if 0 ≤ i ∧ i < n then some i.toNat
  else if mode = 1 then some (if i < 0 then 0 else n - 1)
  else none

/-- The input rows of the taps of a CONV's output row, in tap order: tap number and input row (R166, R231). -/
def convTaps (w : Window) (h wd oh ow r : Nat) : List (Nat × Option Nat) :=
  let b := r / (oh * ow)
  let y := r / ow % oh
  let x := r % ow
  (List.range w.kh).flatMap (fun kh => (List.range w.kw).map (fun kw =>
    let i := clampIndex w.padMode ((y * w.sh + kh * w.dh : Nat) - (w.padT : Int)) h
    let j := clampIndex w.padMode ((x * w.sw + kw * w.dw : Nat) - (w.padL : Int)) wd
    (kh * w.kw + kw,
      match i, j with
      | some i, some j => some ((b * h + i) * wd + j)
      | _, _ => none)))

/-- The input index tap `k` reads for output index `y` of a TCONV axis: none where the tap belongs to another phase;
the inner none where the index lies outside (R234). -/
def tconvIndex (stride d pad k y n : Nat) : Option (Option Nat) :=
  let t := y + pad
  let v : Int := (t : Int) - (k * d : Nat)
  if v % (stride : Int) = 0 then some (clampIndex 0 (v / (stride : Int)) n) else none

/-- The taps of a TCONV's output row (R234). -/
def tconvTaps (w : Window) (h wd oh ow r : Nat) : List (Nat × Option Nat) :=
  let b := r / (oh * ow)
  let y := r / ow % oh
  let x := r % ow
  (List.range w.kh).flatMap (fun kh => (List.range w.kw).flatMap (fun kw =>
    match tconvIndex w.sh w.dh w.padT kh y h, tconvIndex w.sw w.dw w.padL kw x wd with
    | some (some i), some (some j) => [(kh * w.kw + kw, some ((b * h + i) * wd + j))]
    | some _, some _ => [(kh * w.kw + kw, none)]
    | _, _ => []))

/-! ### Outlier lists (R84, R85) -/

/-- The 64 entries of slice `k` of a list. -/
def State.outlierSlice (s : State) (ptr k : Nat) : List Nat :=
  (List.range 64).map (fun i => s.readLe (ptr + 128 * k + 2 * i) 2)

/-- The used entries of a slice. -/
def usedEntries (l : List Nat) : List Nat := l.filter (fun e => e != 0xFFFF)

/-- The channels a list names, across all slices of an axis (R84). -/
def State.outlierChannels (s : State) (ptr axis : Nat) : List Nat :=
  (List.range (ceilDiv axis 768)).flatMap (fun k =>
    (usedEntries (s.outlierSlice ptr k)).map (fun e => 768 * k + e % 1024))

/-- A list rises strictly. -/
def rising : List Nat → Bool
  | a :: b :: r => decide (a < b) && rising (b :: r)
  | _ => true

/-- No used entry follows an unused one. -/
def usedFirst : List Nat → Bool
  | [] => true
  | e :: r => if e = 0xFFFF then r.all (fun x => x == 0xFFFF) else usedFirst r

/-- A list passes Dolly's validation (R85). -/
def State.outlierListOk (s : State) (ptr axis : Nat) : Bool :=
  (List.range (ceilDiv axis 768)).all (fun k =>
    let l := s.outlierSlice ptr k
    let u := usedEntries l
    usedFirst l && rising u && u.all (fun e => decide (e < 768) && decide (768 * k + e < axis)))

/-- The row of `l` two-byte values of a wide tensor (R85). -/
def State.wideRow (s : State) (f : Fmt) (ptr l r : Nat) : List Fv :=
  (List.range l).map (fun i => f.decode (s.readLe (ptr + r * roundUp (2 * l) 64 + 2 * i) 2))

end Sys2Proof.Machine
end

