-- ==== Sys2Proof/Machine/Post.lean ====
section
/-! DEFINITION. The post unit: its stages in the order of R79 and R112, output requantisation (R80, R81), gathered
channels (R88) and the slate stages (R133). -/

namespace Sys2Proof.Machine

open Sys2Proof

/-! ### Stages (R112, R113) -/

/-- ACT (R113); each is one operation of R61. -/
def activation (act : Nat) (p : PostBlk) (w : Word32) (x : Fv) : Fv :=
  match act with
  | 0 => x
  | 1 => x.max (fvOf 0)
  | 2 => (x.max (fvOf 0)).min (fvOf 6)
  | 3 =>
    match x.val with
    | none => fvNan (x.fl.join (f32 p.slope).fl)
    | some q => if 0 ≤ q then { x with fl := x.fl.join (f32 p.slope).fl } else x.mul (f32 p.slope)
  | 4 => (x.max (f32 p.clampLo)).min (f32 p.clampHi)
  | 5 => x.sigmoid w
  | 6 => x.tanh w
  | 7 => x.gelu w
  | 8 => x.silu w
  | _ => x.exp w

/-- The residual element of output row `r`, channel `n`, read into FP32 (R112, R114). -/
def State.residual (s : State) (p : PostBlk) (r n : Nat) : Fv :=
  let f := (fmtOf p.resFmt).getD .fp32
  match (s.row f 0 (s.desc p.resPtr) r)[n]? with
  | some e => Fmt.fp32.convert e.raw
  | none => fvOf 0

/-- The residual add: one multiply-add with one rounding (R112). -/
def State.addResidual (s : State) (p : PostBlk) (r n : Nat) (v : Fv) : Fv :=
  (s.residual p r n).fma (f32 p.resScale) v

/-- The stages after the command's own operation (R112). -/
def State.stages (s : State) (c : Rec) (p : PostBlk) (w : Word32) (r n : Nat) (v : Fv) : Fv :=
  let v1 := if c.biasEn then v.add (s.f32At (p.biasPtr + 4 * n)) else v
  let v2 := if c.resEn && !c.resPos then s.addResidual p r n v1 else v1
  let v3 := activation c.act p w v2
  if c.resEn && c.resPos then s.addResidual p r n v3 else v3

/-! ### Output requantisation (R80, R81) -/

/-- The output block-scale byte of channel `n`; 0 where there is none. -/
def State.outScaleByte (s : State) (q : QDesc) (n : Nat) : Nat :=
  if q.oBlk = 0 then 0 else s.readLe (q.oBlkPtr + n / 32) 1

/-- The output block scale of channel `n` is zero or NaN (R81). -/
def State.outScaleBad (s : State) (q : QDesc) (n : Nat) : Bool :=
  q.oBlk != 0 && ((scaleValue q.oBlk (s.outScaleByte q n)).val == none ||
    (scaleValue q.oBlk (s.outScaleByte q n)).val == some 0)

/-- O_GINV of channel `n`, 1 where O_G is 0b00. -/
def State.oGinv (s : State) (q : QDesc) (n : Nat) : Fv := (s.secondLevel q.oG q.oGinvPtr n).getD (fvOf 1)

/-- c = O_GINV / s_o: exact for a UE8 or absent s_o, rounded once in FP32 for FP8 E4M3 (R80). -/
def State.outFactor (s : State) (q : QDesc) (n : Nat) : Fv :=
  let g := s.oGinv q n
  match q.oBlk with
  | 0 => g
  | m =>
    match g.val, (scaleValue m (s.outScaleByte q n)).val with
    | some a, some b => if m = 2 then ⟨some (a / b), g.fl⟩ else fv32 g.fl (a / b)
    | _, _ => fvNan g.fl

/-- The element written for channel `n`: v × c formed exactly and rounded once into F (R80, R81). A reciprocal output
scale that is infinite sets INF_IN whatever its block's scale is (R47). -/
def State.requant (s : State) (f : Fmt) (q : QDesc) (n : Nat) (v : Fv) : Fv :=
  if s.outScaleBad q n then f.convert (fvNan (v.fl.join (s.oGinv q n).fl))
  else if q.oBlk = 0 ∧ q.oG = 0 then f.convert v
  else f.convert (v.times (s.outFactor q n))

/-! ### Writing one output row (R79 steps 3 and 4) -/

/-- What a command has written: cells into its dark regions, and the flags raised. -/
structure Written where
  cells : List (Nat × Byte) := []
  fl : Flags := {}
  /-- What the producers of a chain wrote into its flow regions (R135). -/
  flow : List (Nat × Byte) := []
deriving DecidableEq, Repr

/-- Both results together. -/
def Written.join (a b : Written) : Written := ⟨a.cells ++ b.cells, a.fl.join b.fl, a.flow ++ b.flow⟩

/-- Results of a list, joined. -/
def joinAll (l : List Written) : Written := ⟨l.flatMap (·.cells), (l.map (·.fl)).foldl Flags.join {}, l.flatMap (·.flow)⟩

/-- The gather format: INT16 for an integer output format, FP16 otherwise (R88). -/
def gatherFmt (f : Fmt) : Fmt := if f.isInt then .int16 else .fp16

/-- Row `r` of an output tensor from the post-unit values of its channels: gathered channels go to the wide side
tensor and as +0 to the main output (R88), the rest is requantised (R80, R81). DESIGN CHOICE (log entry 100): a gathered
channel of a block whose output scale is zero or NaN is written as R88 says, +0 without NAN, not as R81 says. DESIGN CHOICE
(log entry 142): an ATTN row without an unmasked key, which R215 writes as +0, is requantised like any other, so in such a
block it is NaN with NAN, as R81 says. -/
def State.writeRow (s : State) (f : Fmt) (q : QDesc) (d : Desc) (r : Nat) (vals : List Fv) : Written :=
  let listed := if q.gather then s.outlierChannels q.gatherListPtr d.d0 else []
  let outs := vals.zipIdx.map (fun p => if listed.contains p.2 then ⟨some 0, p.1.fl⟩ else s.requant f q p.2 p.1)
  let scales := (List.range (d.d0 / 32)).map (fun b => s.outScaleByte q (32 * b))
  let addr := d.rowAddr (pRow f (q.oBlk != 0) d.layout d.d0) r
  let main : Written :=
    { cells := cellsAt addr (rowBytesOf f q.oBlk d.layout (outs.map (fun x => f.encode x.val)) scales)
      fl := flagsOf outs }
  if q.gather then
    let g := gatherFmt f
    let side := listed.map (fun n => g.convert ((vals.getD n {}).times (s.oGinv q n)))
    let l := listed.length
    main.join
      { cells := cellsAt (q.gatherOutPtr + r * roundUp (2 * l) 64)
          (g.packRow (side.map (fun x => g.encode x.val)) ++ List.replicate (roundUp (2 * l) 64 - 2 * l) 0)
        fl := flagsOf side }
  else main

/-- The emitted scale word (R82). -/
def emitCells (q : QDesc) : List (Nat × Byte) := if q.emit then cellsAt q.emitPtr (toLe 4 q.emitValue) else []

/-! ### Slate stages (R65, R133) -/

/-- One slate output: bias, requantisation and ACT on the integer. DESIGN CHOICE (log entry 101): clamp bounds outside
the output range leave a value that the output saturates once more, with CLIP; R65 and R133 state no result there. -/
def State.slateValue (s : State) (c : Rec) (p : PostBlk) (f : Fmt) (n : Nat) (acc : Int) : Int × Bool :=
  let a := if c.biasEn then acc + s.i32At (p.biasPtr + 4 * n) else acc
  let y := slateRequant f a p.slateM p.slateS (signedOf 32 p.slateZ)
  let z :=
    if c.act = 1 then max y.1 0
    else if c.act = 4 then min (max y.1 (signedOf 32 p.clampLo)) (signedOf 32 p.clampHi)
    else y.1
  let t := f.satInt z
  (t.1, y.2 || t.2)

/-- Row `r` of a slate output. -/
def State.writeSlateRow (s : State) (c : Rec) (p : PostBlk) (f : Fmt) (d : Desc) (r : Nat) (accs : List Int) : Written :=
  let outs := accs.zipIdx.map (fun x => s.slateValue c p f x.2 x.1)
  { cells := cellsAt (d.rowAddr (pRow f false d.layout d.d0) r)
      (rowBytesOf f 0 d.layout (outs.map (fun x => unsignedOf f.bits x.1)) [])
    fl := { clip := outs.any (·.2) } }

end Sys2Proof.Machine
end

