-- ==== Sys2Proof/Machine/Arrays.lean ====
section
/-! DEFINITION. What the Stratus array computes: the reductions of MMUL, CONV and TCONV with their accumulation paths
(R78), the outlier side lane (R86), the check column (R140 to R142) and the widening of R92. -/

namespace Sys2Proof.Machine

open Sys2Proof

/-- The operands of one array command, read from its record (R116 to R119). -/
structure Gemm where
  c : Rec
  a : Desc
  w : Desc
  o : Desc
  q : QDesc
  p : PostBlk
  win : Window
  /-- The wide variant runs, and widens its activations (R92). -/
  wide : Bool
deriving DecidableEq, Repr

/-- The operands a record names. -/
def State.gemm (s : State) (c : Rec) (wide : Bool) : Gemm :=
  { c := c, a := s.desc c.aPtr, w := s.desc c.wPtr, o := s.desc c.oPtr, q := s.qdesc c.qPtr, p := s.postBlk c.auxPtr
    win := if c.op = some .mmul then { windowOf 0 with groups := 1 } else windowOf c.param, wide := wide }

/-- The format in which activations enter the array: the stored one, or the wide variant's (R92). -/
def Gemm.enterFmt (g : Gemm) : Fmt :=
  if g.wide then (if g.c.fa.isInt && g.q.aBlk == 0 then .int16 else .bf16) else g.c.fa

/-- The lane mode of the command (R50). -/
def Gemm.lane (g : Gemm) : Lane := laneOf g.enterFmt g.c.fw

/-- Products accumulate as exact integers in 48 bits: an integer command without first-level scales (R52, R78). -/
def Gemm.exact (g : Gemm) : Bool := g.enterFmt.isInt && (g.q.aBlk == 0 || g.wide) && g.q.wBlk == 0

/-- Input channels per group, output channels per group. -/
def Gemm.cg (g : Gemm) : Nat := g.a.d0 / g.win.groups
def Gemm.ng (g : Gemm) : Nat := g.o.d0 / g.win.groups

/-- The taps of an output row: tap number and input row (R116, R166, R234). -/
def Gemm.taps (g : Gemm) (r : Nat) : List (Nat × Option Nat) :=
  match g.c.op with
  | some .conv => convTaps g.win g.a.d2 g.a.d1 g.o.d2 g.o.d1 r
  | some .tconv => tconvTaps g.win g.a.d2 g.a.d1 g.o.d2 g.o.d1 r
  | _ => [(0, some r)]

/-- Products of one reduction of output row `r` (R60): its taps, all of them for a CONV and those of its phase for a
TCONV (R232, R235), times the channels of its group. -/
def Gemm.k (g : Gemm) (r : Nat) : Nat := (g.taps r).length * g.cg

/-! ### The tiling of a command (R97, R98, R232) -/

/-- Groups per tile γ, lines per tap λ, taps per K tile τ and channels per tap slice κ (R232). -/
structure Tiling where
  groups : Nat
  lines : Nat
  taps : Nat
  slice : Nat
deriving DecidableEq, Repr

/-- The largest divisor of `n` that satisfies a condition, among 1 to `k`; 1 where none does, so that a grouped command whose
group is wider than tile N has one tile of a whole group (DESIGN CHOICE, log entry 162). -/
def largestDivisor (ok : Nat → Bool) (n : Nat) : Nat → Nat
  | 0 => 1
  | k + 1 => if n % (k + 1) = 0 ∧ ok (k + 1) = true then k + 1 else largestDivisor ok n k

/-- The tiling of a CONV or a TCONV phase (R232); the width of an activation element is that of its stored format. -/
def Gemm.tiling (g : Gemm) : Tiling :=
  let bits := g.c.fa.bits
  let n := g.win.groups
  let γ :=
    if n = 1 ∨ 512 < g.cg * bits then 1
    else largestDivisor (fun d => decide (d * g.ng ≤ g.lane.tileN) && decide (d * g.cg * bits ≤ 512)) n n
  let l := ceilDiv (γ * g.cg * bits) 512
  { groups := γ, lines := l, taps := min (12 / max 1 l) (g.lane.tileK / max 1 (γ * g.cg))
    slice := min g.lane.tileK (6144 / bits) }

/-- The K tiles of a reduction over `n` taps: each a list of taps by their number among the reduction's, with the first
channel and the channels of the tap it holds (R98, R232). An MMUL has one tap of K channels (R97). A tap of at most 12
lines that no K tile holds whole is cut into slices too (log entry 102). -/
def Gemm.kTiles (g : Gemm) (n : Nat) : List (List (Nat × Nat × Nat)) :=
  let t := g.tiling
  let slices := fun (i k : Nat) => (List.range (ceilDiv g.cg (max 1 k))).map (fun j => [(i, j * k, k)])
  if g.c.op = some .mmul then slices 0 g.lane.tileK
  else if t.lines ≤ 12 ∧ t.taps ≠ 0 then
    (List.range (ceilDiv n t.taps)).map (fun j =>
      (((List.range n).drop (j * t.taps)).take t.taps).map (fun i => (i, 0, g.cg)))
  else (List.range n).flatMap (fun i => slices i t.slice)

/-- Columns of one N tile: a group set of γ × Ng where the command has groups, else tile N (R97, R232). -/
def Gemm.nWidth (g : Gemm) : Nat :=
  if g.win.groups = 1 then g.lane.tileN else max 1 (g.tiling.groups * g.ng)

/-- The phase (φ_h, φ_w) of an output row of a TCONV, φ_h outermost (R234, R235). -/
def Gemm.phase (g : Gemm) (r : Nat) : Nat :=
  (r / g.o.d1 % g.o.d2 + g.win.padT) % g.win.sh * g.win.sw + (r % g.o.d1 + g.win.padL) % g.win.sw

/-- The output rows in the order of the phases that stream them; all in one where the command is no TCONV (R235). -/
def Gemm.phases (g : Gemm) : List (List Nat) :=
  let rows := List.range g.o.rows
  if g.c.op = some .tconv then
    (List.range (g.win.sh * g.win.sw)).map (fun p => rows.filter (fun r => g.phase r == p))
  else [rows]

/-- The passes of a command in the order of R98, phase by phase: the first column of the N tile, and the rows of one M
block of at most 1,024. -/
def Gemm.passes (g : Gemm) : List (Nat × List Nat) :=
  g.phases.flatMap (fun rows =>
    (List.range (ceilDiv g.o.d0 g.nWidth)).flatMap (fun k =>
      (List.range (ceilDiv rows.length 1024)).map (fun b => (k * g.nWidth, (rows.drop (1024 * b)).take 1024))))

/-- One activation element widened for a wide variant: exactly to INT16, or to BF16 with its scale applied; CLIP when
that rounds or saturates (R92). -/
def widen (f : Fmt) (e : El) : El :=
  if f.isInt then { e with scale := fvOf 1 }
  else
    let x := e.raw.times e.scale
    let y := Fmt.bf16.convert x
    { e with raw := { y with fl := { y.fl with clip := y.fl.clip || (x.val.isSome && y.val != x.val) } }, scale := fvOf 1 }

/-- The elements of an activation row as they enter the array. -/
def State.actRow (s : State) (g : Gemm) (r : Nat) : List El :=
  let row := s.row g.c.fa g.q.aBlk g.a r
  if g.wide then row.map (widen g.enterFmt) else row

/-- One product of a reduction: the two elements, its K-row position, and the run of 32 channels it belongs to. -/
structure Product where
  a : El
  w : El
  pos : Nat
  block : Nat
deriving DecidableEq, Repr

/-- The products of output row `r`, channel `n` over the main operands, K tile by K tile. A tap outside the image
supplies zeros in place of activations (R166, R234). A listed channel takes no part: the array receives zero there and
whatever the main tensors hold has no effect (R86). Within a packed tile a column takes the channels of its own group
(R233): DESIGN CHOICE (log entry 103), the zero lanes of other groups add nothing, even to a NaN activation. -/
def State.products (s : State) (g : Gemm) (listed : List Nat) (r n : Nat) : List Product :=
  let c0 := n / g.ng * g.cg
  let taps := g.taps r
  (g.kTiles taps.length).flatten.flatMap (fun piece =>
    match taps[piece.1]? with
    | none => []
    | some t =>
      let lo := piece.2.1
      let k := min piece.2.2 (g.cg - lo)
      let a := match t.2 with
        | none => List.replicate k ({} : El)
        | some row => ((s.actRow g row).drop (c0 + lo)).take k
      let w := (s.row g.c.fw g.q.wBlk g.w (n * (g.win.kh * g.win.kw) + t.1)).drop lo
      ((a.zip w).zipIdx.map (fun p =>
        { a := p.1.1, w := p.1.2, pos := t.1 * 65536 + (c0 + lo + p.2)
          block := t.1 * 65536 + (if g.q.aBlk = 0 then lo + p.2 else c0 + lo + p.2) / 32 })).filter
            (fun (p : Product) => !(listed.contains (p.pos % 65536))))

/-- The outlier products of output row `r`, channel `n` (R86); outside the image the activations are zeros. -/
def State.outlierProducts (s : State) (g : Gemm) (l r n : Nat) : List (Fv × Fv) :=
  let f : Fmt := if g.c.fa.isInt then .int16 else .fp16
  (g.taps r).flatMap (fun t =>
    let a := match t.2 with
      | none => List.replicate l ({} : Fv)
      | some row => s.wideRow f g.q.outAPtr l row
    a.zip (s.wideRow f g.q.outWPtr l (n * (g.win.kh * g.win.kw) + t.1)))

/-- The integer of a value that is one. -/
def Fv.int (x : Fv) : Int := (x.val.getD 0).num

/-- Exact integer sum of a list of products of two values. -/
def intSum (l : List (Fv × Fv)) : Int := l.foldl (fun acc p => acc + p.1.int * p.2.int) 0

/-- Blocks of a product list, in order. -/
def blocksOf (l : List Product) : List Nat := (l.map (·.block)).eraseDups

/-- One accumulator: its exact integer in the exact path with the integer it would hold undisturbed, else its FP32
value. -/
structure Acc where
  int : Int := 0
  sum : Int := 0
  fp : Fv := {}
deriving DecidableEq, Repr

/-- One block's scaled dot product: the exact integer times s_a × s_w, that factor formed in FP32; saturated as R56 says
where it leaves FP32's range (R78). -/
def blockTerm (m : List Product) : Fv :=
  let dot : Fv := ⟨some (intSum (m.map (fun p => (p.a.raw, p.w.raw)))), flagsOf (m.flatMap (fun p => [p.a.raw, p.w.raw]))⟩
  let sc := match m with
    | [] => fvOf 1
    | p :: _ => p.a.scale.mul p.w.scale
  (dot.times sc).term

/-- The terms a floating accumulation adds: products of effective values, whose rounding in FP32 (R53) its
bound covers (R60), or one scaled integer dot product for each block, whose rounding D + 1 counts (R78); then the side lane
(R86). -/
def Gemm.terms (g : Gemm) (ps : List Product) (os : List (Fv × Fv)) : List Fv :=
  if g.enterFmt.isInt then
    (blocksOf ps).map (fun b => blockTerm (ps.filter (fun p => p.block == b))) ++
    (if os.isEmpty then [] else [fv32 {} (intSum os)])
  else
    ps.map (fun p => (p.a.scaled.times p.w.scaled).term) ++ os.map (fun p => (p.1.times p.2).term)

/-- The accumulator of output row `r`, channel `n` (R78, R86). -/
def State.accumulate (s : State) (g : Gemm) (draw : Draw) (listed : List Nat) (r n : Nat) : Acc :=
  let ps := s.products g listed r n
  let os := if g.q.outlier then s.outlierProducts g listed.length r n else []
  if g.exact then
    let i := intSum (ps.map (fun p => (p.a.raw, p.w.raw))) + intSum os
    { int := i, sum := i }
  else
    let ts := g.terms ps os
    let fl := flagsOf ts
    let extra := (if g.enterFmt.isInt then 1 else 0) + bitOf g.q.outlier
    if ts.any (fun x => x.val.isNone) then { fp := fvNan fl }
    else
      { fp := fvSum fl (draw (r * g.o.d0 + n) 0) (ts.map (fun x => x.val.getD 0)) (g.lane.g (g.k r) extra)
          (g.lane.tiny (g.k r) extra) }

/-- The disturbance of an upset in an accumulator (R141): added to its integer or FP32 value. -/
def Acc.disturb (x : Acc) (u : Option Upset) (r n : Nat) : Acc :=
  match u with
  | none => x
  | some u =>
    if u.row = r ∧ u.col = n then
      let d : Rat := (u.delta : Rat) * pow2 u.exp
      { x with int := x.int + d.floor, fp := if u.delta = 0 then x.fp else (x.fp.add (fvOf d)) }
    else x

/-- The accumulators of output row `r`. -/
def State.accRow (s : State) (g : Gemm) (draw : Draw) (listed : List Nat) (u : Option Upset) (r : Nat) : List Acc :=
  (List.range g.o.d0).map (fun n => (s.accumulate g draw listed r n).disturb u r n)

/-! ### The check column (R140, R141) -/

/-- The free words of one comparison: those of pass `pass` and row `row`, apart from the words of the results. -/
def checkDraw (draw : Draw) (pass row i : Nat) : Word32 := draw row (2 ^ 40 + pass * 2 ^ 24 + i)

/-- A sum in FP32 of a column of weights or of a row of accumulators, within the bound of R61 for a sum (log
entry 104). -/
def fvTotal (w : Word32) (l : List Fv) : Fv :=
  let fl := flagsOf l
  if l.any (fun x => x.val.isNone) then fvNan fl
  else fvSum fl w (l.map (fun x => x.val.getD 0)) (gamma (ceilLog2 l.length)) 0

/-- A reduction of paired values under R60. -/
def dot (lane : Lane) (w : Word32) (l : List (Fv × Fv)) : Fv :=
  let ts := l.map (fun p => (p.1.times p.2).term)
  let fl := flagsOf ts
  if ts.any (fun x => x.val.isNone) then fvNan fl
  else fvSum fl w (ts.map (fun x => x.val.getD 0)) (lane.g l.length 0) (lane.tiny l.length 0)

/-- The magnitude of a value. -/
def Fv.abs (x : Fv) : Fv := { x with val := x.val.map ratAbs }

/-- The comparison of one row of a floating command (R141): `ks` holds each K-row's activation and its weights over the
tile's columns. The check cells' w_c and w_a, the column's c and â and the row's sum are all formed in FP32 (R140), so
each is a free value within its bound; a comparison with NaN does not fail (log entry 104). -/
def floatCheck (lane : Lane) (w : Nat → Word32) (ks : List (Fv × List Fv)) (accs : List Fv) : Bool :=
  let wc := ks.zipIdx.map (fun k => (k.1.1, fvTotal (w (2 * k.2 + 3)) k.1.2))
  let wa := ks.zipIdx.map (fun k => (k.1.1.abs, fvTotal (w (2 * k.2 + 4)) (k.1.2.map Fv.abs)))
  match (fvTotal (w 0) accs).val, (dot lane (w 1) wc).val, (dot lane (w 2) wa).val with
  | some s, some c, some m => decide (ratAbs (s - c) ≤ pow2 (-12) * m + pow2 (-100))
  | _, _, _ => true

/-- The K-rows of a tile of columns and the activations of output row `r`: at each position the activation, and the
weights of the columns whose group holds it; then the side lane's check cells (R140). -/
def State.kRows (s : State) (g : Gemm) (listed : List Nat) (r lo n : Nat) : List (Fv × List Fv) :=
  let cols := (List.range n).map (fun i => s.products g listed r (lo + i))
  let ps := cols.flatten
  let side := if g.q.outlier then (List.range n).map (fun i => s.outlierProducts g listed.length r (lo + i)) else []
  ((ps.map (·.pos)).eraseDups.map (fun p =>
    let m := ps.filter (fun x => x.pos == p)
    (((m.map (fun x => x.a.scaled)).headD {}), m.map (fun x => x.w.scaled)))) ++
  ((List.range (side.headD []).length).map (fun i =>
    (((side.headD []).getD i ({}, {})).1, side.map (fun c => (c.getD i ({}, {})).2))))

/-- The check column accepts output row `r` of a pass over `n` columns from `lo`: an exact comparison of integers in the
exact path, else the tolerance (R141); a command with block-scaled integers accumulates in FP32 (R78) and is compared as
a floating one is (log entry 104). -/
def State.checkRow (s : State) (g : Gemm) (draw : Draw) (listed : List Nat) (pass r lo n : Nat) (accs : List Acc) : Bool :=
  let l := (accs.drop lo).take n
  if g.exact then (l.map (·.int)).foldl (· + ·) 0 == (l.map (·.sum)).foldl (· + ·) 0
  else floatCheck g.lane (checkDraw draw pass r) (s.kRows g listed r lo l.length) (l.map (·.fp))

/-- The first comparison of a command that fails, in the order in which its passes run: the pass and the output row. -/
def State.checkFails (s : State) (g : Gemm) (draw : Draw) (listed : List Nat) (rows : List (Nat × List Acc)) :
    Option (Nat × Nat) :=
  (g.passes.zipIdx.flatMap (fun p => p.1.2.map (fun r => (p.2, r, p.1.1)))).findSome? (fun c =>
    if s.checkRow g draw listed c.1 c.2.1 c.2.2 g.nWidth ((rows.find? (fun x => x.1 == c.2.1)).map (·.2) |>.getD [])
    then none else some (c.1, c.2.1))

/-- The post-unit value an accumulator enters the post unit with: saturated to INT32 and converted in the exact path
(R52, R78). -/
def Gemm.leave (g : Gemm) (x : Acc) : Fv :=
  if g.exact then
    let r := Fmt.int32.satInt x.int
    fv32 { clip := r.2 } r.1
  else x.fp

/-- Step 1 of R79: times G_a × G_w[n], that product rounded once. -/
def State.applyG (s : State) (g : Gemm) (n : Nat) (v : Fv) : Fv :=
  match s.secondLevel g.q.aG g.q.aGPtr 0, s.secondLevel g.q.wG g.q.wGPtr n with
  | none, none => v
  | some a, none => v.mul a
  | none, some b => v.mul b
  | some a, some b => v.mul (a.mul b)

/-- What an array command comes to: a malformed outlier list, a check failure at an output row of a pass, or its
results. -/
inductive ArrayOutcome where
  | badList
  | checkFail (pass row : Nat) (fl : Flags)
  | done (w : Written)
deriving DecidableEq, Repr

/-- The flags the inputs of the exact path carry (INF_IN cannot arise; a widened activation may set CLIP). -/
def State.rowFlags (s : State) (g : Gemm) (r : Nat) : Flags :=
  if g.wide then flagsOf ((g.taps r).flatMap (fun t =>
    match t.2 with
    | none => []
    | some row => (s.actRow g row).map (·.raw)))
  else {}

/-- The written row of an array command. -/
def State.gemmRow (s : State) (g : Gemm) (draw : Draw) (r : Nat) (accs : List Acc) : Written :=
  if g.c.slate then s.writeSlateRow g.c g.p g.c.fo g.o r (accs.map (·.int))
  else
    let vals := accs.zipIdx.map (fun x =>
      s.stages g.c g.p (draw (r * g.o.d0 + x.2) 1) r x.2 (s.applyG g x.2 (g.leave x.1)))
    (s.writeRow g.c.fo g.q g.o r vals).join { fl := s.rowFlags g r }

/-- The array command of a record (R116, R118, R119). -/
def State.runGemm (s : State) (c : Rec) (wide : Bool) (draw : Draw) (u : Option Upset) : ArrayOutcome :=
  let g := s.gemm c wide
  let axis := g.a.d0
  if g.q.outlier && !(s.outlierListOk g.q.outListPtr axis) then .badList
  else if g.q.gather && !(s.outlierListOk g.q.gatherListPtr g.o.d0) then .badList
  else
    let listed := if g.q.outlier then s.outlierChannels g.q.outListPtr axis else []
    let rows := (List.range g.o.rows).map (fun r => (r, s.accRow g draw listed u r))
    let out := joinAll (rows.map (fun p => s.gemmRow g draw p.1 p.2))
    let out := out.join { cells := emitCells g.q }
    match (if c.checked then s.checkFails g draw listed rows else none) with
    | some p => .checkFail p.1 p.2 out.fl
    | none => .done out

end Sys2Proof.Machine
end

