-- ==== Sys2Proof/Machine/Regions.lean ====
section
/-! DEFINITION. Who may reach what: region descriptors (R312 to R314), the reach of the address map (R288), bank
ownership (R182), and comparisons of declared regions (R31, R32, R108). -/

namespace Sys2Proof.Machine

open Sys2Proof

/-- An initiator by kind (R181, R313). -/
inductive Agent where
  /-- Dolly, Director code acting for a job, or Horizon landing, by job context. -/
  | job (ctx : Nat)
  /-- Secure firmware acting for no job. -/
  | firmware
  /-- The continuity island. -/
  | island
  /-- Host PCIe, or the SDIO port. -/
  | host
  /-- A write that arrives over Contrail, by the producer's job context. -/
  | remote (ctx : Nat)
deriving DecidableEq, Repr

/-- A descriptor's initiator rule (R313). -/
def RegionDesc.matchesAgent (d : RegionDesc) : Agent → Bool
  | .job ctx => flag d.attr.toNat (40 + ctx / 32)
  | .firmware => flag d.attr.toNat 57
  | .island => true
  | .host => flag d.attr.toNat 59
  | .remote ctx => flag d.attr.toNat 58 && flag d.attr.toNat (40 + ctx / 32)

/-- A descriptor admits a kind of access (R313). -/
def RegionDesc.admits (d : RegionDesc) (who : Agent) (secure write : Bool) : Bool :=
  flag d.attr.toNat 63 && (secure || flag d.attr.toNat 62) &&
  (if write then flag d.attr.toNat 60 else flag d.attr.toNat 61) && d.matchesAgent who

/-- The pages from `p` to `last` are covered by descriptors of the list; each round moves past the widest one that
holds `p`. -/
def covered (ds : List RegionDesc) : Nat → Nat → Nat → Bool
  | 0, _, _ => false
  | fuel + 1, p, last =>
    match (ds.filter (fun d => decide (d.base ≤ p) && decide (p ≤ d.limit))).map (·.limit) with
    | [] => false
    | l :: r => let m := r.foldl max l; decide (last ≤ m) || covered ds fuel (m + 1) last

/-- The region descriptors of a half admit an access to `[base, base + len)` (R313, R315). -/
def HalfState.admits (x : HalfState) (who : Agent) (secure write : Bool) (base len : Nat) : Bool :=
  if who = .island then true
  else if !x.prot.enforce then secure
  else
    covered ((x.prot.regions.map (·.2)).filter (fun d => d.admits who secure write)) 65 (base / 4096)
      ((base + len - 1) / 4096)

/-- The range lies wholly in one range of the map, and which (R11, R108). -/
def State.targetOf (s : State) (r : Region) : Target :=
  let t := s.target r.base
  if r.len = 0 then t
  else if s.target (r.base + r.len - 1) = t ∧ decide (r.len ≤ 2 ^ 35) then
    (match t with
     | .hbm h => if inRange (hbmBase h) hbmBytes (r.base + r.len - 1) then t else .unmapped
     | .bankPool h => if inRange (poolBase h) poolBytes (r.base + r.len - 1) then t else .unmapped
     | other => other)
  else .unmapped

/-- The half's HBM answers: training has not failed (R296). -/
def HalfState.hbmServed (x : HalfState) : Bool := x.hbm.train != 3

/-- A range in the half's own HBM or bank pool that the region descriptors admit. -/
def State.ownAdmits (s : State) (h : Half) (who : Agent) (secure write : Bool) (r : Region) : Bool :=
  (s.targetOf r == .hbm h || s.targetOf r == .bankPool h) && (s.half h).admits who secure write r.base r.len

/-- The address map lets a Dolly access of a half through (R288): its own HBM, where that answers (R296), its own bank
pool, and the partner's bank pool for the writes of a MOVE. Any other access gets a decode error. -/
def State.mapReaches (s : State) (h : Half) (write move : Bool) (addr : Nat) : Bool :=
  match s.target addr with
  | .hbm k => k == h && (s.half h).hbmServed
  | .bankPool k => k == h || (write && move)
  | _ => false

/-- The job context's world is secure (R320): a context without a job of its own has the world of its partition's jobs (R472);
secure where the partition has none (log entry 119). -/
def State.jobSecure (s : State) (h : Half) (ctx : Nat) : Bool :=
  match (s.job h ctx).entry with
  | some e => !e.world
  | none => ((s.half h).disp.jobs.filter (fun p => p.1 / 32 == ctx / 32)).all (fun p => p.2.entry.all (fun e => !e.world))

/-- The banks of a bank-pool range, one entry a line. -/
def banksOf (h : Half) (r : Region) : List Nat :=
  let o := r.base - poolBase h
  (List.range (if r.len = 0 then 0 else (o + r.len - 1) / 64 - o / 64 + 1)).map (fun i => bankOf ((o / 64 + i) * 64))

/-- The bank of a bank-pool address. -/
def bankAt (h : Half) (a : Nat) : Nat := bankOf (a - poolBase h)

/-- The lines of a range, by their first bytes in it. -/
def Region.lines (r : Region) : List Nat :=
  (List.range (ceilDiv (r.base % 64 + r.len) 64)).map (fun i => max r.base (r.base / 64 * 64 + 64 * i))

/-- The first line of a range that some bank refuses; its first byte where none does. -/
def Region.firstRefused (r : Region) (bad : Nat → Bool) : Nat := (r.lines.find? bad).getD r.base

/-- A bank's owner is the job context (R182). -/
def Bank.ownedBy (b : Bank) (ctx : Nat) : Bool := b.owned && b.ownerPart * 32 + b.ownerRole == ctx

/-- A write of a job into a bank is accepted (R182). -/
def State.jobOwns (s : State) (h : Half) (ctx bank : Nat) : Bool := (s.bank h bank).ownedBy ctx

/-- The first line of a bank-pool range whose bank the job does not own (R182). -/
def State.foreignLine (s : State) (h : Half) (ctx : Nat) (r : Region) : Nat :=
  r.firstRefused (fun a => !(s.jobOwns h ctx (bankAt h a)))

/-- Every bank of a bank-pool range is owned by the job. -/
def State.ownsRange (s : State) (h : Half) (ctx : Nat) (r : Region) : Bool :=
  (banksOf h r).all (s.jobOwns h ctx)

/-- Two ranges share a byte. -/
def overlap (a b : Region) : Bool :=
  decide (0 < a.len) && decide (0 < b.len) && decide (a.base < b.base + b.len) && decide (b.base < a.base + a.len)

/-- Some range of one list shares a byte with one of the other (R31, R32). -/
def anyOverlap (l m : List Region) : Bool := l.any (fun a => m.any (overlap a))

/-- One range lies wholly inside another. -/
def inside (a b : Region) : Bool := decide (b.base ≤ a.base) && decide (a.base + a.len ≤ b.base + b.len)

/-- The dark output regions of every unprinted command of a half but those of one job context (R32). -/
def State.darkOutputs (s : State) (h : Half) (ctx : Nat) : List Region :=
  (s.half h).disp.jobs.flatMap (fun p => if p.1 = ctx then [] else p.2.dark)

/-- A bank becomes all zero (R185). -/
def State.zeroBank (s : State) (h : Half) (bank : Nat) : State :=
  { s with
    mem := s.mem.filter (fun c => !(inRange (poolBase h) poolBytes c.1 && bankOf (c.1 - poolBase h) == bank))
    undef := s.undef.flatMap (carveBank (poolBase h + bank / 16 * 2 ^ 23) (bank % 16)) }

/-- What is left of a range whose contents have just become undefined without the banks being scrubbed: they read as zero
meanwhile (R185). -/
def State.unscrubbed (s : State) (u : UndefArea) : List UndefArea :=
  [Half.a, Half.b].foldl (fun l h =>
    ((s.half h).dolly.banks.filter (fun b => b.2.scrubbing)).foldl (fun l b =>
      l.flatMap (carveBank (poolBase h + b.1 / 16 * 2 ^ 23) (b.1 % 16))) l) [u]

/-- The contents of a range become undefined, but for what is being scrubbed (R36, R185). -/
def State.loseRegion (s : State) (r : Region) : State :=
  { s with
    undef := s.unscrubbed { base := r.base, len := r.len, seed := s.free } ++ s.undef.flatMap (carveArea r.base r.len)
    free := s.free + 1 }

/-- The contents of several ranges become undefined, but for what is being scrubbed. -/
def State.loseRegions (s : State) : List Region → State
  | [] => s
  | r :: rest => State.loseRegions (s.loseRegion r) rest

/-- The contents of a bank become undefined, unless it is being scrubbed (R185, R346). -/
def State.loseBank (s : State) (h : Half) (bank : Nat) : State :=
  if (s.bank h bank).scrubbing then s else s.markBankUndef (poolBase h) bank

/-! ### The check of a bank line (R176) -/

/-- The check of R176 on one line of a bank: what it counts, and whether the read ends with an error. -/
def State.lineCheck (s : State) (h : Half) (bank : Nat) : LineCheck → State
  | .ok => s
  | .corrected syn => s.modBank h bank (fun b => { b with ceCount := satAdd 0xFFFF b.ceCount 1, syndrome := syn % 128 })
  | .uncorrectable _ syn => s.modBank h bank (fun b => { b with ueCount := satAdd 0xFF b.ueCount 1, syndrome := syn % 128 })

/-- The log entry of an uncorrectable error: bank, line, word and syndrome in DETAIL with the SESSION of the requester's
command (R222), the requester in CTX (R176). -/
def bankUe (bank line word syn ctx tag session : Nat) : Event :=
  { code := 0x0401, cls := 1, unit := 2 + bank / 64, ctx := ctx, tag := tag
    detail := session + bank * 2 ^ 32 + line * 2 ^ 16 + word % 16 * 2 ^ 8 + syn % 128 }

end Sys2Proof.Machine
end

