-- ==== Sys2Proof/Machine/Attn.lean ====
section
/-! DEFINITION. ATTN and ATTB: streaming softmax over a paged cache (R206 to R219) and its backward pass (R225 to
R227). Every step keeps its own bound of R60 and R61, by one free value a step. -/

namespace Sys2Proof.Machine

open Sys2Proof

/-- The operands of one attention command. -/
structure Attention where
  c : Rec
  p : AttnParam
  b : AttnBlk
  q : Desc
  k : Desc
  v : Desc
  o : Desc
  d : QDesc
  table : List PageEntry
deriving DecidableEq, Repr

/-- The operands an ATTN record names (R203 to R207). -/
def State.attention (s : State) (c : Rec) : Attention :=
  let b := s.attnBlk c.wPtr
  { c := c, p := attnParam c.param, b := b, q := s.desc c.aPtr, k := s.desc b.kDesc, v := s.desc b.vDesc
    o := s.desc c.oPtr, d := s.qdesc c.qPtr, table := s.pageTable b.pageTable b.nPages }

/-- FP8 format. -/
def Fmt.isFp8 (f : Fmt) : Bool := f == .e4m3 || f == .e5m2

/-- Probabilities enter the value products in FP8 E4M3 (R209). -/
def Attention.fp8P (a : Attention) : Bool := a.c.fa.isFp8 && a.c.fw.isFp8 && !a.p.pWide

/-- The lane mode of an ATTN (R209). -/
def Attention.lane (a : Attention) : Lane := if a.fp8P then .single else .quarter

/-- One key of a session: page-table entry, slot and position. -/
structure Key where
  entry : Nat
  slot : Nat
  pos : Nat
  page : Nat
deriving DecidableEq, Repr

/-- The valid keys of a page table, in order (R207). -/
def keysOf (l : List PageEntry) : List Key :=
  l.zipIdx.flatMap (fun e =>
    (List.range (e.1.fillM1 + 1)).map (fun i =>
      { entry := e.2, slot := i, pos := 16 * e.1.pos16 + i, page := e.1.page }))

/-- The extents of the K and V pages one entry names (R107, R212). -/
def Attention.entryRegions (a : Attention) (e : PageEntry) : List Region :=
  let page := fun (d : Desc) =>
    ({ base := d.base + (if 1 < d.d3 then e.page * d.imagePitch * 64 else 0)
       len := { d with d3 := 1 }.extent (pRow a.c.fw false 0 d.d0) } : Region)
  [page a.k, page a.v]

/-- The extents of the pages a table names: declared inputs added at fetch (R212). -/
def Attention.pageRegions (a : Attention) : List Region := a.table.flatMap a.entryRegions

/-- Dolly's validation of a page table (R212): the first entry that fails, and which comparison: 1 PAGE not below D3,
2 POS16 not ascending, 3 a page named twice, 4 FILL_M1 below 15 before the last entry, 5 and 6 the comparisons of R31
and R32 with the command's own outputs and with dark outputs. -/
def Attention.pagesFail (a : Attention) (outs dark : List Region) : Option (Nat × Nat) :=
  a.table.zipIdx.findSome? (fun e =>
    let before := a.table.take e.2
    if a.k.d3 ≤ e.1.page then some (e.2, 1)
    else if before.any (fun x => decide (e.1.pos16 ≤ x.pos16)) then some (e.2, 2)
    else if before.any (fun x => x.page == e.1.page) then some (e.2, 3)
    else if e.2 + 1 ≠ a.table.length ∧ e.1.fillM1 ≠ 15 then some (e.2, 4)
    else if anyOverlap (a.entryRegions e.1) outs then some (e.2, 5)
    else if anyOverlap (a.entryRegions e.1) dark then some (e.2, 6)
    else none)

/-- The dh elements of head `g` of a key in a page array (R206). -/
def State.pageRow (s : State) (f : Fmt) (d : Desc) (g : Nat) (k : Key) : List Fv :=
  (s.row f 0 d ((k.page * d.d2 + g) * d.d1 + k.slot)).map (·.raw)

/-- The dh elements of head `h` of row `r` of a tensor of HQ × dh. -/
def State.headRow (s : State) (f : Fmt) (d : Desc) (dh h r : Nat) : List Fv :=
  (((s.row f 0 d r).drop (h * dh)).take dh).map (·.raw)

/-- exp inside ATTN: exactly 1 at 0, +0 below 2^−150 (R214). -/
def attnExp (x : Fv) (w : Word32) : Fv :=
  match x.val with
  | none => fvNan x.fl
  | some q =>
    if q = 0 then { x with val := some 1 }
    else if expApprox q < pow2 (-150) then { x with val := some 0 }
    else x.exp w

/-- The probability that enters the value pass for the argument ŝ − m: FP8 E4M3 of 256 times the exponential, or BF16
(R213); +0 where the exponential lies below half that format's smallest subnormal (R216). -/
def attnProb (fp8 : Bool) (x : Fv) (w : Word32) : Fv :=
  match x.val with
  | none => if fp8 then Fmt.e4m3.convert (fvNan x.fl) else Fmt.bf16.convert (fvNan x.fl)
  | some q =>
    if q ≠ 0 ∧ expApprox q < pow2 (if fp8 then -18 else -134) then { x with val := some 0 }
    else if fp8 then Fmt.e4m3.convert ((attnExp x w).times (fvOf 256))
    else Fmt.bf16.convert (attnExp x w)

/-- The running state of one row and head (R213): m, l and o; none before the first key. -/
structure Soft where
  m : Option Fv := none
  l : Fv := {}
  o : List Fv := []
deriving DecidableEq, Repr

/-! #### Passes (R211, R213, R228) -/

/-- A pass of an ATTN: the score pass of super-block `t` of KV head `g`, the value pass of key block `j`, and the score
pass of a super-block for the eviction scores (R218). -/
inductive AttnPass where
  | score (g t : Nat)
  | value (g j : Nat)
  | evict (g t : Nat)
deriving DecidableEq, Repr

/-- Page-table entries of a super-block: one K tile of 768 positions, 384 in quarter mode (chapter 07, Cost and the
decode step). -/
def Attention.superEntries (a : Attention) : Nat := if a.fp8P then 48 else 24

/-- The passes of an ATTN in the order in which they run. -/
def Attention.passes (a : Attention) : List AttnPass :=
  let n := ceilDiv a.b.nPages a.superEntries
  let per := a.superEntries / 8
  let blocks := ceilDiv a.b.nPages 8
  (List.range a.k.d2).flatMap (fun g =>
    (List.range n).flatMap (fun t =>
      .score g t :: ((List.range per).filter (fun i => decide (per * t + i < blocks))).map (fun i => .value g (per * t + i))) ++
    (if a.p.scoreEn then (List.range n).map (.evict g) else []))

/-- An accumulator of a pass with an upset added. -/
def disturbFv (x : Fv) (u : Option Upset) (pass row col : Nat) : Fv :=
  match u with
  | none => x
  | some u => if u.pass = pass ∧ u.row = row ∧ u.col = col then x.add (fvOf ((u.delta : Rat) * pow2 u.exp)) else x

/-- The row of a pass that carries query row `r` of head `h`: its KV head's query heads side by side. -/
def Attention.passRow (a : Attention) (h r : Nat) : Nat := r * a.p.group + h % a.p.group

/-- The column of a score pass that carries a key: its position in the super-block's tile. -/
def Attention.keyCol (a : Attention) (k : Key) : Nat := 16 * (k.entry % a.superEntries) + k.slot

/-- The accumulator q·k of one row, head and key in a score pass, the first or the eviction one. -/
def State.scoreAcc (s : State) (a : Attention) (draw : Draw) (u : Option Upset) (again : Bool) (h r : Nat)
    (k : Key × Nat) : Fv :=
  let g := h / a.p.group
  let t := k.1.entry / a.superEntries
  disturbFv
    (dot a.lane (draw (r * a.p.hq + h) (8 * k.2 + (if again then 7 else 0)))
      ((s.headRow a.c.fa a.q a.p.dh h r).zip (s.pageRow a.c.fw a.k g k.1)))
    u (a.passes.idxOf (if again then .evict g t else .score g t)) (a.passRow h r) (a.keyCol k.1)

/-- The unmasked keys of a query row, each with its number (R208). -/
def Attention.rowKeys (a : Attention) (r : Nat) : List (Key × Nat) :=
  (keysOf a.table).zipIdx.filter (fun k => unmasked a.p (a.b.qPos0 + r) k.1.pos)

/-- The scores of one row and head, unmasked keys only: key, its number, its score SCALE × q·k (R213). DESIGN CHOICE (log
entry 141): a key masked for a row raises no flag for it, so an infinite element that only the check column meets sets no
INF_IN. -/
def State.scoresOf (s : State) (a : Attention) (draw : Draw) (u : Option Upset) (again : Bool) (h r : Nat) :
    List (Key × Nat × Fv) :=
  (a.rowKeys r).map (fun k => (k.1, k.2, (s.scoreAcc a draw u again h r k).mul (f32 a.b.scale)))

/-- What one key block comes to for one row and head: the state after it, and for the check column its keys, the
probabilities that entered the value pass and its accumulators. -/
structure BlockRun where
  next : Soft
  keys : List Key := []
  ps : List Fv := []
  pv : List Fv := []
deriving DecidableEq, Repr

/-- One row and head over one key block (R213). -/
def State.softBlock (s : State) (a : Attention) (draw : Draw) (u : Option Upset) (h r j : Nat)
    (keys : List (Key × Nat × Fv)) (st : Soft) : BlockRun :=
  let g := h / a.p.group
  let row := r * a.p.hq + h
  match keys with
  | [] => { next := st }
  | k0 :: _ =>
    let top := (keys.map (fun k => k.2.2)).foldl Fv.max k0.2.2
    let mNew := match st.m with
      | none => top
      | some m => m.max top
    let f := match st.m with
      | none => fvOf 0
      | some m => attnExp (m.sub mNew) (draw row (8 * k0.2.1 + 1))
    let ps := keys.map (fun k => attnProb a.fp8P (k.2.2.sub mNew) (draw row (8 * k.2.1 + 2)))
    let vs := keys.map (fun k => s.pageRow a.c.fw a.v g k.1)
    let pv := (List.range a.p.dh).map (fun ch =>
      disturbFv (dot a.lane (draw row (8 * (k0.2.1 * 512 + ch) + 3)) (ps.zip (vs.map (fun v => v.getD ch {}))))
        u (a.passes.idxOf (.value g j)) (a.passRow h r) ch)
    let sum := fvTotal (draw row (8 * k0.2.1 + 4)) ps
    { next := match st.m with
        | none => { m := some mNew, l := sum, o := pv }
        | some _ => { m := some mNew, l := st.l.fma f sum, o := pv.zipIdx.map (fun x => (st.o.getD x.2 {}).fma f x.1) }
      keys := keys.map (·.1), ps := ps, pv := pv }

/-- One row and head over the key blocks from `j` on, 8 consecutive page-table entries each (R213). -/
def State.softRun (s : State) (a : Attention) (draw : Draw) (u : Option Upset) (h r : Nat)
    (keys : List (Key × Nat × Fv)) : Nat → Nat → Soft → List BlockRun
  | 0, _, _ => []
  | n + 1, j, st =>
    let b := s.softBlock a draw u h r j (keys.filter (fun k => k.1.entry / 8 == j)) st
    b :: State.softRun s a draw u h r keys n (j + 1) b.next

/-- The blocks of one row and head. -/
def State.softRow (s : State) (a : Attention) (draw : Draw) (u : Option Upset) (h r : Nat) : List BlockRun :=
  s.softRun a draw u h r (s.scoresOf a draw u false h r) (ceilDiv a.b.nPages 8) 0 {}

/-- The output, m and l of one row and head (R213, R215, R216). A NaN among its scores is NaN in each of them, with the
flags its values raise (R47, R58). -/
def State.attnHead (s : State) (a : Attention) (draw : Draw) (u : Option Upset) (h r : Nat) : List Fv × Fv × Fv :=
  let st := ((s.softRow a draw u h r).getLast?.map (·.next)).getD {}
  let row := r * a.p.hq + h
  match st.m with
  | none => (List.replicate a.p.dh (fvOf 0), fvOf (-Fmt.fp32.maxFinite), fvOf 0)
  | some m =>
    let inv := st.l.recip (draw row 5)
    let gv := s.secondLevel a.d.wG a.d.wGPtr 0
    (st.o.map (fun x => match gv with
      | none => x.mul inv
      | some g => (x.mul inv).mul g), m, st.l)

/-! #### The check column in an ATTN (R140, R141, R211) -/

/-- The entries of the page table that are loaded: a page wholly masked for every row is not (R216). -/
def Attention.liveEntries (a : Attention) : List Nat :=
  (List.range a.b.nPages).filter (fun t =>
    (List.range a.q.rows).any (fun r => (a.rowKeys r).any (fun k => k.1.entry == t)))

/-- The keys a super-block loads. -/
def Attention.loadedKeys (a : Attention) (t : Nat) : List (Key × Nat) :=
  let live := a.liveEntries
  (keysOf a.table).zipIdx.filter (fun k => k.1.entry / a.superEntries == t && live.contains k.1.entry)

/-- The lines of a page array that the K or V feed reads, KV head by KV head and page by page in the table's order: of each
loaded page the slots FILL_M1 leaves valid (R206, R216, R224). `again` says that a score pass follows a head's value passes and
loads its pages a second time (R218, R228; DEDUCED, log entry 161). -/
def Attention.pageLines (a : Attention) (d : Desc) (again : Bool) : List Nat :=
  let prow := pRow a.c.fw false 0 d.d0
  let live := a.table.zipIdx.filter (fun e => a.liveEntries.contains e.2)
  (List.range d.d2).flatMap (fun g =>
    let one := live.flatMap (fun e =>
      (List.range (ceilDiv (d.base % 64 + (e.1.fillM1 + 1) * prow) 64)).map (fun i =>
        d.base / 64 + e.1.page * d.imagePitch + g * d.linePitch + i))
    if again then one ++ one else one)

/-- The comparison of one row of a pass. A masked key is a column of its tile like any other: the mask acts after the
score has left the array. -/
def State.attnCompare (s : State) (a : Attention) (draw : Draw) (u : Option Upset) (pass : Nat) (p : AttnPass)
    (h r : Nat) : Bool :=
  let row := r * a.p.hq + h
  let score := fun (again : Bool) (g t : Nat) =>
    let keys := a.loadedKeys t
    let rows := keys.map (fun k => s.pageRow a.c.fw a.k g k.1)
    floatCheck a.lane (checkDraw draw pass row)
      ((s.headRow a.c.fa a.q a.p.dh h r).zipIdx.map (fun q => (q.1, rows.map (fun k => k.getD q.2 {}))))
      (keys.map (s.scoreAcc a draw u again h r))
  match p with
  | .score g t => score false g t
  | .evict g t => score true g t
  | .value g j =>
    let b := (s.softRow a draw u h r).getD j { next := {} }
    floatCheck a.lane (checkDraw draw pass row)
      (b.ps.zip (b.keys.map (fun k => s.pageRow a.c.fw a.v g k))) b.pv

/-- The KV head of a pass. -/
def AttnPass.head : AttnPass → Nat
  | .score g _ => g
  | .value g _ => g
  | .evict g _ => g

/-- The first comparison of an ATTN that fails: the pass and the output row (R142). -/
def State.attnFails (s : State) (a : Attention) (draw : Draw) (u : Option Upset) : Option (Nat × Nat) :=
  a.passes.zipIdx.findSome? (fun p =>
    (List.range a.q.rows).findSome? (fun r =>
      if (List.range a.p.group).all (fun i => s.attnCompare a draw u p.2 p.1 (p.1.head * a.p.group + i) r) then none
      else some (p.2, r)))

/-- An FP32 result as bytes. -/
def word32 (x : Fv) : List Byte := toLe 4 (Fmt.fp32.encode x.val)

/-- A page-table entry is protected (R219). -/
def Attention.protectedEntry (a : Attention) (e : PageEntry) : Bool :=
  decide (16 * e.pos16 < a.b.sinks) ||
    decide (a.b.qPos0 + a.q.rows ≤ 16 * e.pos16 + e.fillM1 + 16 * a.b.recent16)

/-- The mass one key gains from every row and query head (R218). -/
def keyMass (a : Attention) (draw : Draw) (heads : List (Nat × List (Key × Nat × Fv) × Fv × Fv))
    (entry slot : Nat) : Fv :=
  fvTotal (draw (1000000 + 16 * entry + slot) 6) (heads.flatMap (fun x =>
    (x.2.1.filter (fun k => k.1.entry == entry && k.1.slot == slot)).map (fun k =>
      let l := if a.fp8P then x.2.2.2.mul (fvOf (pow2 (-8))) else x.2.2.2
      (attnExp (k.2.2.sub x.2.2.1) (draw x.1 (8 * k.2.1 + 6))).mul (l.recip (draw x.1 (2 ^ 39))))))

/-- The eviction-score rows of an ATTN (R218, R219). -/
def State.scoreRows (s : State) (a : Attention) (draw : Draw) (heads : List (Nat × List (Key × Nat × Fv) × Fv × Fv)) :
    Written :=
  joinAll (a.table.zipIdx.map (fun e =>
    let old := fun i => if a.b.scoreIn = 0 then fvOf 0 else s.f32At (a.b.scoreIn + 128 * e.2 + 4 * i)
    let pos := (List.range 16).map (fun i =>
      if e.1.fillM1 < i then fvOf 0
      else (f32 a.b.decay).fma (old i) (keyMass a draw heads e.2 i))
    let page :=
      if a.protectedEntry e.1 then fvOf Fmt.fp32.maxFinite
      else fvTotal (draw (1000000 + 16 * e.2) 7) (pos.take (e.1.fillM1 + 1))
    { cells := cellsAt (a.b.scoreOut + 128 * e.2) ((pos ++ [page]).flatMap word32 ++ List.replicate 60 0)
      fl := flagsOf (page :: pos) }))

/-- ATTN (R213 to R219). -/
def State.runAttn (s : State) (c : Rec) (draw : Draw) (u : Option Upset) : ArrayOutcome :=
  let a := s.attention c
  let rows := List.range a.q.rows
  let heads := List.range a.p.hq
  let results := rows.map (fun r => heads.map (fun h => (h, s.attnHead a draw u h r)))
  let main := joinAll (results.zipIdx.map (fun x =>
    s.writeRow c.fo a.d a.o x.2 (x.1.flatMap (fun y => y.2.1))))
  let stats : Written :=
    if a.p.statsEn then
      joinAll (results.zipIdx.map (fun x =>
        { cells := cellsAt (a.b.stats + 8 * x.2 * a.p.hq) (x.1.flatMap (fun y => word32 y.2.2.1 ++ word32 y.2.2.2))
          fl := flagsOf (x.1.flatMap (fun y => [y.2.2.1, y.2.2.2])) }))
    else {}
  let score : Written :=
    if a.p.scoreEn then
      s.scoreRows a draw (rows.flatMap (fun r => heads.map (fun h =>
        let y := s.attnHead a draw u h r
        (r * a.p.hq + h, s.scoresOf a draw u true h r, y.2.1, y.2.2))))
    else {}
  let out := ((main.join stats).join score).join { cells := emitCells a.d }
  match (if c.checked then s.attnFails a draw u else none) with
  | some p => .checkFail p.1 p.2 out.fl
  | none => .done out

/-! ### ATTB (R225 to R227) -/

/-- P, dP and dS of one row, head and key (R226). -/
structure Grad where
  p : Fv
  ds : Fv
deriving DecidableEq, Repr

/-- The operands of an ATTB. -/
structure Backward where
  c : Rec
  p : AttnParam
  b : BackBlk
  q : Desc
  k : Desc
  v : Desc
  o : Desc
  dO : Desc
  dQ : Desc
  dK : Desc
  dV : Desc
deriving DecidableEq, Repr

def State.backward (s : State) (c : Rec) : Backward :=
  let b := s.backBlk c.wPtr
  { c := c, p := attnParam c.param, b := b, q := s.desc c.aPtr, k := s.desc b.kDesc, v := s.desc b.vDesc
    o := s.desc b.oDesc, dO := s.desc b.doDesc, dQ := s.desc c.oPtr, dK := s.desc b.dkDesc, dV := s.desc b.dvDesc }

/-- SCALE of an ATTB. -/
def Backward.scale (a : Backward) : Fv := f32 (a.c.param % 2 ^ 32)

/-- KV heads and rows per KV head of an ATTB. -/
def Backward.hkv (a : Backward) : Nat := a.p.hq / a.p.group
def Backward.nr (a : Backward) : Nat := a.p.group * a.q.rows

/-- A pass of an ATTB: in phase 1, S, dP, dV and dK of key block `b` (128 keys) of KV head `g`; in phase 2, S and dP of
query block `b` (128 rows) against key tile `t` (384 keys) where they are recomputed, and dQ (R226, R227, R229). -/
inductive BackPass where
  | s1 (g b : Nat)
  | dp1 (g b : Nat)
  | dv (g b : Nat)
  | dk (g b : Nat)
  | s2 (g b t : Nat)
  | dp2 (g b t : Nat)
  | dq (g b : Nat)
deriving DecidableEq, Repr

/-- The passes of an ATTB in the order in which they run. -/
def Backward.passes (a : Backward) (store : Bool) : List BackPass :=
  let l := a.q.rows
  (List.range a.hkv).flatMap (fun g => (List.range (ceilDiv l 128)).flatMap (fun b =>
    [.s1 g b, .dp1 g b, .dv g b, .dk g b])) ++
  (List.range a.hkv).flatMap (fun g => (List.range (ceilDiv a.nr 128)).flatMap (fun b =>
    (if store then [] else (List.range (ceilDiv l 384)).flatMap (fun t => [.s2 g b t, .dp2 g b t])) ++ [.dq g b]))

/-- One run of an ATTB: its operands, its draws, a disturbance, and whether phase 2 reads the stored dS. -/
structure BackRun where
  a : Backward
  draw : Draw
  u : Option Upset
  store : Bool

/-- An accumulator of a pass with the run's upset added. -/
def BackRun.disturb (x : BackRun) (v : Fv) (p : BackPass) (row col : Nat) : Fv :=
  disturbFv v x.u ((x.a.passes x.store).idxOf p) row col

/-- Row `q` of a KV head's passes: the query row and the head it carries. -/
def Backward.queryOf (a : Backward) (g q : Nat) : Nat × Nat := (q / a.p.group, g * a.p.group + q % a.p.group)

/-- The accumulator q·k (or dO·v) of row `q`, key `j` of KV head `g`, in phase 1 or recomputed in phase 2. -/
def State.backAcc (s : State) (x : BackRun) (dp two : Bool) (g q j : Nat) : Fv :=
  let a := x.a
  let rh := a.queryOf g q
  let v := dot .quarter (x.draw (rh.1 * a.p.hq + rh.2) (16 * j + 2 * bitOf dp + bitOf two))
    ((s.headRow a.c.fa (if dp then a.dO else a.q) a.p.dh rh.2 rh.1).zip
      (s.headRow a.c.fw (if dp then a.v else a.k) a.p.dh g j))
  match dp, two with
  | false, false => x.disturb v (.s1 g (j / 128)) q (j % 128)
  | true, false => x.disturb v (.dp1 g (j / 128)) q (j % 128)
  | false, true => x.disturb v (.s2 g (q / 128) (j / 384)) (q % 128) (j % 384)
  | true, true => x.disturb v (.dp2 g (q / 128) (j / 384)) (q % 128) (j % 384)

/-- P and dS of row `q`, key `j` of KV head `g` (R226). -/
def State.gradOf (s : State) (x : BackRun) (two : Bool) (g q j : Nat) : Grad :=
  let a := x.a
  let rh := a.queryOf g q
  let e := rh.1 * a.p.hq + rh.2
  let m := s.f32At (a.b.stats + 8 * e)
  let l := s.f32At (a.b.stats + 8 * e + 4)
  let l := if a.c.fa.isFp8 && a.c.fw.isFp8 then l.mul (fvOf (pow2 (-8))) else l
  let sc := (s.backAcc x false two g q j).mul a.scale
  let p := (attnExp (sc.sub m) (x.draw e (16 * j + 4 + bitOf two))).mul (l.recip (x.draw e (2 ^ 39)))
  let dr := dot .quarter (x.draw e (2 ^ 39 + 1))
    ((s.headRow a.c.fa a.dO a.p.dh rh.2 rh.1).zip (s.headRow a.c.fa a.o a.p.dh rh.2 rh.1))
  { p := p, ds := p.mul ((s.backAcc x true two g q j).sub dr) }

/-- P or dS as it enters the array: BF16, zero where the key is masked (R208, R225). -/
def State.gradIn (s : State) (x : BackRun) (two isP : Bool) (g q j : Nat) : Fv :=
  if unmasked x.a.p (x.a.queryOf g q).1 j then
    let t := s.gradOf x two g q j
    Fmt.bf16.convert (if isP then t.p else t.ds)
  else fvOf 0

/-- The K-rows of a dV or dK pass for key `j`: P or dS of each row with the row's dO or q. -/
def State.kvRows (s : State) (x : BackRun) (isV : Bool) (g j : Nat) : List (Fv × List Fv) :=
  ((List.range x.a.nr).filter (fun q => unmasked x.a.p (x.a.queryOf g q).1 j)).map (fun q =>
    let rh := x.a.queryOf g q
    (s.gradIn x false isV g q j, s.headRow x.a.c.fa (if isV then x.a.dO else x.a.q) x.a.p.dh rh.2 rh.1))

/-- The K-rows of the dQ pass for row `q`: dS of each key with the key's k. -/
def State.dqRows (s : State) (x : BackRun) (g q : Nat) : List (Fv × List Fv) :=
  ((List.range x.a.q.rows).filter (fun j => unmasked x.a.p (x.a.queryOf g q).1 j)).map (fun j =>
    (s.gradIn x (!x.store) false g q j, s.headRow x.a.c.fw x.a.k x.a.p.dh g j))

/-- The accumulators of key `j` in a dV or dK pass, column by column. -/
def State.kvAccs (s : State) (x : BackRun) (isV : Bool) (g j : Nat) : List Fv :=
  let rows := s.kvRows x isV g j
  (List.range x.a.p.dh).map (fun ch =>
    x.disturb (dot .quarter (x.draw (1000000 + j * 64 + g) (2 * ch + bitOf isV)) (rows.map (fun k => (k.1, k.2.getD ch {}))))
      (if isV then .dv g (j / 128) else .dk g (j / 128)) (j % 128) ch)

/-- The accumulators of row `q` in the dQ pass. -/
def State.dqAccs (s : State) (x : BackRun) (g q : Nat) : List Fv :=
  let rows := s.dqRows x g q
  (List.range x.a.p.dh).map (fun ch =>
    x.disturb (dot .quarter (x.draw (2000000 + q * 64 + g) ch) (rows.map (fun k => (k.1, k.2.getD ch {}))))
      (.dq g (q / 128)) (q % 128) ch)

/-- Row `i` of a pass, with the output row a failed comparison names: the K-rows and the accumulators; none past the
pass's last row. -/
def State.backRow (s : State) (x : BackRun) (p : BackPass) (i : Nat) : Option (Nat × List (Fv × List Fv) × List Fv) :=
  let a := x.a
  let grid := fun (dp two : Bool) (g q lo n : Nat) =>
    let rh := a.queryOf g q
    let js := (List.range n).filterMap (fun k => if lo + k < a.q.rows then some (lo + k) else none)
    let ws := js.map (fun j => s.headRow a.c.fw (if dp then a.v else a.k) a.p.dh g j)
    if q < a.nr then
      some (rh.1, ((s.headRow a.c.fa (if dp then a.dO else a.q) a.p.dh rh.2 rh.1).zipIdx.map (fun e =>
        (e.1, ws.map (fun w => w.getD e.2 {})))), js.map (s.backAcc x dp two g q))
    else none
  let kv := fun (isV : Bool) (g j : Nat) =>
    if j < a.q.rows then some (j, s.kvRows x isV g j, s.kvAccs x isV g j) else none
  match p with
  | .s1 g b => grid false false g i (128 * b) 128
  | .dp1 g b => grid true false g i (128 * b) 128
  | .dv g b => if i < 128 then kv true g (128 * b + i) else none
  | .dk g b => if i < 128 then kv false g (128 * b + i) else none
  | .s2 g b t => if i < 128 then grid false true g (128 * b + i) (384 * t) 384 else none
  | .dp2 g b t => if i < 128 then grid true true g (128 * b + i) (384 * t) 384 else none
  | .dq g b =>
    let q := 128 * b + i
    if i < 128 ∧ q < a.nr then some ((a.queryOf g q).1, s.dqRows x g q, s.dqAccs x g q) else none

/-- The first comparison of an ATTB that fails: the pass and the output row (R142). -/
def State.backFails (s : State) (x : BackRun) : Option (Nat × Nat) :=
  (x.a.passes x.store).zipIdx.findSome? (fun p =>
    (List.range (max 128 x.a.nr)).findSome? (fun i =>
      match s.backRow x p.1 i with
      | none => none
      | some (row, ks, accs) =>
        if floatCheck .quarter (checkDraw x.draw p.2 i) ks accs then none else some (p.2, row)))

/-- ATTB runs in store mode (R227). -/
def State.attbStores (s : State) (h : Half) (c : Rec) : Bool :=
  let a := s.backward c
  let d := s.desc a.b.scoreBuf
  s.twoHalves && a.b.scoreBuf != 0 && s.targetOf d.region == .hbm h &&
    decide (a.p.hq * a.q.rows * pRow .bf16 false 0 a.q.rows ≤ d.span)

/-- ATTB: dV, dK and dQ (R226); P and dS enter the array as BF16. -/
def State.runAttb (s : State) (h : Half) (c : Rec) (draw : Draw) (u : Option Upset) : ArrayOutcome :=
  let a := s.backward c
  let x : BackRun := { a := a, draw := draw, u := u, store := s.attbStores h c }
  let kv := fun (isV : Bool) (d : Desc) =>
    joinAll ((List.range a.q.rows).map (fun j =>
      s.writeRow c.fo {} d j ((List.range a.hkv).flatMap (fun g =>
        (s.kvAccs x isV g j).map (fun v => if isV then v else v.mul a.scale)))))
  let dq := joinAll ((List.range a.q.rows).map (fun r =>
    s.writeRow c.fo {} a.dQ r ((List.range a.p.hq).flatMap (fun h' =>
      (s.dqAccs x (h' / a.p.group) (r * a.p.group + h' % a.p.group)).map (fun v => v.mul a.scale)))))
  let out := ((kv true a.dV).join (kv false a.dK)).join dq
  match (if c.checked then s.backFails x else none) with
  | some p => .checkFail p.1 p.2 out.fl
  | none => .done out

end Sys2Proof.Machine
end

