-- ==== Sys2Proof/Machine/Move.lean ====
section
/-! DEFINITION. MOVE: what its four modes write or log (R194 to R198), and the data packets of a push into the
partner half's bank pool (R304). -/

namespace Sys2Proof.Machine

open Sys2Proof

/-- The bytes one row of a MOVE writes: the source row's elements packed, so that the positions of a last byte or 3-byte
group that they do not fill are zero (R48), and padding zero (R107, R195). -/
def State.moveRow (s : State) (c : Rec) (src : Desc) (r : Nat) : List Byte :=
  let n := c.fa.rowBytes src.d0
  let bytes := s.readBytes (src.rowAddr (pRow c.fa false 0 src.d0) r) n
  (if c.fa.bits < 8 then c.fa.packRow ((List.range src.d0).map (c.fa.elemAt bytes)) else bytes) ++
    List.replicate (pRow c.fa false 0 src.d0 - n) 0

/-- Rows of a MOVE: source row and destination row of each row moved, in order (R195, R197). -/
def moveRows (s : State) (c : Rec) (src dst : Desc) : List (Nat × Nat) :=
  if c.moveMode = 2 then
    let per := src.d1 * src.d2
    (List.range (s.objLe c.auxPtr 4)).flatMap (fun k =>
      let a := s.objLe (c.auxPtr + 8 + 8 * k) 4
      let b := s.objLe (c.auxPtr + 12 + 8 * k) 4
      (List.range per).map (fun i => (a * per + i, b * per + i)))
  else (List.range dst.rows).map (fun r => (r, r))

/-- The tag line of a halo MOVE (R196). -/
def tagLine (h : Half) (c : Rec) : List Byte :=
  toLe 4 (c.param % 2 ^ 32) ++ toLe 1 (halfNum h) ++ toLe 1 0 ++ toLe 2 c.tag ++ List.replicate 56 0

/-- What a MOVE in copy, halo or KV-page mode writes: address and bytes of each run, in order. -/
def State.moveRuns (s : State) (h : Half) (c : Rec) : List (Nat × List Byte) :=
  let src := s.desc c.aPtr
  let dst := s.desc c.oPtr
  ((moveRows s c src dst).map (fun p => (dst.rowAddr (pRow c.fo false 0 dst.d0) p.2, s.moveRow c src p.1))) ++
  (if c.moveMode = 1 then [(dst.base + dst.span - 64, tagLine h c)] else [])

/-- A run cut into data packets of at most 256 B, each to one line-aligned destination: a run within a line stays
whole (R304). -/
def packetsOf (ctx : Nat) (nonSecure : Bool) : Nat → Nat → List Byte → List LinkPacket
  | 0, _, _ => []
  | fuel + 1, a, l =>
    if l.isEmpty then []
    else
      let k := if a % 64 = 0 then 256 else 64 - a % 64
      { ctx := ctx, addr := a, bytes := l.take k, nonSecure := nonSecure } ::
        packetsOf ctx nonSecure fuel (a + k) (l.drop k)

/-- The packets of a list of runs. -/
def runPackets (ctx : Nat) (nonSecure : Bool) (l : List (Nat × List Byte)) : List LinkPacket :=
  l.flatMap (fun p => packetsOf ctx nonSecure (p.2.length + 1) p.1 p.2)

/-- The atomic entries of a list: each pair of INT32 elements, the lower-addressed one holding bits 31:0 (R198). -/
def State.atomicEntries (s : State) (c : Rec) : List (BitVec 64) :=
  let d := s.desc c.aPtr
  (List.range d.rows).flatMap (fun r =>
    let a := d.rowAddr (pRow .int32 false 0 d.d0) r
    (List.range (d.d0 / 2)).map (fun i => BitVec.ofNat 64 (s.readLe (a + 8 * i) 8)))

/-- OP, WORD and OPERAND of an atomic entry (R186). -/
def atomicOp (e : BitVec 64) : Nat := field e.toNat 63 62
def atomicWord (e : BitVec 64) : Nat := field e.toNat 56 32
def atomicOperand (e : BitVec 64) : Nat := field e.toNat 31 0

/-- The address of an atomic's word. -/
def atomicAddr (h : Half) (e : BitVec 64) : Nat := poolBase h + 4 * atomicWord e

/-- The checks of R187. -/
def State.atomicOk (s : State) (h : Half) (ctx : Nat) (e : BitVec 64) : Bool :=
  atomicOp e != 3 && s.jobOwns h ctx (bankOf (4 * atomicWord e)) &&
  !(anyOverlap [{ base := atomicAddr h e, len := 4 }] (s.darkOutputs h ctx))

/-- One atomic executed: the word written and the flags raised (R188). -/
def atomicResult (e : BitVec 64) (old : Nat) : Nat × Flags :=
  match atomicOp e with
  | 0 =>
    let r := Fmt.int32.satInt (signedOf 32 old + signedOf 32 (atomicOperand e))
    (unsignedOf 32 r.1, { clip := r.2 })
  | 1 =>
    let r := (f32 old).add (f32 (atomicOperand e))
    (Fmt.fp32.encode r.val, r.fl)
  | _ => (atomicOperand e, {})

end Sys2Proof.Machine
end

