-- ==== Sys2Proof/Machine/Vision.lean ====
section
/-! DEFINITION. The post-unit-only commands: POOL, RSMP, EWISE, NORM, CVT and TOPK (R120 to R127, R236 to R240). -/

namespace Sys2Proof.Machine

open Sys2Proof

/-- The post-unit inputs of row `r` of an operand: `x × s × G` (R79). -/
def State.inputRow (s : State) (c : Rec) (q : QDesc) (d : Desc) (r : Nat) : List Fv :=
  (s.row c.fa q.aBlk d r).map (fun e => e.entry (s.secondLevel q.aG q.aGPtr 0))

/-- Output rows from a function of the row, through the stages of R112 and the writer. -/
def State.runRows (s : State) (c : Rec) (draw : Draw) (o : Desc) (f : Nat → List Fv) : Written :=
  let q := s.qdesc c.qPtr
  let p := s.postBlk c.auxPtr
  let body := joinAll ((List.range o.rows).map (fun r =>
    s.writeRow c.fo q o r ((f r).zipIdx.map (fun x => activation c.act p (draw (r * o.d0 + x.2) 1) x.1))))
  body.join { cells := emitCells q }

/-! ### POOL (R120, R236) -/

/-- POOL_KIND, and COUNT_PAD (R120). -/
def poolKind (p : Nat) : Nat := field p 23 22
def countPad (p : Nat) : Bool := flag p 21

/-- The maximum of a window; NaN where any element is (R58). -/
def fvMaxList : List Fv → Fv
  | [] => {}
  | x :: r => r.foldl Fv.max x

/-- A mean over `n`, within γ_(⌈log2 n⌉ + 2) × Σ|x| / n (R61). -/
def fvMean (w : Word32) (l : List Fv) (n : Nat) : Fv :=
  let fl := flagsOf l
  if l.any (fun x => x.val.isNone) then fvNan fl
  else
    let p := sumAbs (l.map (fun x => x.val.getD 0))
    fvWithin fl w (p.1 / (n : Rat)) (gamma (ceilLog2 n + 2) * p.2 / (n : Rat))

/-- The input rows inside the window of an output row (R236). -/
def poolRows (c : Rec) (a o : Desc) (r : Nat) : List Nat :=
  if 2 ≤ poolKind c.param then
    (List.range (a.d1 * a.d2)).map (fun i => r / (o.d1 * o.d2) * (a.d1 * a.d2) + i)
  else (convTaps { windowOf c.param with padMode := 0 } a.d2 a.d1 o.d2 o.d1 r).filterMap (·.2)

/-- POOL. -/
def State.runPool (s : State) (c : Rec) (draw : Draw) : Written :=
  let a := s.desc c.aPtr
  let o := s.desc c.oPtr
  let q := s.qdesc c.qPtr
  let w := windowOf c.param
  s.runRows c draw o (fun r =>
    let rows := (poolRows c a o r).map (s.inputRow c q a)
    (List.range a.d0).map (fun ch =>
      let xs := rows.map (fun l => l.getD ch {})
      if poolKind c.param % 2 = 0 then fvMaxList xs
      else
        let n := if poolKind c.param = 1 && countPad c.param then w.kh * w.kw else xs.length
        fvMean (draw (r * o.d0 + ch) 0) xs n))

/-! ### RSMP (R121, R237 to R240) -/

/-- MODE, ALIGN_CORNERS and NEAREST_ROUND (R121). -/
def rsmpMode (p : Nat) : Nat := field p 63 62
def alignCorners (p : Nat) : Bool := flag p 61
def nearestRound (p : Nat) : Bool := flag p 60

/-- The source coordinate of an output index (R237). -/
def sourceCoord (align : Bool) (inp out o : Nat) : Rat :=
  if align then (if out = 1 then 0 else mkRat (o * (inp - 1) : Nat) (out - 1))
  else mkRat ((2 * o + 1) * inp : Nat) (2 * out) - mkRat 1 2

/-- An index clamped to 0 to n − 1. -/
def clampTo (n : Nat) (i : Int) : Nat := if i < 0 then 0 else min i.toNat (n - 1)

/-- The index nearest mode reads (R238). -/
def nearestIndex (p inp out o : Nat) : Nat :=
  let x := sourceCoord (alignCorners p) inp out o
  clampTo inp (if nearestRound p then (x + mkRat 1 2).floor else (x - mkRat 1 2).ceil)

/-- i₀ and f of bilinear mode, f rounded to 16 fractional bits (R237). -/
def bilinearAt (p inp out o : Nat) : Int × Rat :=
  let x := sourceCoord (alignCorners p) inp out o
  let i := x.floor
  let n := roundRat ((x - i) * 65536)
  if n = 65536 then (i + 1, 0) else (i, mkRat n 65536)

/-- The weights of area mode along one axis (R240): input index and the share of the output's interval that it covers, exactly. -/
def areaAt (inp out o : Nat) : List (Nat × Rat) :=
  (List.range inp).filterMap (fun i =>
    let lo := max (i * out) (o * inp)
    let hi := min ((i + 1) * out) ((o + 1) * inp)
    if lo < hi then some (i, mkRat (hi - lo : Nat) inp) else none)

/-- The bound of R61 for bilinear and area resampling of some inputs. -/
def blendBound (vs : List Rat) : Rat :=
  let v0 := vs.headD 0
  let hi := vs.foldl (fun a b => if a ≤ b then b else a) v0
  let lo := vs.foldl (fun a b => if a ≤ b then a else b) v0
  let m := vs.foldl (fun a b => if a ≤ ratAbs b then ratAbs b else a) 0
  pow2 (-16) * (hi - lo) + 4 * u32 * m

/-- A weighted sum within the bound of R61 for bilinear resampling. -/
def fvBlend (w : Word32) (l : List (Fv × Rat)) : Fv :=
  let fl := flagsOf (l.map (·.1))
  if l.any (fun x => x.1.val.isNone) then fvNan fl
  else
    let exact := l.foldl (fun acc x => acc + x.1.val.getD 0 * x.2) 0
    fvWithin fl w exact (blendBound (l.map (fun x => x.1.val.getD 0)))

/-- A sum with exact weights that follows R61 as an average (R240): within γ_(⌈log2 n⌉ + 2) × Σ w|x| of the exact sum of
its n terms, where with equal weights Σ w|x| is the Σ|x| / n of R61, and within R61's own bound for area resampling. -/
def fvAverage (w : Word32) (l : List (Fv × Rat)) : Fv :=
  let fl := flagsOf (l.map (·.1))
  if l.any (fun x => x.1.val.isNone) then fvNan fl
  else
    let p := sumAbs (l.map (fun x => x.1.val.getD 0 * x.2))
    let a := gamma (ceilLog2 l.length + 2) * p.2
    let b := blendBound (l.map (fun x => x.1.val.getD 0))
    fvWithin fl w p.1 (if a ≤ b then a else b)

/-- RSMP. -/
def State.runRsmp (s : State) (c : Rec) (draw : Draw) : Written :=
  let a := s.desc c.aPtr
  let o := s.desc c.oPtr
  let q := s.qdesc c.qPtr
  s.runRows c draw o (fun r =>
    let b := r / (o.d1 * o.d2)
    let y := r / o.d1 % o.d2
    let x := r % o.d1
    let at' := fun (i j : Nat) => s.inputRow c q a ((b * a.d2 + i) * a.d1 + j)
    match rsmpMode c.param with
    | 0 => at' (nearestIndex c.param a.d2 o.d2 y) (nearestIndex c.param a.d1 o.d1 x)
    | 1 =>
      let v := bilinearAt c.param a.d2 o.d2 y
      let u := bilinearAt c.param a.d1 o.d1 x
      let r0 := clampTo a.d2 v.1
      let r1 := clampTo a.d2 (v.1 + 1)
      let c0 := clampTo a.d1 u.1
      let c1 := clampTo a.d1 (u.1 + 1)
      let l00 := at' r0 c0
      let l01 := at' r0 c1
      let l10 := at' r1 c0
      let l11 := at' r1 c1
      (List.range a.d0).map (fun ch =>
        fvBlend (draw (r * o.d0 + ch) 0)
          [(l00.getD ch {}, (1 - v.2) * (1 - u.2)), (l01.getD ch {}, (1 - v.2) * u.2),
           (l10.getD ch {}, v.2 * (1 - u.2)), (l11.getD ch {}, v.2 * u.2)])
    | _ =>
      let cells := (areaAt a.d2 o.d2 y).flatMap (fun i => (areaAt a.d1 o.d1 x).map (fun j => (at' i.1 j.1, i.2 * j.2)))
      (List.range a.d0).map (fun ch =>
        fvAverage (draw (r * o.d0 + ch) 0) (cells.map (fun k => (k.1.getD ch {}, k.2)))))

/-! ### EWISE (R122, R123) -/

/-- FUNC, B_MODE and SCALAR (R122). -/
def ewiseFunc (p : Nat) : Nat := field p 63 58
def bMode (p : Nat) : Nat := field p 56 55
def scalarOf (p : Nat) : Nat := field p 31 0

/-- The function takes b (R122). -/
def ewiseTakesB (f : Nat) : Bool := (decide (1 ≤ f) && decide (f ≤ 5)) || f == 0x0A || f == 0x0B

/-- The function is in the table of R122. -/
def ewiseKnown (f : Nat) : Bool := decide (f ≤ 0x0B)

/-- One element of EWISE (R122, R145). -/
def ewiseOp (f : Nat) (w : Word32) (a b : Fv) : Fv :=
  match f with
  | 0x00 => a
  | 0x01 => a.add b
  | 0x02 => a.sub b
  | 0x03 => a.mul b
  | 0x04 => a.max b
  | 0x05 => a.min b
  | 0x06 => a.recip w
  | 0x07 => a.sqrt w
  | 0x08 => a.rsqrt w
  | 0x09 => a.log w
  | _ => a.map2 b (fun p q => if q < p then 1 else 0)

/-- Operand b of row `r`: a tensor row, the vector, or SCALAR. -/
def State.operandB (s : State) (c : Rec) (q : QDesc) (n r : Nat) : List Fv :=
  if !(ewiseTakesB (ewiseFunc c.param)) then List.replicate n {}
  else
    match bMode c.param with
    | 2 => List.replicate n (f32 (scalarOf c.param))
    | m =>
      ((s.row c.fw q.wBlk (s.desc c.wPtr) (if m = 0 then r else 0)).zipIdx).map (fun e =>
        e.1.entry (s.secondLevel q.wG q.wGPtr e.2))

/-- Leading positions at which two rows of codes agree (R123). -/
def prefixMatch : List El → List El → Nat
  | a :: l, b :: m => if a.code = b.code then prefixMatch l m + 1 else 0
  | _, _ => 0

/-- EWISE. -/
def State.runEwise (s : State) (c : Rec) (draw : Draw) : Written :=
  let a := s.desc c.aPtr
  let o := s.desc c.oPtr
  let q := s.qdesc c.qPtr
  if ewiseFunc c.param = 0x0B then
    s.runRows c draw o (fun r =>
      [fvOf ((prefixMatch (s.row c.fa 0 a r) (s.row c.fw 0 (s.desc c.wPtr) r) : Nat) : Rat)])
  else
    s.runRows c draw o (fun r =>
      (((s.inputRow c q a r).zip (s.operandB c q a.d0 r)).zipIdx).map (fun x =>
        ewiseOp (ewiseFunc c.param) (draw (r * o.d0 + x.2) 0) x.1.1 x.1.2))

/-! ### NORM (R124) -/

/-- KIND, AFFINE and EPSILON (R124). -/
def normKind (p : Nat) : Nat := field p 63 62
def affine (p : Nat) : Bool := flag p 61
def epsilonOf (p : Nat) : Nat := field p 31 0

/-- The normalised values of a row, within the bounds of R61; where the square root is 0, the centred values are 0
and the saturated reciprocal sets CLIP (R145). -/
def normRow (layer : Bool) (eps : Rat) (w : Nat → Word32) (l : List Fv) : List Fv :=
  let fl := flagsOf l
  if l.any (fun x => x.val.isNone) then l.map (fun _ => fvNan fl)
  else
    let vs := l.map (fun x => x.val.getD 0)
    let n : Rat := (vs.length : Nat)
    let mean := if layer then (sumAbs vs).1 / n else 0
    let var := vs.foldl (fun a x => a + (x - mean) * (x - mean)) 0 / n
    let lg := ceilLog2 vs.length
    if var + eps = 0 then vs.map (fun _ => ⟨some 0, { fl with clip := true }⟩)
    else
      let root := sqrtApprox (var + eps)
      vs.zipIdx.map (fun x =>
        let y := (x.1 - mean) / root
        let bound :=
          if layer then ((2 * lg + 8 : Nat) : Rat) * u32 * (1 + ratAbs y) else ((lg + 6 : Nat) : Rat) * u32 * ratAbs y
        fvWithin fl (w x.2) y bound)

/-- An FP32 vector named by a descriptor. -/
def State.vector (s : State) (ptr n : Nat) : List Fv :=
  if ptr = 0 then List.replicate n (fvOf 0)
  else (s.row .fp32 0 (s.desc ptr) 0).map (·.raw)

/-- NORM; γ and β enter as one multiply-add. -/
def State.runNorm (s : State) (c : Rec) (draw : Draw) : Written :=
  let a := s.desc c.aPtr
  let o := s.desc c.oPtr
  let q := s.qdesc c.qPtr
  let body := joinAll ((List.range o.rows).map (fun r =>
    let y := normRow (normKind c.param == 0) ((f32 (epsilonOf c.param)).val.getD 0) (fun i => draw (r * o.d0 + i) 0)
      (s.inputRow c q a r)
    let z :=
      if affine c.param then
        ((y.zip (s.vector c.wPtr a.d0)).zip (s.vector c.auxPtr a.d0)).map (fun t => t.1.1.fma t.1.2 t.2)
      else y
    s.writeRow c.fo q o r (z.zipIdx.map (fun x => activation c.act {} (draw (r * o.d0 + x.2) 1) x.1))))
  body.join { cells := emitCells q }

/-! ### CVT (R125) -/

/-- CVT. -/
def State.runCvt (s : State) (c : Rec) (draw : Draw) : Written :=
  let a := s.desc c.aPtr
  let q := s.qdesc c.qPtr
  s.runRows c draw (s.desc c.oPtr) (s.inputRow c q a)

/-! ### TOPK (R126, R127) -/

/-- K, THRESHOLD, THR_EN and ASCENDING (R126). -/
def topK (p : Nat) : Nat := field p 12 0 + 1
def threshold (p : Nat) : Nat := field p 63 32
def thrEn (p : Nat) : Bool := flag p 31
def ascending (p : Nat) : Bool := flag p 30

/-- A score with its index. -/
structure Score where
  val : Option Rat
  idx : Nat
deriving DecidableEq, Repr

/-- One score ranks before another: by value, then by lower index; NaN last (R127). -/
def Score.before (asc : Bool) (x y : Score) : Bool :=
  match x.val, y.val with
  | some p, some q => if p = q then decide (x.idx < y.idx) else if asc then decide (p < q) else decide (q < p)
  | some _, none => true
  | none, some _ => false
  | none, none => decide (x.idx < y.idx)

/-- A score put in its place in a ranking. -/
def insertScore (asc : Bool) (x : Score) : List Score → List Score
  | [] => [x]
  | y :: r => if x.before asc y then x :: y :: r else y :: insertScore asc x r

/-- The ranking of a list of scores. -/
def rankScores (asc : Bool) (l : List Score) : List Score := l.foldr (insertScore asc) []

/-- A score enters the ranking (R127). -/
def entersRanking (c : Rec) (x : Score) : Bool :=
  if thrEn c.param then
    match x.val, (f32 (threshold c.param)).val with
    | some p, some t => if ascending c.param then decide (p ≤ t) else decide (t ≤ p)
    | _, _ => false
  else true

/-- TOPK: the values through the output fields, the indices as INT32; missing entries are 0xFFFF_FFFF and +0. -/
def State.runTopk (s : State) (c : Rec) : Written :=
  let a := s.desc c.aPtr
  let o := s.desc c.oPtr
  let x := s.desc c.auxPtr
  let q := s.qdesc c.qPtr
  let k := topK c.param
  let per := a.d1 * a.d2
  let body := joinAll ((List.range a.d3).map (fun b =>
    let scores := (List.range per).flatMap (fun r => s.inputRow c q a (b * per + r))
    let ranked := (rankScores (ascending c.param)
      ((scores.zipIdx.map (fun p => (⟨p.1.val, p.2⟩ : Score))).filter (entersRanking c))).take k
    let fl := flagsOf scores
    let thr := if thrEn c.param then (f32 (threshold c.param)).fl else {}
    let vals := (List.range k).map (fun i =>
      match ranked[i]? with
      | some y => Fv.mk y.val {}
      | none => fvOf 0)
    let idx := (List.range k).map (fun i =>
      match ranked[i]? with
      | some y => y.idx
      | none => 0xFFFFFFFF)
    ((s.writeRow c.fo q o b vals).join { fl := fl.join thr }).join
      { cells := cellsAt (x.rowAddr (pRow .int32 false x.layout x.d0) b) (rowBytesOf .int32 0 x.layout idx []) }))
  body.join { cells := emitCells q }

end Sys2Proof.Machine
end

