-- ==== Sys2Proof/Machine/Issue.lean ====
section
/-! DEFINITION. The checks at issue, in the order of R109, for single records, guarded records and fused chains, and
the declared regions they compare (R31, R32, R75, R108). Each check is a Boolean that says the command fails it. -/

namespace Sys2Proof.Machine

open Sys2Proof

/-! ### Declared regions (R75, R108, R195 to R198, R212) -/

/-- Length in bytes of a second-level scale word or vector. -/
def scaleBytes (mode n : Nat) : Nat := if mode = 1 then 4 else 4 * n

/-- Output channels of a command. -/
def State.outChannels (s : State) (c : Rec) : Nat := (s.desc c.oPtr).d0

/-- The wide tensors of outlier activations and weights (R85). -/
def State.wideRegions (s : State) (c : Rec) : List Region :=
  let q := s.qdesc c.qPtr
  let a := s.desc c.aPtr
  let n := s.outChannels c
  let rows := if c.op = some .mmul then n else n * ((windowOf c.param).kh * (windowOf c.param).kw)
  let l := (s.outlierChannels q.outListPtr a.d0).length
  [{ base := q.outAPtr, len := a.rows * roundUp (2 * l) 64 }, { base := q.outWPtr, len := rows * roundUp (2 * l) 64 }]

/-- Input regions the quantisation descriptor names (R75). -/
def State.qInputs (s : State) (c : Rec) : List Region :=
  let q := s.qdesc c.qPtr
  let a := s.desc c.aPtr
  let n := s.outChannels c
  let slices := fun (k : Nat) => 128 * ceilDiv k 768
  (if q.aG = 0 then [] else [{ base := q.aGPtr, len := scaleBytes q.aG 1 }]) ++
  (if q.wG = 0 then [] else [{ base := q.wGPtr, len := scaleBytes q.wG n }]) ++
  (if q.oG = 0 then [] else [{ base := q.oGinvPtr, len := scaleBytes q.oG n }]) ++
  (if q.oBlk = 0 then [] else [{ base := q.oBlkPtr, len := n / 32 }]) ++
  (if q.outlier then { base := q.outListPtr, len := slices a.d0 } :: s.wideRegions c else []) ++
  (if q.gather then [{ base := q.gatherListPtr, len := slices n }] else [])

/-- Declared input regions of a record (R108). -/
def State.inputsOf (s : State) (c : Rec) : List Region :=
  let p := s.postBlk c.auxPtr
  let d := fun a => if a = 0 then [] else [(s.desc a).region]
  let post := (if c.biasEn then [{ base := p.biasPtr, len := 4 * s.outChannels c }] else []) ++
    (if c.resEn then d p.resPtr else [])
  match c.op with
  | some .mmul | some .conv | some .tconv => d c.aPtr ++ d c.wPtr ++ post ++ s.qInputs c
  | some .pool | some .rsmp | some .cvt => d c.aPtr ++ s.qInputs c
  | some .ewise => d c.aPtr ++ d c.wPtr ++ s.qInputs c
  | some .norm => d c.aPtr ++ d c.wPtr ++ d c.auxPtr ++ s.qInputs c
  | some .topk => d c.aPtr ++ s.qInputs c
  | some .move => d c.aPtr
  | some .attn =>
    let b := s.attnBlk c.wPtr
    d c.aPtr ++ [{ base := b.pageTable, len := 4 * b.nPages }] ++
      (if b.scoreIn = 0 then [] else [{ base := b.scoreIn, len := 128 * b.nPages }]) ++ s.qInputs c
  | some .attb =>
    let a := s.backward c
    d c.aPtr ++ d a.b.kDesc ++ d a.b.vDesc ++ d a.b.oDesc ++ d a.b.doDesc ++
      [{ base := a.b.stats, len := 8 * a.q.rows * a.p.hq }]
  | _ => []

/-- Declared output regions of a record (R108). -/
def State.outputsOf (s : State) (c : Rec) : List Region :=
  let d := fun a => if a = 0 then [] else [(s.desc a).region]
  match c.op with
  | some .topk => d c.oPtr ++ d c.auxPtr
  | some .attn =>
    let a := s.attention c
    d c.oPtr ++ (if a.p.statsEn then [{ base := a.b.stats, len := 8 * a.q.rows * a.p.hq }] else []) ++
      (if a.p.scoreEn then [{ base := a.b.scoreOut, len := 128 * a.b.nPages }] else [])
  | some .attb =>
    let b := s.backBlk c.wPtr
    d c.oPtr ++ d b.dkDesc ++ d b.dvDesc ++ d b.scoreBuf
  | some .cuew | some .cues | some .fence | none => []
  | _ => d c.oPtr

/-- The records, descriptors and blocks a record names; they are not declared regions, but the region descriptors
govern their reads (R314). -/
def State.objectsOf (s : State) (addr : Nat) (c : Rec) : List Region :=
  let o := fun (a n : Nat) => if a = 0 then [] else [({ base := a, len := n } : Region)]
  o addr 64 ++ o c.qPtr 128 ++
  (match c.op with
   | some .attn =>
     let b := s.attnBlk c.wPtr
     o c.aPtr 32 ++ o c.wPtr 64 ++ o c.oPtr 32 ++ o b.kDesc 32 ++ o b.vDesc 32
   | some .attb =>
     let b := s.backBlk c.wPtr
     o c.aPtr 32 ++ o c.wPtr 64 ++ o c.oPtr 32 ++ o b.kDesc 32 ++ o b.vDesc 32 ++ o b.oDesc 32 ++ o b.doDesc 32 ++
       o b.dkDesc 32 ++ o b.dvDesc 32 ++ o b.scoreBuf 32
   | some .norm | some .topk => o c.aPtr 32 ++ o c.wPtr 32 ++ o c.oPtr 32 ++ o c.auxPtr 32
   | _ =>
     o c.aPtr 32 ++ o c.wPtr 32 ++ o c.oPtr 32 ++ o c.auxPtr 64 ++
       (if c.resEn then o (s.postBlk c.auxPtr).resPtr 32 else []))

/-- The bytes of the objects that some records name: the device fetches the whole of each at issue (R100). -/
def State.objectCells (s : State) (cs : List (Nat × Rec)) : List (Nat × Byte) :=
  (cs.flatMap (fun p => s.objectsOf p.1 p.2)).flatMap (fun r => cellsAt r.base (s.readBytes r.base r.len))

/-! ### 0x04 CMD_DESC (R100, R105, R107, R122, R192, R194, R203, R205, R225) -/

/-- A pointer must be present, must be zero, or either. -/
inductive Need where
  | must
  | zero
  | any
deriving DecidableEq, Repr

/-- The pointer breaks its rule. -/
def Need.broken (n : Need) (p : Nat) : Bool :=
  match n with
  | .must => p == 0
  | .zero => p != 0
  | .any => false

/-- The rules of A_PTR, W_PTR, O_PTR, AUX_PTR, QDESC_PTR and WIDE_PTR for a record (R105). -/
def needsOf (c : Rec) : List (Need × Nat) :=
  let wide : Need := if c.guard then .must else .zero
  let free : Need := if c.guard then .any else .zero
  let six := fun (a w o x q v : Need) =>
    [(a, c.aPtr), (w, c.wPtr), (o, c.oPtr), (x, c.auxPtr), (q, c.qPtr), (v, c.widePtr)]
  match c.op with
  | some .mmul | some .conv | some .tconv => six .must .must .must .any .any wide
  | some .pool | some .rsmp | some .cvt => six .must .zero .must .any .any free
  | some .ewise =>
    let f := ewiseFunc c.param
    let w : Need :=
      if !(ewiseKnown f) then .any
      else if !(ewiseTakesB f) then .zero
      else if bMode c.param = 2 then .zero
      else if bMode c.param = 3 then .any
      else .must
    six .must w .must .zero .any free
  | some .norm => six .must .any .must .any .any free
  | some .topk => six .must .zero .must .must .any free
  | some .move =>
    six .must .zero (if c.moveMode = 3 then .zero else .must) (if c.moveMode = 2 then .must else .zero) .zero .zero
  | some .attn => six .must .must .must .zero .any .zero
  | some .attb => six .must .must .must .zero .zero .zero
  | _ => six .zero .zero .zero .zero .zero .zero

/-- The descriptors a record names, with whether ZBM may stand in each (R192). -/
def State.descsOf (s : State) (c : Rec) : List (Desc × Bool) :=
  let d := fun (a : Nat) (z : Bool) => if a = 0 then [] else [(s.desc a, z)]
  let res := if c.resEn && c.auxPtr != 0 then d (s.postBlk c.auxPtr).resPtr false else []
  match c.op with
  | some .mmul | some .conv | some .tconv => d c.aPtr true ++ d c.wPtr false ++ d c.oPtr true ++ res
  | some .pool | some .rsmp | some .cvt | some .ewise => d c.aPtr true ++ d c.wPtr false ++ d c.oPtr true
  | some .norm => d c.aPtr true ++ d c.oPtr true ++ d c.wPtr false ++ d c.auxPtr false
  | some .topk => d c.aPtr false ++ d c.oPtr false ++ d c.auxPtr false
  | some .move => d c.aPtr false ++ d c.oPtr false
  | some .attn =>
    let b := s.attnBlk c.wPtr
    d c.aPtr false ++ d c.oPtr false ++ d b.kDesc false ++ d b.vDesc false
  | some .attb =>
    let b := s.backBlk c.wPtr
    d c.aPtr false ++ d c.oPtr false ++ d b.kDesc false ++ d b.vDesc false ++ d b.oDesc false ++ d b.doDesc false ++
      d b.dkDesc false ++ d b.dvDesc false ++ d b.scoreBuf false
  | _ => []

/-- 0x04 fails. -/
def State.failDesc (s : State) (c : Rec) : Bool :=
  (needsOf c).any (fun p => p.1.broken p.2) ||
  (s.descsOf c).any (fun d => d.1.base % 64 != 0 || decide (2 ≤ d.1.layout) || (d.1.layout == 1 && !d.2)) ||
  (match c.op with
   | some .attn =>
     let b := s.attnBlk c.wPtr
     let p := attnParam c.param
     b.kDesc == 0 || b.vDesc == 0 || b.pageTable == 0 || b.pageTable % 64 != 0 || b.kDesc % 64 != 0 ||
       b.vDesc % 64 != 0 || (b.stats != 0) != p.statsEn || (b.scoreOut != 0) != p.scoreEn ||
       (b.scoreIn != 0 && !p.scoreEn)
   | some .attb =>
     let b := s.backBlk c.wPtr
     [b.kDesc, b.vDesc, b.oDesc, b.doDesc, b.dkDesc, b.dvDesc].any (fun a => a == 0 || a % 64 != 0) ||
       b.scoreBuf % 64 != 0
   | _ => false)

/-! ### 0x05 CMD_FORMAT (R42, R49, R50, R63, R73, R74, R126, R133, R192, R194, R209, R211, R225) -/

/-- Formats first-level scales may accompany (R74). -/
def Fmt.blockOk (f : Fmt) : Bool := f.arrayOk && !f.wide

/-- Formats ZBM may hold (R192). -/
def Fmt.zbmOk (f : Fmt) : Bool := f == .int8 || f.isFp8 || f.wide

/-- The slate conditions of R63 and R133. -/
def failSlate (c : Rec) : Bool :=
  let opnd := fun (f : Fmt) => f == .int4 || f == .int8 || f == .int16
  !(c.op == some .mmul || c.op == some .conv) || !(opnd c.fa) || !(opnd c.fw) ||
  !(c.fo == .int8 || c.fo == .int16 || c.fo == .int32) || c.guard || c.resEn || c.qPtr != 0 || c.fuseIn || c.fuseOut ||
  !(c.act == 0 || c.act == 1 || c.act == 4)

/-- Where an EWISE takes b from (R49, R122): a tensor; no stored operand, where its function takes no b or b is SCALAR; or
undetermined, where FUNC or B_MODE is a reserved value that CMD_POST will name, so that W_FMT is judged by no role. -/
inductive EwiseB where
  | tensor
  | none
  | reserved
deriving DecidableEq, Repr

/-- The operand b of an EWISE. -/
def Rec.ewiseB (c : Rec) : EwiseB :=
  let f := ewiseFunc c.param
  if !(ewiseKnown f) then .reserved
  else if !(ewiseTakesB f) then .none
  else if bMode c.param = 2 then .none
  else if bMode c.param = 3 then .reserved
  else .tensor

/-- The command has a second operand that first-level scales may accompany: weights, or EWISE's tensor b (R74, R76). -/
def Rec.hasW (c : Rec) : Bool :=
  match c.op with
  | some .mmul | some .conv | some .tconv => true
  | some .ewise => c.ewiseB == .tensor
  | _ => false

/-- Format roles by opcode (R49, R50); `wide` says that the record runs as a wide variant (R92). One with BF16 weights over an
unscaled integer activation, which R92 widens to INT16, mixes an integer with a floating-point operand and fails here (DESIGN
CHOICE, log entry 158). -/
def State.failRoles (s : State) (c : Rec) (wide : Bool) : Bool :=
  let fa := c.fa
  let fw := c.fw
  let fo := c.fo
  match c.op with
  | some .mmul | some .conv | some .tconv =>
    let e := (s.gemm c wide).enterFmt
    !fa.arrayOk || !fw.arrayOk || !fo.postOk || e.isInt != fw.isInt
  | some .pool | some .rsmp | some .norm | some .topk | some .cvt => !fa.postOk || !fo.postOk || c.wFmt != 0
  | some .ewise =>
    !fa.postOk || !fo.postOk ||
      (match c.ewiseB with
       | .tensor => !fw.postOk
       | .none => c.wFmt != 0
       | .reserved => false)
  | some .move => c.wFmt != 0 || c.aFmt != c.oFmt || !fo.postOk || (c.moveMode == 3 && fa != .int32)
  | some .attn =>
    let k := fun (f : Fmt) => f.isFp8 || f == .bf16 || f == .fp16
    !(k fa) || !(k fw) || !(k fo || fo == .fp32)
  | some .attb =>
    !(fa == .bf16 || fa == .fp16) || !(fw.isFp8 || fw == .bf16 || fw == .fp16) ||
      !(fo == .bf16 || fo == .fp16 || fo == .fp32)
  | _ => false

/-- What the quantisation descriptor may say for each opcode (R73, R74, R122, R126, R211). NORM's γ is FP32, which no
first-level scales may accompany (R49, R74). -/
def State.failQuant (s : State) (c : Rec) : Bool :=
  let q := s.qdesc c.qPtr
  q.reserved || (q.aBlk != 0 && !c.fa.blockOk) || (q.wBlk != 0 && c.hasW && !c.fw.blockOk) || (q.oBlk != 0 && !c.fo.blockOk) ||
  (match c.op with
   | some .topk => q.wBlk != 0 || q.wG != 0 || q.gather
   | some .norm => q.wBlk != 0 && c.wPtr != 0
   | some .ewise => ewiseTakesB (ewiseFunc c.param) && bMode c.param == 2 && (q.wBlk != 0 || q.wG != 0)
   | some .attn => q.aBlk != 0 || q.wBlk != 0 || q.aG != 0 || decide (2 ≤ q.wG) || q.gather
   | _ => false)

/-- A residual that names no format (R42), or one that may not enter the post unit (R49): RES_FMT is a format field of a
command that adds a residual (log entry 134). -/
def State.failResFmt (s : State) (c : Rec) : Bool :=
  (c.op.map Op.isGemm).getD false && c.resEn && c.auxPtr != 0 && !((fmtOf (s.postBlk c.auxPtr).resFmt).any Fmt.postOk)

/-- 0x05 fails. -/
def State.failFormat (s : State) (c : Rec) (wide : Bool) : Bool :=
  (fmtOf c.aFmt).isNone || (fmtOf c.wFmt).isNone || (fmtOf c.oFmt).isNone || s.failResFmt c ||
  (c.slate && failSlate c) || s.failRoles c wide || s.failQuant c ||
  (c.op != some .move && (s.descsOf c).any (fun d => d.1.layout == 1) &&
    (((s.desc c.aPtr).layout == 1 && !c.fa.zbmOk) || ((s.desc c.oPtr).layout == 1 && !c.fo.zbmOk)))

/-! ### 0x06 CMD_SHAPE (R107, R114, R116 to R126, R192, R195 to R198, R206, R210, R225) -/

/-- A descriptor's dimensions and SPAN fail in a format. -/
def badShape (d : Desc) (f : Fmt) (mode : Nat) : Bool := !(d.shapeOk (pRow f (mode != 0) d.layout d.d0))

/-- ZBM with D0 not a multiple of 64 (R192). -/
def badZbm (d : Desc) : Bool := d.layout == 1 && d.d0 % 64 != 0

/-- The shape conditions of CONV (R118). -/
def failConv (a w o : Desc) (p : Window) : Bool :=
  convOut a.d2 p.padT p.padB p.dh p.kh p.sh != some o.d2 || convOut a.d1 p.padL p.padR p.dw p.kw p.sw != some o.d1 ||
  o.d3 != a.d3 || decide (32768 < a.d0) || p.groups == 0 || a.d0 % p.groups != 0 || o.d0 % p.groups != 0 ||
  w.d0 != a.d0 / p.groups || w.d1 != p.kh * p.kw || w.d2 != o.d0 || w.d3 != 1 ||
  decide (65536 < p.kh * p.kw * (a.d0 / p.groups))

/-- The shape conditions of TCONV (R119). R119 does not repeat R118's limits on C and K, its images and its weight shape; all
bind TCONV too (DESIGN CHOICE, log entry 160). -/
def failTconv (a w o : Desc) (p : Window) : Bool :=
  tconvOut a.d2 p.padT p.padB p.dh p.kh p.sh p.opadH != some o.d2 ||
  tconvOut a.d1 p.padL p.padR p.dw p.kw p.sw p.opadW != some o.d1 || p.padMode != 0 ||
  decide (p.sh ≤ p.opadH) || decide (p.sw ≤ p.opadW) || !(p.groups == 1 || (p.groups == a.d0 && p.groups == o.d0)) ||
  o.d3 != a.d3 || decide (32768 < a.d0) || w.d0 != a.d0 / max 1 p.groups || w.d1 != p.kh * p.kw || w.d2 != o.d0 ||
  w.d3 != 1 || decide (65536 < p.kh * p.kw * (a.d0 / max 1 p.groups))

/-- The shape conditions of POOL (R120). -/
def failPool (a o : Desc) (c : Rec) : Bool :=
  let p := windowOf c.param
  o.d0 != a.d0 || o.d3 != a.d3 ||
  (if 2 ≤ poolKind c.param then o.d1 != 1 || o.d2 != 1 || decide (16777216 < a.d1 * a.d2)
   else
    p.dh != 1 || p.dw != 1 || decide (p.kh ≤ p.padT) || decide (p.kh ≤ p.padB) || decide (p.kw ≤ p.padL) ||
      decide (p.kw ≤ p.padR) || convOut a.d2 p.padT p.padB 1 p.kh p.sh != some o.d2 ||
      convOut a.d1 p.padL p.padR 1 p.kw p.sw != some o.d1)

/-- The shape conditions of RSMP (R121). -/
def failRsmp (a o : Desc) (c : Rec) : Bool :=
  o.d0 != a.d0 || o.d3 != a.d3 || decide (a.d2 > 64 * o.d2) || decide (o.d2 > 64 * a.d2) || decide (a.d1 > 64 * o.d1) ||
  decide (o.d1 > 64 * a.d1) || (rsmpMode c.param == 2 && (decide (a.d2 < o.d2) || decide (a.d1 < o.d1)))

/-- The shape conditions of EWISE (R122, R123); a reserved FUNC has none. -/
def failEwise (a w o : Desc) (c : Rec) : Bool :=
  if ewiseFunc c.param = 0x0B then
    c.fa != .int32 || c.fw != .int32 || c.fo != .int32 || bMode c.param != 0 || c.qPtr != 0 || decide (4096 < a.d0) ||
      !(a.sameDims w) || o.d0 != 1 || o.d1 != a.d1 || o.d2 != a.d2 || o.d3 != a.d3
  else if !(ewiseKnown (ewiseFunc c.param)) then false
  else
    !(o.sameDims a) ||
    (ewiseTakesB (ewiseFunc c.param) && ((bMode c.param == 0 && !(w.sameDims a)) ||
      (bMode c.param == 1 && (w.d0 != a.d0 || w.rows != 1))))

/-- The page arrays and limits of an ATTN (R206, R210). -/
def State.failAttn (s : State) (c : Rec) : Bool :=
  let a := s.attention c
  let m := a.q.rows
  a.k.layout != 0 || a.v.layout != 0 || !(a.k.sameDims a.v) || a.k.d0 != a.p.dh || a.k.d1 != 16 ||
  a.p.hq != a.k.d2 * a.p.group || a.q.d0 != a.p.hq * a.p.dh || decide (1024 < m) || decide (1024 < a.p.group * m) ||
  !(a.o.sameDims a.q) || a.b.nPages == 0 || decide (2048 < a.b.nPages) || decide (1048575 < a.b.qPos0 + m - 1)

/-- The shapes of an ATTB (R225). DESIGN CHOICE (log entry 135): SCORE_BUF_DESC, to which no rule gives a row format or
dimensions, has its alignment, BASE and LAYOUT checked and no shape. -/
def State.failAttb (s : State) (c : Rec) : Bool :=
  let a := s.backward c
  let l := a.q.rows
  let hkv := a.p.hq / a.p.group
  a.p.hq % a.p.group != 0 || decide (4096 < l) || decide (65536 < a.p.group * l) ||
  [a.q, a.o, a.dO, a.dQ].any (fun d => d.rows != l || d.d0 != a.p.hq * a.p.dh) ||
  [a.k, a.v, a.dK, a.dV].any (fun d => d.rows != l || d.d0 != hkv * a.p.dh || d.layout != 0) ||
  badShape a.k c.fw 0 || badShape a.v c.fw 0 || badShape a.o c.fa 0 || badShape a.dO c.fa 0 || badShape a.dK c.fo 0 ||
  badShape a.dV c.fo 0

/-- The shapes of a MOVE (R195 to R198); a reserved MODE has none. DESIGN CHOICE (log entry 105): an atomic list with
odd D0, for which R198 names no error, is CMD_SHAPE. -/
def State.failMove (s : State) (c : Rec) : Bool :=
  let a := s.desc c.aPtr
  let o := s.desc c.oPtr
  match c.moveMode with
  | 3 => a.d0 % 2 != 0
  | 2 =>
    let n := s.objLe c.auxPtr 4
    a.d0 != o.d0 || a.d1 != o.d1 || a.d2 != o.d2 || n == 0 || decide (7 < n) ||
      (List.range n).any (fun k => decide (a.d3 ≤ s.objLe (c.auxPtr + 8 + 8 * k) 4) ||
        decide (o.d3 ≤ s.objLe (c.auxPtr + 12 + 8 * k) 4))
  | 1 => !(a.sameDims o) || decide (o.span < o.extent (pRow c.fo false 0 o.d0) + 64)
  | 0 => !(a.sameDims o)
  | _ => false

/-- 0x06 fails. -/
def State.failShape (s : State) (c : Rec) : Bool :=
  let a := s.desc c.aPtr
  let w := s.desc c.wPtr
  let o := s.desc c.oPtr
  let x := s.desc c.auxPtr
  let q := s.qdesc c.qPtr
  let p := s.postBlk c.auxPtr
  let io := badShape a c.fa q.aBlk || badShape o c.fo q.oBlk || badZbm a || badZbm o
  match c.op with
  | some .mmul | some .conv | some .tconv =>
    io || badShape w c.fw q.wBlk ||
    (c.resEn && c.auxPtr != 0 && p.resPtr != 0 &&
      (badShape (s.desc p.resPtr) ((fmtOf p.resFmt).getD .fp32) 0 || !((s.desc p.resPtr).sameDims o))) ||
    (match c.op with
     | some .mmul =>
       w.d0 != a.d0 || w.d1 != 1 || w.d3 != 1 || o.d0 != w.d2 || o.d1 != a.d1 || o.d2 != a.d2 || o.d3 != a.d3 ||
         decide (65536 < a.d0) || decide (65535 < w.d2)
     | some .conv => failConv a w o (windowOf c.param)
     | _ => failTconv a w o (windowOf c.param))
  | some .pool => io || failPool a o c
  | some .rsmp => io || failRsmp a o c
  | some .ewise => io || (c.ewiseB == .tensor && badShape w c.fw q.wBlk) || failEwise a w o c
  | some .norm => io || !(o.sameDims a) || (c.wPtr != 0 && badShape w .fp32 0) || (c.auxPtr != 0 && badShape x .fp32 0)
  | some .cvt => io || !(o.sameDims a)
  | some .topk =>
    let k := topK c.param
    io || badShape x .int32 0 || decide (16777216 < a.d0 * a.d1 * a.d2) || decide (4096 < k) ||
      decide (a.d0 * a.d1 * a.d2 < k) ||
      [o, x].any (fun d => d.d0 != k || d.d1 != 1 || d.d2 != 1 || d.d3 != a.d3)
  | some .move => badShape a c.fa 0 || (c.moveMode != 3 && badShape o c.fo 0) || s.failMove c
  | some .attn => io || badShape (s.attention c).k c.fw 0 || badShape (s.attention c).v c.fw 0 || s.failAttn c
  | some .attb => io || s.failAttb c
  | _ => false

/-! ### 0x07 CMD_POST (R111 to R115, R117, R120 to R126, R194, R205, R211) -/

/-- Residual formats of R114. -/
def resFmtOk (n : Nat) : Bool := [1, 2, 3, 7, 8, 9, 10, 11].contains n

/-- The post block lacks or misstates a field the options need (R114). -/
def State.failPostBlk (s : State) (c : Rec) : Bool :=
  let p := s.postBlk c.auxPtr
  let needs := c.biasEn || c.resEn || c.act == 3 || c.act == 4 || c.slate
  needs &&
  (c.auxPtr == 0 ||
   (c.biasEn && (p.biasPtr == 0 || p.biasPtr % 64 != 0)) ||
   (c.resEn && (p.resPtr == 0 || p.resPtr % 64 != 0 || !(resFmtOk p.resFmt))) ||
   (c.act == 3 && isNan32 p.slope) ||
   (c.act == 4 && !c.slate && (isNan32 p.clampLo || isNan32 p.clampHi ||
     decide ((f32 p.clampHi).val.getD 0 < (f32 p.clampLo).val.getD 0))) ||
   (c.act == 4 && c.slate && decide (signedOf 32 p.clampHi < signedOf 32 p.clampLo)) ||
   (c.slate && (p.slateM == 0 || decide (47 < p.slateS) || (c.fo.satInt (signedOf 32 p.slateZ)).2)))

/-- PARAM values and options by opcode. -/
def State.failParam (s : State) (c : Rec) : Bool :=
  let noPost := c.biasEn || c.resEn
  match c.op with
  | some .mmul | some .tconv => false
  | some .conv => decide (2 ≤ (windowOf c.param).padMode)
  | some .pool => noPost
  | some .rsmp => noPost || rsmpMode c.param == 3
  | some .cvt => noPost
  | some .ewise =>
    noPost || c.act == 3 || c.act == 4 || !(ewiseKnown (ewiseFunc c.param)) || bMode c.param == 3 ||
      (!(ewiseTakesB (ewiseFunc c.param)) && bMode c.param != 0)
  | some .norm =>
    let n := (s.desc c.aPtr).d0
    noPost || c.act == 3 || c.act == 4 || decide (2 ≤ normKind c.param) || decide (65536 < n) ||
      !(finite32 (epsilonOf c.param)) || decide ((f32 (epsilonOf c.param)).val.getD 0 < 0) ||
      (if affine c.param then c.wPtr == 0 || (s.desc c.wPtr).d0 != n || (s.desc c.wPtr).rows != 1 ||
        (c.auxPtr != 0 && ((s.desc c.auxPtr).d0 != n || (s.desc c.auxPtr).rows != 1))
       else c.wPtr != 0 || c.auxPtr != 0)
  | some .topk => noPost || c.act != 0 || (thrEn c.param && isNan32 (threshold c.param))
  | some .move => c.postOpt != 0 || decide (4 ≤ c.moveMode) || (c.moveMode != 1 && c.param % 2 ^ 32 != 0)
  | some .attn =>
    let a := s.attention c
    noPost || c.act != 0 || a.p.mask == 3 || (a.p.mask == 2) != (a.p.window != 0) || !(finite32 a.b.scale) ||
      decide ((f32 a.b.scale).val.getD 0 ≤ 0) || isNan32 a.b.decay || decide ((f32 a.b.decay).val.getD 0 < 0) ||
      decide (1 < (f32 a.b.decay).val.getD 0)
  | some .attb =>
    let p := attnParam c.param
    noPost || c.act != 0 || p.mask == 3 || (p.mask == 2) != (p.window != 0)
  | _ => noPost || c.act != 0

/-- 0x07 fails. -/
def State.failPost (s : State) (c : Rec) : Bool := decide (0xA ≤ c.act) || s.failPostBlk c || s.failParam c

/-! ### 0x08 CMD_SCALE_LAYOUT (R73, R75, R76, R192) and 0x09 CMD_OUTLIER (R83) -/

/-- 0x08 fails; `outs` are the declared output regions of the command the record belongs to, flow regions excluded (R75,
R135, R137). -/
def State.failScale (s : State) (outs : List Region) (c : Rec) : Bool :=
  let q := s.qdesc c.qPtr
  let a := s.desc c.aPtr
  let w := s.desc c.wPtr
  let o := s.desc c.oPtr
  let word := fun (m p : Nat) => m != 0 && (if m = 1 then p % 4 != 0 else p % 64 != 0)
  let l := if q.gather then (s.outlierChannels q.gatherListPtr o.d0).length else 0
  c.qPtr != 0 &&
  (word q.aG q.aGPtr || word q.wG q.wGPtr || word q.oG q.oGinvPtr || (q.oBlk != 0 && q.oBlkPtr % 64 != 0) ||
   (q.outlier && (q.outListPtr % 64 != 0 || q.outAPtr % 64 != 0 || q.outWPtr % 64 != 0)) ||
   (q.gather && (q.gatherListPtr % 64 != 0 || q.gatherOutPtr % 64 != 0 ||
     !(outs.any (inside { base := q.gatherOutPtr, len := o.rows * roundUp (2 * l) 64 })))) ||
   (q.emit && (q.emitPtr % 4 != 0 || !(outs.any (inside { base := q.emitPtr, len := 4 })))) ||
   (q.aBlk != 0 && (a.d0 % 32 != 0 || a.layout == 1)) || (q.wBlk != 0 && c.hasW && w.d0 % 32 != 0) ||
   (q.oBlk != 0 && (o.d0 % 32 != 0 || o.layout == 1)))

/-- 0x09 fails. -/
def State.failOutlier (s : State) (c : Rec) : Bool :=
  (s.qdesc c.qPtr).outlier &&
  (!(c.op == some .mmul || c.op == some .conv || c.op == some .tconv) ||
   (c.op != some .mmul && (windowOf c.param).groups != 1) || laneOf c.fa c.fw == .quarter)

/-! ### 0x0B CMD_CUE_ABSENT, 0x0C CMD_CUE (R5, R129 to R132, R334) -/

/-- The half a cue is homed in. -/
def cueHome (cue : Nat) : Half := if cue < 16384 then .a else .b

/-- The cues a record names in a cue field. -/
def namedCues (c : Rec) : List Nat :=
  (if c.cueInAmt != 0 || c.op == some .cuew then [c.cueIn] else []) ++
  (if c.amt0 != 0 then [c.cue0] else []) ++ (if c.amt1 != 0 then [c.cue1] else [])

/-- The cue of a number, in its home half (R349). -/
def State.cue (s : State) (cue : Nat) : Cue := tget {} (s.half (cueHome cue)).disp.cues (cue % 16384)

/-- ACQUIRE and VALUE of a CUEW (R129). -/
def Rec.acquire (c : Rec) : Bool := flag c.param 32
def Rec.waitValue (c : Rec) : Nat := c.param % 2 ^ 32

/-- 0x0C fails. -/
def State.failCue (s : State) (c : Rec) : Bool :=
  (match c.op with
   | some .cuew => if c.acquire then c.cueInAmt == 0 || c.waitValue != 0 else c.cueInAmt != 0
   | some .cues => c.param != 0 || c.cueInAmt != 0 || (c.amt0 == 0 && c.amt1 == 0)
   | some .fence => c.param != 0 || c.cueIn != 0 || c.cueInAmt != 0 || c.cue0 != 0 || c.amt0 != 0 || c.cue1 != 0 ||
     c.amt1 != 0
   | _ => false) ||
  (namedCues c).any (fun k => !(flag (s.cue k).users c.part))

/-! ### 0x0D CMD_FUSE (R134 to R136) -/

/-- Opcodes a chain may hold (R136). -/
def Op.fusable : Op → Bool
  | .mmul | .conv | .tconv | .pool | .rsmp | .ewise | .norm | .cvt => true
  | _ => false

/-- The records of the chain that starts at record `idx` of a queue, at most `n`. -/
def State.chainFrom (s : State) (ptr len : Nat) : Nat → Nat → List (Nat × Rec)
  | 0, _ => []
  | n + 1, idx =>
    if len ≤ idx then []
    else
      let a := ptr + 64 * idx
      let c := parseRec (s.record a)
      (a, c) :: (if c.fuseOut then State.chainFrom s ptr len n (idx + 1) else [])

/-- The links of a chain: each record with its consumer. -/
def links (l : List Rec) : List (Rec × Rec) := l.zip (l.drop 1)

/-- 0x0D fails, for a chain of one or more records; declared regions of the whole chain are compared with each flow
region. Only its producer's O_PTR and its consumer's A_PTR, the first of their declared regions, may name a flow region:
a consumer that names it again as b or as a residual breaks R135. -/
def State.failFuse (s : State) (h : Half) (ctx : Nat) (cs : List Rec) : Bool :=
  match cs with
  | [] => false
  | first :: rest =>
    let last := (first :: rest).getLastD first
    let flows := (links cs).map (fun p => (s.desc p.1.oPtr).region)
    first.fuseIn || last.fuseOut || rest.any (fun c => !c.fuseIn) ||
    (!rest.isEmpty &&
     (cs.any (fun c => !((c.op.map Op.fusable).getD false) || c.part != first.part || c.slate) ||
      rest.any (fun c => c.cueInAmt != 0) ||
      cs.dropLast.any (fun c => c.amt0 != 0 || c.amt1 != 0 || (s.qdesc c.qPtr).emit) ||
      (links cs).any (fun p => p.1.oPtr != p.2.aPtr || p.1.oFmt != p.2.aFmt) ||
      flows.any (fun f => s.targetOf f != .bankPool h || !(s.ownsRange h ctx f)) ||
      flows.zipIdx.any (fun f =>
        anyOverlap [f.1] ((flows.zipIdx.filter (fun g => g.2 != f.2)).map (·.1)) ||
        anyOverlap [f.1] (cs.zipIdx.flatMap (fun c =>
          (if c.2 = f.2 + 1 then (s.inputsOf c.1).drop 1 else s.inputsOf c.1) ++
          (if c.2 = f.2 then (s.outputsOf c.1).drop 1 else s.outputsOf c.1))))))

/-! ### 0x0F CMD_REGION, 0x10 CMD_ALIAS, 0x11 CMD_DARK_INPUT (R31, R32, R195, R196, R212, R288, R314) -/

/-- A declared output region is permitted: the half's own HBM or bank pool under the region descriptors, or, for a
MOVE (R195 to R197, R288), the partner half's bank pool. -/
def State.outputOk (s : State) (h : Half) (ctx : Nat) (c : Rec) (r : Region) : Bool :=
  let own := s.ownAdmits h (.job ctx) (s.jobSecure h ctx) true r
  if c.op = some .move then
    let far := s.targetOf r == .bankPool (otherHalf h)
    if c.moveMode = 1 then far else own || far
  else own

/-- 0x0F fails for one record at an address. -/
def State.failRegion (s : State) (h : Half) (ctx addr : Nat) (c : Rec) : Bool :=
  let read := fun r => s.ownAdmits h (.job ctx) (s.jobSecure h ctx) false r
  (s.objectsOf addr c).any (fun r => !(read r)) ||
  (s.inputsOf c).any (fun r => !(read r)) ||
  (s.outputsOf c).any (fun r => !(s.outputOk h ctx c r)) ||
  (match c.op with
   | some .attn => !(read (s.attention c).k.region) || !(read (s.attention c).v.region)
   | _ => false)

/-- Declared inputs and outputs of a chain, flow regions left out (R137). -/
def State.chainInputs (s : State) (cs : List Rec) : List Region :=
  let flows := (links cs).map (fun p => (s.desc p.1.oPtr).region)
  (cs.flatMap s.inputsOf).filter (fun r => !(flows.contains r))
def State.chainOutputs (s : State) (cs : List Rec) : List Region :=
  let flows := (links cs).map (fun p => (s.desc p.1.oPtr).region)
  (cs.flatMap s.outputsOf).filter (fun r => !(flows.contains r))

/-! ### 0x0E CMD_WIDE (R90, R91) and the order of the checks (R109) -/

/-- Checks 0x01 to 0x0C of one record of a command with declared outputs `outs`, each with its code (R109). -/
def State.recordChecks (s : State) (ctx : Nat) (outs : List Region) (c : Rec) (wide : Bool) : List (Nat × Bool) :=
  [(0x01, c.op.isNone), (0x02, c.part != ctx / 32), (0x03, c.costCount == 0), (0x04, s.failDesc c),
   (0x05, s.failFormat c wide), (0x06, s.failShape c), (0x07, s.failPost c), (0x08, s.failScale outs c),
   (0x09, s.failOutlier c), (0x0A, c.checked && !((c.op.map Op.isArray).getD false)),
   (0x0B, !s.twoHalves && (namedCues c).any (fun k => decide (16384 ≤ k))), (0x0C, s.failCue c)]

/-- The code of the first failing check; none where all pass. -/
def firstFail : List (Nat × Bool) → Option Nat
  | [] => none
  | (k, b) :: r => if b then some k else firstFail r

/-- The checks from 0x0F on. -/
def State.regionChecks (s : State) (h : Half) (ctx : Nat) (cs : List (Nat × Rec)) : List (Nat × Bool) :=
  let rs := cs.map (·.2)
  let ins := s.chainInputs rs
  [(0x0F, cs.any (fun p => s.failRegion h ctx p.1 p.2)), (0x10, anyOverlap ins (s.chainOutputs rs)),
   (0x11, anyOverlap ins (s.darkOutputs h ctx))]

/-- PARAM of MMUL, CONV or TCONV without its reserved bits (R101, R116, R117). -/
def Rec.paramKey (c : Rec) : Nat :=
  match c.op with
  | some .mmul => 0
  | some .conv => c.param / 2 ^ 8
  | _ => c.param

/-- What R90 requires to be identical differs, or a requirement on the wide variant is broken. Reserved bits and ignored
pitches do not count (R101, R106), and the table names no slope and no clamp bounds. -/
def State.wideDiffers (s : State) (g w : Rec) : Bool :=
  let q := s.qdesc g.qPtr
  let v := s.qdesc w.qPtr
  let a := s.desc g.aPtr
  let b := s.desc w.aPtr
  let p := s.postBlk g.auxPtr
  let r := s.postBlk w.auxPtr
  let post := fun (x : PostBlk) =>
    (if g.biasEn then x.biasPtr else 0,
     if g.resEn then ((s.desc x.resPtr).norm, x.resFmt, x.resScale) else ((s.desc 0).norm, 0, 0))
  g.opcode != w.opcode || g.paramKey != w.paramKey || g.postOpt / 2 ^ 17 != w.postOpt / 2 ^ 17 || a.norm != b.norm ||
  g.aFmt != w.aFmt ||
  q.aBlk != v.aBlk || q.aG != v.aG || (q.aG != 0 && s.readLe q.aGPtr 4 != s.readLe v.aGPtr 4) || post p != post r ||
  (s.desc g.oPtr).norm != (s.desc w.oPtr).norm || g.oFmt != w.oFmt || q.oBlk != v.oBlk ||
  g.cueIn != w.cueIn || g.cueInAmt != w.cueInAmt || g.cue0 != w.cue0 || g.amt0 != w.amt0 || g.cue1 != w.cue1 ||
  g.amt1 != w.amt1 || g.part != w.part || g.checked != w.checked ||
  !(w.fw == .bf16 || (w.fw == .int16 && g.fa.isInt && q.aBlk == 0)) || v.wBlk != 0 || v.outlier || v.gather || w.guard ||
  w.widePtr != 0 || w.slate || w.fuseIn || w.fuseOut

/-- The code of the wide variant's own first failing check (R90), in the order of R109; 0 where it passes. -/
def State.wideCode (s : State) (h : Half) (ctx addr : Nat) (w : Rec) : Nat :=
  (firstFail (s.recordChecks ctx (s.outputsOf w) w true ++ (0x0D, s.failFuse h ctx [w]) ::
    s.regionChecks h ctx [(addr, w)])).getD 0

/-- 0x0E fails for a record (R90, R91). No field of a record splits a command across the two halves: one is taken as split
where its regions lie in the partner half, which its wide variant's region check refuses (DESIGN CHOICE, log entry 159). -/
def State.failWide (s : State) (h : Half) (ctx : Nat) (chained : Bool) (c : Rec) : Bool :=
  c.guard &&
  (!((c.op.map Op.isGemm).getD false) || chained || c.fuseIn || c.fuseOut ||
   (let w := parseRec (s.record c.widePtr)
    s.wideDiffers c w || s.wideCode h ctx c.widePtr w != 0))

/-- The checks of a chain of one or more records, merged code by code in the order of R109. A guarded record in a
chain is CMD_WIDE, after any breach that is CMD_FUSE (R136). -/
def State.issueChecks (s : State) (h : Half) (ctx : Nat) (cs : List (Nat × Rec)) (wide : Bool) : List (Nat × Bool) :=
  let rs := cs.map (·.2)
  let each := rs.map (fun c => s.recordChecks ctx (s.chainOutputs rs) c wide)
  let early := (List.range 12).map (fun i => (i + 1, each.any (fun l => (l.getD i (0, false)).2)))
  early ++ [(0x0D, s.failFuse h ctx rs), (0x0E, rs.any (s.failWide h ctx (decide (1 < cs.length))))] ++
    s.regionChecks h ctx cs

/-- The first failing check of the record or chain at the head of a job's queue (R109, R134). -/
def State.issueFail (s : State) (h : Half) (ctx : Nat) (cs : List (Nat × Rec)) (wide : Bool) : Option Nat :=
  firstFail (s.issueChecks h ctx cs wide)

end Sys2Proof.Machine
end

