-- ==== Sys2Proof/Machine/Cues.lean ====
section
/-! DEFINITION. Cues: signals, waits and acquisitions, the order in which waiters are served, escrow, and the messages
that carry operations on cues homed in the partner half (R34, R35, R306, R330, R335 to R337). -/

namespace Sys2Proof.Machine

open Sys2Proof

/-- Change a cue. -/
def State.modCue (s : State) (cue : Nat) (f : Cue → Cue) : State :=
  s.modDisp (cueHome cue) (fun d => { d with cues := tmod {} d.cues (cue % 16384) f })

/-- The link of a half is up (CTR_STAT.LINK_STATE, R316). -/
def State.linkUp (s : State) (h : Half) : Bool := s.twoHalves && (s.half h).link.state == 1

/-- Send a control message from a half to its partner (R306); none is sent while the link is not up. -/
def State.send (s : State) (h : Half) (m : CtrMessage) : State :=
  if s.linkUp h then s.modLink h (fun l => { l with outbox := l.outbox ++ [m] }) else s

/-- Both ends of the link are up and the sender is not fenced (R374). -/
def State.carries (s : State) (sender : Half) : Bool :=
  s.linkUp .a && s.linkUp .b && !(s.half sender).isl.fenced

/-- A flit of a sender is acknowledged: its end notes the instant (R309). -/
def State.ackFlit (s : State) (sender : Half) : State := s.modLink sender (fun l => { l with ackAt := s.now })

/-- The oldest control message of half `h`'s partner, where a control flit can bring it now: the link carries it, no flit
before it awaits a replay (R305), and the present control flit, one in every 64 flits of 62.5 ps, has room among its seven
messages (R303). -/
def State.nextMessage (s : State) (h : Half) : Option CtrMessage :=
  let l := (s.half h).link
  if s.carries (otherHalf h) && !l.naked && !(l.control.1 == s.now / 4 && decide (7 ≤ l.control.2)) then
    (s.half (otherHalf h)).link.outbox.head?
  else none

/-- The message is delivered; its control flit acknowledges half `h`'s own flits (R303, R309). -/
def State.dropMessage (s : State) (h : Half) : State :=
  ((s.modLink (otherHalf h) (fun l => { l with outbox := l.outbox.drop 1 })).modLink h (fun l =>
    { l with control := (s.now / 4, (if l.control.1 = s.now / 4 then l.control.2 else 0) + 1) })).ackFlit h

/-- The cue condition of a job's parked command is met (R330): an acquisition goes into escrow (R34), a wait is
recorded as satisfied (R35), and the watchdog runs from now. -/
def Job.resume (now cue amount : Nat) (acquired : Bool) (j : Job) : Job :=
  match j.exec with
  | some e =>
    if e.phase = .parked then
      { j with
        satisfied := j.satisfied || !acquired
        exec := some { e with
          phase := .resumable, startedAt := now
          escrow := if acquired then e.escrow ++ [(cue, amount)] else e.escrow } }
    else j
  | none => j

/-- A waiter of a cue is served: a local one resumes, a remote one is answered over Contrail (R337). -/
def State.serve (s : State) (cue : Nat) (w : Waiter) : State :=
  if w.half = cueHome cue then s.modJob w.half w.ctx (Job.resume s.now cue w.amount w.acquire)
  else s.send (cueHome cue) (.granted w.ctx cue (if w.acquire then w.amount else 0))

/-- Several waiters are served, in order. -/
def State.serveAll (s : State) (cue : Nat) : List Waiter → State
  | [] => s
  | w :: r => State.serveAll (s.serve cue w) cue r

/-- Step 2 of R336 over acquisitions ordered by partition, then arrival: those granted and the counter left. A
partition whose waiter could not be granted gets no further grant. -/
def grants : Nat → List Nat → List Waiter → List Waiter × Nat
  | counter, _, [] => ([], counter)
  | counter, blocked, w :: r =>
    if blocked.contains (w.ctx / 32) || decide (counter < w.amount) then grants counter (w.ctx / 32 :: blocked) r
    else
      let x := grants (counter - w.amount) blocked r
      (w :: x.1, x.2)

/-- Waiting acquisitions in ascending partition, then order of arrival. -/
def byPartition (l : List Waiter) : List Waiter :=
  (List.range 8).flatMap (fun p => l.filter (fun w => w.acquire && w.ctx / 32 == p))

/-- Re-evaluate the waiters of a cue after its counter rose (R336). -/
def State.evalCue (s : State) (cue : Nat) : State :=
  let c := s.cue cue
  let waits := c.waiters.filter (fun w => !w.acquire && decide (w.amount ≤ c.counter))
  let g := grants c.counter [] (byPartition c.waiters)
  (s.modCue cue (fun c =>
    { c with
      counter := g.2
      waiters := c.waiters.filter (fun w => !(waits.contains w) && !(g.1.contains w)) })).serveAll cue (waits ++ g.1)

/-- Add an amount to a cue homed in any half, as a signal does, and evaluate its waiters; the counter stops at
0xFFFF_FFFF (R335). -/
def State.raiseCue (s : State) (cue amount : Nat) : State :=
  (s.modCue cue (fun c => { c with counter := satAdd 0xFFFFFFFF c.counter amount })).evalCue cue

/-- A signal (R335): as `raiseCue`, and a sum above 0xFFFF_FFFF logs CUE_SATURATED (0x2B) in the home half,
with the SESSION bits of the command whose print signals (R222). -/
def State.signalCue (s : State) (ctx tag session cue amount : Nat) : State :=
  let s1 := if decide (0xFFFFFFFF < (s.cue cue).counter + amount) then
      s.log (cueHome cue) { code := 0x2B, ctx := ctx, tag := tag, detail := session + cue }
    else s
  s1.raiseCue cue amount

/-- A new operation on a cue in its home half (R335, R336): whether it is met at once, and the state after it. -/
def State.askCue (s : State) (w : Waiter) (cue : Nat) : Bool × State :=
  let c := s.cue cue
  if w.acquire then
    if decide (w.amount ≤ c.counter) && !(c.waiters.any (fun x => x.acquire && x.ctx / 32 == w.ctx / 32)) then
      (true, s.modCue cue (fun c => { c with counter := c.counter - w.amount }))
    else (false, s.modCue cue (fun c => { c with waiters := c.waiters ++ [w] }))
  else if w.amount ≤ c.counter then (true, s)
  else (false, s.modCue cue (fun c => { c with waiters := c.waiters ++ [w] }))

/-- A job's operations leave the queues of every cue homed in a half. -/
def State.dropWaiters (s : State) (home h : Half) (ctx : Nat) : State :=
  s.modDisp home (fun d =>
    { d with cues := d.cues.map (fun p =>
        (p.1, { p.2 with waiters := p.2.waiters.filter (fun w => !(w.half == h && w.ctx == ctx)) })) })

/-- Amounts of an escrow list homed in the half `home` go back to their cues (R34). -/
def State.returnEscrow (s : State) (home : Half) : List (Nat × Nat) → State
  | [] => s
  | (cue, a) :: r =>
    State.returnEscrow (if cueHome cue = home then s.raiseCue cue a else s) home r

end Sys2Proof.Machine
end

