-- ==== Sys2Proof/Machine/Walks.lean ====
section
/-! DEFINITION. The lines a thread requests: the six loops of its descriptor (R161, R162), the loops the issue stage
derives from an operand descriptor and its split of long dimensions, the lines of a window thread (R166), and how a
stream's lines are divided among its threads. -/

namespace Sys2Proof.Machine

open Sys2Proof

/-! ### The procedure of R162 -/

/-- One loop: how often it runs and its stride in lines. -/
abbrev Loop : Type := Nat × Int

/-- The loop 32 bits of a descriptor encode: COUNT_M1 in 31:20, STRIDE in 19:0 (R161). -/
def loopOf (w : Nat) : Loop := (field w 31 20 + 1, signedOf 20 w)

/-- The 32 bits of a loop. -/
def loopWord (l : Loop) : Nat := (l.1 - 1) % 4096 * 2 ^ 20 + unsignedOf 20 l.2

/-- The line of request `g` of nested loops, innermost first (R162). -/
def walkLine : List Loop → Int → Nat → Int
  | [], base, _ => base
  | (n, stride) :: r, base, g => walkLine r (base + (g % n : Nat) * stride) (g / n)

/-- The requests nested loops make. -/
def walkCount (l : List Loop) : Nat := l.foldl (fun k x => k * x.1) 1

/-- The six loops of a thread's descriptor, innermost first (R161). -/
def Thread.loops (t : Thread) : List Loop :=
  [t.desc1, t.desc2, t.desc3].flatMap (fun w => [loopOf (field w.toNat 31 0), loopOf (field w.toNat 63 32)])

/-- BASE_LINE (R161). -/
def Thread.baseLine (t : Thread) : Nat := field t.desc0.toNat 33 0

/-! ### The loops of an operand (R106, R107, R162) -/

/-- A stride fits STRIDE. -/
def strideOk (s : Int) : Bool := decide (-524288 ≤ s) && decide (s ≤ 524287)

/-- One dimension of `n` indices as loops from a start (R162): one loop; a dimension of more than 4,096 indices split
across two loops where it has a divisor that allows it; else one thread for each index, which also serves a pitch beyond
the stride's range. -/
def splitDim (l : Loop) : List (Int × List Loop) :=
  if l.1 ≤ 4096 ∧ (l.1 ≤ 1 ∨ strideOk l.2 = true) then [(0, [l])]
  else
    match (if strideOk l.2 then
        (List.range 4097).reverse.find? (fun a => decide (0 < a) && l.1 % a == 0 && decide (l.1 / a ≤ 4096) &&
          strideOk (l.2 * a)) else none) with
    | some a => [(0, [(a, l.2), (l.1 / a, l.2 * a)])]
    | none => (List.range l.1).map (fun (i : Nat) => (l.2 * (i : Int), []))

/-- Nested dimensions, innermost first, as starts and loops. -/
def splitDims : List Loop → List (Int × List Loop)
  | [] => [(0, [])]
  | l :: r => (splitDim l).flatMap (fun x => (splitDims r).map (fun y => (x.1 + y.1, x.2 ++ y.2)))

/-- The lines of one D0 × D1 block of a descriptor. -/
def Desc.blockLines (d : Desc) (prow : Nat) : Nat := ceilDiv (d.base % 64 + d.d1 * prow) 64

/-- The dimensions a thread walks over a tensor: the lines of a D0 × D1 block, LINE_PITCH and IMAGE_PITCH (R106). -/
def Desc.dims (d : Desc) (prow : Nat) : List Loop :=
  (d.blockLines prow, 1) :: ((if 1 < d.d2 then [(d.d2, (d.linePitch : Int))] else []) ++
    (if 1 < d.d3 then [(d.d3, (d.imagePitch : Int))] else []))

/-! ### Streams and their division among threads (R167; log entry 112) -/

/-- One stream of a command: its KIND, SIDE and PORT codes (R160, R161; log entry 138), the range that gives its path, the
walk over its lines by first line and dimensions or the lines one by one where no walk has them, whether the next stream is
the other side of its pair, whether it takes a single thread (R167), whether its lines are known only once ZBM rows are packed
(R193), and the record of a chain it belongs to. -/
structure Stm where
  kind : Nat
  write : Bool
  port : Nat
  region : Region
  base : Nat
  dims : List Loop
  listed : Option (List Nat) := none
  paired : Bool := false
  single : Bool := false
  packed : Bool := false
  chainIx : Nat := 0
deriving DecidableEq, Repr

/-- What one thread is given: the codes, its first line and loops or its lines one by one, its requests, its share of a window's positions, its
record, its range, whether its lines are known only once ZBM rows are packed, and the other side of its pair by place in the
plan. -/
structure Plan where
  kind : Nat
  write : Bool
  port : Nat
  base : Nat
  loops : List Loop
  lines : Option (List Nat) := none
  total : Nat
  share : Nat × Nat := (0, 1)
  chainIx : Nat := 0
  region : Region
  packed : Bool := false
  other : Option Nat := none
deriving DecidableEq, Repr

/-- Thread `j` of the `n` that share a walk: every `n`-th line of the innermost dimension, from line `j` (log entry 112).
A thread for which no line is left makes no request. -/
def dealt (p : Nat × List Loop) (n j : Nat) : List (Nat × List Loop × Nat) :=
  match p.2 with
  | [] => [(p.1, [], 1)]
  | (k, stride) :: r =>
    if k ≤ j then [(p.1, [], 0)]
    else
      (splitDims ((ceilDiv (k - j) n, stride * n) :: r)).map (fun x =>
        (((p.1 : Int) + stride * j + x.1).toNat, x.2, walkCount x.2))

/-- The walks of the `n` threads of a stream. -/
def Stm.dealAll (x : Stm) (n : Nat) : List (Nat × List Loop × Nat) := (List.range n).flatMap (dealt (x.base, x.dims) n)

/-- The lines of a stream that no window shifts. -/
def Stm.lines (x : Stm) : List Nat :=
  x.listed.getD ((List.range (walkCount x.dims)).map (fun g => (walkLine x.dims x.base g).toNat))

/-! ### Rows and tiles (R98, R149, R166, R190, R232) -/

/-- Adjacent repetitions dropped. -/
def dedupAdjacent : List Nat → List Nat
  | a :: b :: r => if a = b then dedupAdjacent (b :: r) else a :: dedupAdjacent (b :: r)
  | l => l

/-- The bytes of `n` blocks of a ZBM row from an address, as they stand (R190). -/
def State.zbmBytes (s : State) (f : Fmt) : Nat → Nat → Nat
  | 0, _ => 0
  | n + 1, a =>
    let k := 8 + f.bits / 8 * (maskBits (s.readLe a 8) 64).length
    k + State.zbmBytes s f n (a + k)

/-- Where `n` elements of an input row stand, as first and last byte offset: in packed positions (R48), in whole blocks with
their scale bytes (R76), or in a ZBM row's blocks as they stand, for what ZBM leaves out is not moved (R190, R193). -/
def State.rowSpan (s : State) (f : Fmt) (blk : Bool) (d : Desc) (a e0 n : Nat) : Nat × Nat :=
  let last := min (e0 + n) d.d0
  if d.layout = 1 then (s.zbmBytes f (e0 / 64) a, s.zbmBytes f (ceilDiv last 64) a)
  else if blk then (e0 / 32 * blockBytes f, ceilDiv last 32 * blockBytes f)
  else (e0 * f.bits / 8, f.rowBytes last)

/-- The lines that `n` elements of an input row move, from element `e0`. -/
def State.pieceLines (s : State) (f : Fmt) (blk : Bool) (d : Desc) (r e0 n : Nat) : List Nat :=
  let a := d.rowAddr (pRow f blk d.layout d.d0) r
  let b := s.rowSpan f blk d a e0 n
  if b.2 ≤ b.1 then [] else (List.range ((a + b.2 - 1) / 64 - (a + b.1) / 64 + 1)).map (fun i => (a + b.1) / 64 + i)

/-- The lines an input row moves. -/
def State.rowLines (s : State) (f : Fmt) (blk : Bool) (d : Desc) (r : Nat) : List Nat := s.pieceLines f blk d r 0 d.d0

/-- One pass of an array command over one K tile (R98): the first column of its N tile, the rows of its M block, and the
pieces of its K tile by tap number, first channel within the group and channels. -/
structure Pass where
  lo : Nat
  rows : List Nat
  pieces : List (Nat × Nat × Nat)
deriving DecidableEq, Repr

/-- The passes of a command, K tile by K tile; the device's order of K tiles is taken ascending (DESIGN CHOICE, log
entry 154). -/
def Gemm.tilePasses (g : Gemm) : List Pass :=
  g.passes.flatMap (fun p =>
    let taps := (g.taps (p.2.headD 0)).map (·.1)
    (g.kTiles taps.length).map (fun t => { lo := p.1, rows := p.2, pieces := t.map (fun x => (taps.getD x.1 0, x.2)) }))

/-- The passes that load a weight tile: those whose tile differs from the one last loaded (R98, R149). -/
def loadingPasses : Option (Nat × List (Nat × Nat × Nat)) → List Pass → List Pass
  | _, [] => []
  | last, p :: r =>
    if last = some (p.lo, p.pieces) then loadingPasses last r else p :: loadingPasses (some (p.lo, p.pieces)) r

/-- The lines of the stored weights of a pass's tile, column by column (R118, R149, R233). -/
def State.tileLines (s : State) (g : Gemm) (p : Pass) : List Nat :=
  dedupAdjacent ((List.range (min g.nWidth (g.o.d0 - p.lo))).flatMap (fun i => p.pieces.flatMap (fun x =>
    s.pieceLines g.c.fw (g.q.wBlk != 0) g.w ((p.lo + i) * (g.win.kh * g.win.kw) + x.1) x.2.1 (min x.2.2 (g.cg - x.2.1)))))

/-- The lines of the activations that one row of a pass streams, tap by tap: of the channels of its K tile, over all groups of
the tile's set (R151, R232). A position outside the image makes no request, whatever PAD_MODE then supplies (R166). -/
def State.streamedLines (s : State) (g : Gemm) (p : Pass) (r : Nat) : List Nat :=
  let inImage := ({ g with win := { g.win with padMode := 0 } } : Gemm).taps r
  let c0 := p.lo / g.ng * g.cg
  p.pieces.flatMap (fun x =>
    let n := if g.cg ≤ x.2.2 then g.tiling.groups * g.cg else min x.2.2 (g.cg - x.2.1)
    match (inImage.find? (fun t => t.1 == x.1)).bind (·.2) with
    | some row => s.pieceLines g.c.fa (g.q.aBlk != 0) g.a row (c0 + x.2.1) n
    | none => [])

/-! ### Window threads (R166) -/

/-- What each output position of a window command requests, in the order it streams them: pass by pass for a CONV or TCONV
(R98, R235), once for a POOL. A line that holds rows for several taps is requested once for each. -/
def State.windowSteps (s : State) (c : Rec) : List (List Nat) :=
  if c.op = some .pool then
    (List.range (s.desc c.oPtr).rows).map (fun r =>
      (poolRows c (s.desc c.aPtr) (s.desc c.oPtr) r).flatMap (s.rowLines c.fa ((s.qdesc c.qPtr).aBlk != 0) (s.desc c.aPtr)))
  else
    let g := s.gemm c false
    g.tilePasses.flatMap (fun p => p.rows.map (s.streamedLines g p))

/-- The lines thread `j` of the `n` of a window stream requests: those of every `n`-th step (log entry 112). -/
def State.windowLines (s : State) (c : Rec) (j n : Nat) : List Nat :=
  ((s.windowSteps c).zipIdx.filter (fun p => p.2 % n == j)).flatMap (·.1)

/-! ### The streams of a record (R160, R167, R230) -/

/-- A stream over a whole operand. The rows of a ZBM operand have lengths of their own (R193): those of an input are read as
they stand, and those of an output are known once its rows are packed. -/
def State.operandStm (s : State) (kind port : Nat) (write : Bool) (f : Fmt) (blk : Bool) (d : Desc) : Stm :=
  { kind := kind, write := write, port := port, region := d.region, base := d.base / 64
    dims := d.dims (pRow f blk d.layout d.d0), packed := d.layout == 1 && write
    listed :=
      if d.layout = 1 then some (if write then [] else (List.range d.rows).flatMap (s.rowLines f blk d)) else none }

/-- A feed of an array command that streams these lines: a plain walk over the operand where that makes just these requests,
else line by line. -/
def Stm.listing (x : Stm) (l : List Nat) : Stm := if x.lines = l then x else { x with listed := some l }

/-- The weight feed of an array command (R98, R149): each tile as often as it is loaded. -/
def State.weightStm (s : State) (c : Rec) (d : Desc) : Stm :=
  let g := s.gemm c false
  (s.operandStm 0 1 false c.fw (g.q.wBlk != 0) d).listing ((loadingPasses none g.tilePasses).flatMap (s.tileLines g))

/-- The activation feed of an MMUL (R98, R151): the rows of each pass, of the channels of its K tile. -/
def State.activationStm (s : State) (c : Rec) (d : Desc) : Stm :=
  let g := s.gemm c false
  (s.operandStm 0 0 false c.fa (g.q.aBlk != 0) d).listing
    (g.tilePasses.flatMap (fun p => dedupAdjacent (p.rows.flatMap (s.streamedLines g p))))

/-- A stream over a range of bytes. -/
def rangeStm (kind port : Nat) (write : Bool) (r : Region) : Stm :=
  { kind := kind, write := write, port := port, region := r, base := r.base / 64
    dims := [(ceilDiv (r.base % 64 + r.len) 64, 1)] }

/-- The K or V feed of an ATTN (R206, R207, R230). -/
def Attention.pageStm (a : Attention) (d : Desc) (again : Bool) : Stm :=
  { kind := 0, write := false, port := 1, region := d.region, base := d.base / 64, dims := []
    listed := some (a.pageLines d again) }

/-- The lines of one page of a KV-page MOVE (R197). -/
def Desc.pageLines (d : Desc) (f : Fmt) (page : Nat) : List Nat :=
  let l := { d with d3 := 1 }.dims (pRow f false d.layout d.d0)
  (List.range (walkCount l)).map (fun g => (walkLine l (d.base / 64 + page * d.imagePitch : Nat) g).toNat)

/-- The side of a MOVE: a whole tensor, page by page in KV-page mode (R197), with the tag line of a halo (R196). The list of
atomic mode is read by unpaired fetch threads (DESIGN CHOICE, log entry 138). -/
def State.moveStm (s : State) (c : Rec) (write : Bool) : Stm :=
  let d := s.desc (if write then c.oPtr else c.aPtr)
  let f := if write then c.fo else c.fa
  let x := s.operandStm (if c.moveMode = 1 then 4 else if c.moveMode = 2 then 5 else 1) 3 write f false d
  if c.moveMode = 2 then
    { x with listed := some ((List.range (s.objLe c.auxPtr 4)).flatMap (fun k =>
        d.pageLines f (s.objLe (c.auxPtr + (if write then 12 else 8) + 8 * k) 4))) }
  else if c.moveMode = 1 ∧ write = true then { x with listed := some (x.lines ++ [(d.base + d.span - 64) / 64]) }
  else x

/-- The streams of a record that R167 counts by rate (R160, R167, R230). The score buffer's pair are fetch threads, and the
PORT codes of drains and the KIND, feed, and PORT of page-table fetches are the model's (DESIGN CHOICE, log entry 138). -/
def State.streamsOf (s : State) (h : Half) (c : Rec) : List Stm :=
  let q := s.qdesc c.qPtr
  let on := fun (a : Nat) (x : Desc → Stm) => if a = 0 then [] else [x (s.desc a)]
  let sized := fun (n : Nat) (x : Stm) => if n = 0 then [] else [x]
  let drain := on c.oPtr (s.operandStm 2 2 true c.fo (q.oBlk != 0))
  let feedA := fun (port : Nat) => on c.aPtr (s.operandStm 0 port false c.fa (q.aBlk != 0))
  match c.op with
  | some .mmul | some .conv | some .tconv =>
    on c.wPtr (s.weightStm c) ++
    (if c.op = some .mmul then on c.aPtr (s.activationStm c) else on c.aPtr (s.operandStm 3 0 false c.fa (q.aBlk != 0))) ++ drain ++
    (if q.outlier then (s.wideRegions c).zipIdx.map (fun r => rangeStm 0 r.2 false r.1) else [])
  | some .pool => on c.aPtr (s.operandStm 3 2 false c.fa (q.aBlk != 0)) ++ drain
  | some .rsmp | some .cvt => feedA 2 ++ drain
  | some .ewise => feedA 2 ++ on c.wPtr (s.operandStm 0 2 false c.fw (q.wBlk != 0)) ++ drain
  | some .norm =>
    feedA 2 ++ on c.wPtr (s.operandStm 0 2 false .fp32 false) ++ on c.auxPtr (s.operandStm 0 2 false .fp32 false) ++ drain
  | some .topk => feedA 2 ++ drain ++ on c.auxPtr (s.operandStm 2 2 true .int32 false)
  | some .attn =>
    let a := s.attention c
    feedA 0 ++ [a.pageStm a.k a.p.scoreEn, a.pageStm a.v false] ++
      sized a.b.nPages (rangeStm 0 3 false { base := a.b.pageTable, len := 4 * a.b.nPages }) ++
      sized a.b.scoreIn (rangeStm 0 2 false { base := a.b.scoreIn, len := 128 * a.b.nPages }) ++ drain ++
      (if a.p.statsEn then [rangeStm 2 2 true { base := a.b.stats, len := 8 * a.q.rows * a.p.hq }] else []) ++
      (if a.p.scoreEn then [rangeStm 2 2 true { base := a.b.scoreOut, len := 128 * a.b.nPages }] else [])
  | some .attb =>
    let a := s.backward c
    let buf := (s.desc a.b.scoreBuf).region
    feedA 0 ++ on a.b.kDesc (s.operandStm 0 1 false c.fw false) ++ on a.b.vDesc (s.operandStm 0 1 false c.fw false) ++
      on a.b.oDesc (s.operandStm 0 2 false c.fa false) ++ on a.b.doDesc (s.operandStm 0 0 false c.fa false) ++
      [rangeStm 0 2 false { base := a.b.stats, len := 8 * a.q.rows * a.p.hq }] ++ drain ++
      on a.b.dkDesc (s.operandStm 2 2 true c.fo false) ++ on a.b.dvDesc (s.operandStm 2 2 true c.fo false) ++
      (if s.attbStores h c then
        [{ rangeStm 1 3 false buf with paired := true }, rangeStm 1 3 true buf] else [])
  | some .move =>
    if c.oPtr = 0 then [s.moveStm c false] else [{ s.moveStm c false with paired := true }, s.moveStm c true]
  | _ => []

/-- Second-level scale vectors, bias vectors, outlier lists, post blocks and quantisation descriptors take one thread
each (R167); which commands name a post block R105 says. They feed the post-unit port (DESIGN CHOICE, log entry 138). -/
def State.extraStreams (s : State) (c : Rec) : List Stm :=
  let q := s.qdesc c.qPtr
  let n := s.outChannels c
  let slices := fun (k : Nat) => 128 * ceilDiv k 768
  let gemm := (c.op.map Op.isGemm).getD false
  let post := gemm || c.op == some .pool || c.op == some .rsmp || c.op == some .cvt
  (([(q.wG == 2, ({ base := q.wGPtr, len := 4 * n } : Region)), (q.oG == 2, { base := q.oGinvPtr, len := 4 * n }),
     (gemm && c.biasEn, { base := (s.postBlk c.auxPtr).biasPtr, len := 4 * n }),
     (q.outlier, { base := q.outListPtr, len := slices (s.desc c.aPtr).d0 }),
     (q.gather, { base := q.gatherListPtr, len := slices n }),
     (post && c.auxPtr != 0, { base := c.auxPtr, len := 64 }),
     (c.qPtr != 0, { base := c.qPtr, len := 128 })].filter (·.1)).map (fun x =>
    { rangeStm 0 2 false x.2 with single := true }))

/-- What else a record reads or writes, and R167 gives no thread (log entry 137): scale words that are no vector, the table of
output block scales (R75), the gather tensor (R88) and the emitted scale word (R82). -/
def State.otherRanges (s : State) (c : Rec) : List Region :=
  let q := s.qdesc c.qPtr
  let n := s.outChannels c
  let l := (s.outlierChannels q.gatherListPtr n).length
  ([(q.aG != 0, ({ base := q.aGPtr, len := 4 } : Region)), (q.wG == 1, { base := q.wGPtr, len := 4 }),
    (q.oG == 1, { base := q.oGinvPtr, len := 4 }), (q.oBlk != 0, { base := q.oBlkPtr, len := n / 32 }),
    (q.gather, { base := q.gatherOutPtr, len := (s.desc c.oPtr).rows * roundUp (2 * l) 64 }),
    (q.emit, { base := q.emitPtr, len := 4 })].filter (·.1)).map (·.2)

/-- The lines of a record that no thread of R167 moves: those of its residual and of its other ranges. They are requested with
the command's others (log entry 137). -/
def State.otherLines (s : State) (c : Rec) : List Nat :=
  let p := s.postBlk c.auxPtr
  (if (c.op.map Op.isGemm).getD false && c.resEn && c.auxPtr != 0 then
    (s.operandStm 0 2 false ((fmtOf p.resFmt).getD .fp32) false (s.desc p.resPtr)).lines
   else []) ++ (s.otherRanges c).flatMap (fun r => r.lines.map (· / 64))

end Sys2Proof.Machine
end

