-- ==== Sys2Proof/Machine/Threads.lean ====
section
/-! DEFINITION. Dolly's threads: how many each stream of a command takes (R147, R167), their descriptors (R161), their
allocation from the groups of the partition (R164), their release and the early fetch (R165). -/

namespace Sys2Proof.Machine

open Sys2Proof

/-! ### Paths and thread counts (R147, R161, R167) -/

/-- RATE of a regulator register, clamped (R171, R172). -/
def rateOf (top : Nat) (w : BitVec 64) : Nat := min top (field w.toNat 20 0)
/-- RATE of a partition's HBM and Contrail regulators, in bytes per µs. -/
def Dolly.hbmRate (d : Dolly) (p : Nat) : Nat := rateOf 819200 (d.regHbm.getD p 0)
def Dolly.ctrRate (d : Dolly) (p : Nat) : Nat := rateOf 2000000 (d.regCtr.getD p 0)
/-- PRIO of a partition (R171). -/
def Dolly.prio (d : Dolly) (p : Nat) : Nat := field (d.regHbm.getD p 0).toNat 51 50
/-- BURST_LINES of a regulator register; 0 acts as 1 (R171). -/
def burstOf (w : BitVec 64) : Nat := max 1 (field w.toNat 63 52)

/-- First-response latency from HBM by port priority, in ns (R147). -/
def memLatency (prio : Nat) : Nat := if prio = 0 then 600 else if prio = 1 then 900 else if prio = 2 then 1400 else 2600

/-- The lines of a stream: those of its walk, or those a window requests (R166). -/
def State.streamLines (s : State) (c : Rec) (x : Stm) : List Nat := if x.kind = 3 then s.windowLines c 0 1 else x.lines

/-- The banks of half `k` that a stream's lines lie in (R147, R174). -/
def State.streamBanks (s : State) (k : Half) (c : Rec) (x : Stm) : Nat :=
  (((s.streamLines c x).map (fun l => bankOf (64 * l - poolBase k))).eraseDups).length

/-- The rate of a bank-pool stream over `b` banks, in 1/1000 B per ns (R147). -/
def bankRate (b : Nat) : Nat := if b < 16 then 48000 * b else 768000

/-- Rate in 1/1000 B per ns and latency in ns of a stream (R147): a path across Contrail has its destination's rate too, and
its latency besides (R167). -/
def State.pathOf (s : State) (h : Half) (c : Rec) (x : Stm) : Nat × Nat :=
  let d := (s.half h).dolly
  match s.targetOf x.region with
  | .bankPool k =>
    let r := bankRate (s.streamBanks k c x)
    if k = h then (r, 40) else (min (min 2000000 (d.ctrRate c.part)) r, 160)
  | _ => (min 737280 (d.hbmRate c.part), memLatency (d.prio c.part))

/-- n_s of R167. -/
def threadCount (path : Nat × Nat) : Nat := max 1 (ceilDiv (path.1 * path.2) 512000)

/-- The two sides of a MOVE share one path (R167): its lowest rate and, as first response, the longer one. -/
def State.movePath (s : State) (h : Half) (c : Rec) : Nat × Nat :=
  let l := (s.streamsOf h c).map (s.pathOf h c)
  match l with
  | [] => (0, 0)
  | x :: r => r.foldl (fun a b => (min a.1 b.1, max a.2 b.2)) x

/-- n_s of a stream of a record (R167). -/
def State.streamThreads (s : State) (h : Half) (c : Rec) (x : Stm) : Nat :=
  if x.single then 1
  else threadCount (if c.op = some .move then s.movePath h c else s.pathOf h c x)

/-- The lines of thread `j` of the `n` that share lines one by one: every `n`-th from place `j` (log entry 112). -/
def dealtLines (l : List Nat) (n j : Nat) : List Nat := (l.zipIdx.filter (fun p => p.2 % n == j)).map (·.1)

/-- The threads of one stream, `off` threads into the plan. -/
def State.planOf (s : State) (h : Half) (c : Rec) (x : Stm) : List Plan :=
  let n := s.streamThreads h c x
  let p : Plan := { kind := x.kind, write := x.write, port := x.port, base := x.region.base / 64, loops := [], total := 0
                    chainIx := x.chainIx, region := x.region, packed := x.packed }
  if x.kind = 3 then (List.range n).map (fun j => { p with total := (s.windowLines c j n).length, share := (j, n) })
  else if x.listed.isSome then
    (List.range n).map (fun j =>
      let l := dealtLines x.lines n j
      { p with base := l.headD x.base, lines := some l, total := l.length })
  else (x.dealAll n).map (fun y => { p with base := y.1, loops := y.2.1, total := y.2.2 })

/-- The threads of streams in order, from place `off` of the plan on; thread `i` of one side of a pair and thread `i` of
the other name each other (R161). -/
def State.planAll (s : State) (h : Half) (c : Rec) : Nat → List Stm → List Plan
  | _, [] => []
  | _, [x] => s.planOf h c x
  | off, x :: y :: r =>
    let a := s.planOf h c x
    if x.paired then
      let b := s.planOf h c y
      let link := fun (o n : Nat) (l : List Plan) =>
        (l.zipIdx : List (Plan × Nat)).map (fun (p : Plan × Nat) => ({ p.1 with other := if p.2 < n then some (o + p.2) else none } : Plan))
      link (off + a.length) b.length a ++ link off a.length b ++ State.planAll s h c (off + a.length + b.length) r
    else a ++ State.planAll s h c (off + a.length) (y :: r)

/-- The threads of a record, `off` threads into the plan of its command. -/
def State.recPlan (s : State) (h : Half) (off : Nat) (k : Nat) (c : Rec) : List Plan :=
  (s.planAll h c off ((s.streamsOf h c).map (fun x => { x with chainIx := k }))) ++
    (s.extraStreams c).flatMap (fun x => s.planOf h c { x with chainIx := k })

/-- The threads of a command: those of every record of its chain (R134, R167). -/
def State.plan (s : State) (h : Half) (cs : List Rec) : List Plan :=
  cs.zipIdx.foldl (fun l c => l ++ s.recPlan h l.length c.2 c.1) []

/-- The regulator a request of an address spends from: 0 HBM, 1 Contrail, none for the own bank pool (R170). -/
def State.bucketOf (s : State) (h : Half) (addr : Nat) : Option Nat :=
  match s.target addr with
  | .hbm k => if k = h then some 0 else none
  | .bankPool k => if k = h then none else some 1
  | _ => none

/-- The requests of some threads through one regulator (R170). -/
def State.requestsThrough (s : State) (h : Half) (bucket : Nat) (l : List Plan) : Nat :=
  ((l.filter (fun p => s.bucketOf h p.region.base == some bucket)).map (·.total)).foldl (· + ·) 0

/-! ### Tokens (R169 to R171) -/

/-- A regulator holds tokens for `n` requests of 64 bytes, and admits them: its RATE is not 0 (R169, R171). -/
def Dolly.hasTokens (d : Dolly) (bucket p n : Nat) : Bool :=
  if bucket = 0 then d.hbmRate p != 0 && decide (64000 * n ≤ d.tokHbm.getD p 0)
  else d.ctrRate p != 0 && decide (64000 * n ≤ d.tokCtr.getD p 0)

/-- Requests of 64 bytes a partition's regulator admits with the tokens it holds; none with RATE 0 (R169, R171). -/
def Dolly.tokensFor (d : Dolly) (bucket p : Nat) : Nat :=
  if bucket = 0 then (if d.hbmRate p = 0 then 0 else d.tokHbm.getD p 0 / 64000)
  else (if d.ctrRate p = 0 then 0 else d.tokCtr.getD p 0 / 64000)

/-- Spend the tokens of `n` requests (R169). -/
def Dolly.spend (d : Dolly) (bucket p n : Nat) : Dolly :=
  if bucket = 0 then { d with tokHbm := lmod 0 d.tokHbm p (fun k => k - 64000 * n) }
  else { d with tokCtr := lmod 0 d.tokCtr p (fun k => k - 64000 * n) }

/-! ### Allocation and release (R164, R165, R200) -/

/-- A thread group. -/
def Dolly.group (d : Dolly) (g : Nat) : Group := tget {} d.groups g

/-- Free threads of the enabled groups of a partition, the first `n` (R164). A group whose clear of ENABLED waits serves
its partition no more: it gets no new thread (DESIGN CHOICE, log entry 114). -/
def Dolly.freeThreads (d : Dolly) (p n : Nat) : List Nat :=
  let gs := d.groups.filter (fun g => g.2.enabled && !g.2.disabling && g.2.part == p && decide (g.2.active < 256))
  (gs.flatMap (fun g => ((List.range 256).map (fun i => 256 * g.1 + i)).filter (fun t => !(tget {} d.threads t).busy))).take n

/-- A thread context as the issue stage fills it from its entry of the plan (R161): LINK is the thread number of the
other side of its pair, and unused loops run once. A window thread reads its geometry from PARAM (R166), and its loop
words, whose units no rule gives, are free, as are those of a thread whose lines no loops have (log entry 15). -/
def threadOf (ctx t : Nat) (ids : List Nat) (p : Plan) : Thread :=
  let link := match p.other with
    | some i => ids.getD i 0x7FFF
    | none => 0x7FFF
  let l := fun (i : Nat) => loopWord (p.loops.getD i (1, 0))
  let w := fun (i : Nat) => if p.kind = 3 ∨ p.lines.isSome = true then Config.threadWord ctx t i else BitVec.ofNat 64 (l (2 * i - 2) + l (2 * i - 1) * 2 ^ 32)
  { desc0 := BitVec.ofNat 64 (p.kind * 2 ^ 61 + bitOf p.write * 2 ^ 60 + p.port * 2 ^ 58 + ctx % 256 * 2 ^ 50 +
      link % 32768 * 2 ^ 35 + p.base % 2 ^ 34)
    desc1 := w 1, desc2 := w 2, desc3 := w 3, busy := true, total := p.total, lines := p.lines, share := p.share, chainIx := p.chainIx }

/-- Give threads to a command, one for each entry of its plan; `ids` are all of them, in the plan's order. -/
def Dolly.allocate (d : Dolly) (ctx : Nat) (ids : List Nat) : List (Nat × Plan) → Dolly
  | [] => d
  | (t, x) :: r =>
    Dolly.allocate
      { d with
        threads := tput d.threads t (threadOf ctx t ids x)
        groups := tmod {} d.groups (t / 256) (fun g => { g with active := g.active + 1 }) }
      ctx ids r

/-- Threads become free (R165); a free thread's descriptor reads 0 (R199). -/
def Dolly.freeAll (d : Dolly) : List Nat → Dolly
  | [] => d
  | t :: r =>
    Dolly.freeAll
      { d with
        threads := tput d.threads t {}
        groups := tmod {} d.groups (t / 256) (fun g => { g with active := g.active - 1 }) } r

/-- The threads a command was given are free. -/
def State.freeThreads (s : State) (h : Half) (e : Exec) : State := s.modDolly h (fun d => d.freeAll e.threads)

/-! ### Early fetch (R19, R165, R202; log entry 113) -/

/-- The lines of the banks that a job owns, for its early fetch: those of the first such bank, and no other where the job
owns none (R19). -/
def State.earlyLine (s : State) (h : Half) (ctx i : Nat) : Option Nat :=
  ((List.range 256).find? (s.jobOwns h ctx)).map (fun b =>
    (poolBase h + bankOffset b ((Config.threadWord ctx i 0).toNat % 8192)) / 64)

/-- The threads that fetch early for a record: a pair for each of its inputs in HBM, at the rate of R167. They write into a
bank reserved to the job; which of its lines no rule says, so the write side's first line is a free one of that bank, and
the model counts no request of it. A job that owns no bank fetches nothing early. -/
def State.earlyPlan (s : State) (h : Half) (ctx : Nat) (c : Rec) : List Plan :=
  let reads := ((s.streamsOf h c).filter (fun x => !x.write && x.kind != 3 && s.bucketOf h x.region.base == some 0)).flatMap
    (fun x => s.planOf h c { x with kind := 1, port := 3 })
  let n := reads.length
  match s.earlyLine h ctx 0 with
  | none => []
  | some _ =>
    reads.zipIdx.map (fun p => { p.1 with other := some (n + p.2) }) ++
      reads.zipIdx.map (fun p =>
        { p.1 with write := true, base := (s.earlyLine h ctx p.2).getD 0, loops := [], lines := some [], total := 0
                   other := some p.2 })

/-- The queue's next command is fetched early where its partition has threads left for it. -/
def State.startEarly (s : State) (h : Half) (ctx : Nat) (c : Rec) : State :=
  let plan := s.earlyPlan h ctx c
  let free := (s.half h).dolly.freeThreads (ctx / 32) plan.length
  if free.length < plan.length then s
  else (s.modDolly h (fun d => d.allocate ctx free (free.zip plan))).modJob h ctx (fun j => { j with early := free })

/-- The early-fetch threads of a job are stopped, their data is discarded, and they are free (R165). -/
def State.stopEarly (s : State) (h : Half) (ctx : Nat) : State :=
  (s.modDolly h (fun d => d.freeAll (s.job h ctx).early)).modJob h ctx (fun j => { j with early := [] })

end Sys2Proof.Machine
end

