-- ==== Sys2Proof/Machine/Jobs.lean ====
section
/-! DEFINITION. The life of a job: kill (R36), teardown (R346), release (R321), the end of a run, dispatch and
pre-emption (R329 to R332) and the accounting of waits (R349). -/

namespace Sys2Proof.Machine

open Sys2Proof

/-! ### Kill (R36) -/

/-- The flags of an execution as bits 13 to 11 of a completion status (R59, R110). -/
def Exec.flagBits (e : Exec) : Nat := bitOf e.clip * 2 ^ 13 + bitOf e.nan * 2 ^ 12 + bitOf e.infIn * 2 ^ 11

/-- SESSION of an ATTN in bits 63:52 of the DETAIL of every entry about the command; 0 for any other command (R222; log
entry 106). -/
def State.sessionBits (s : State) (c : Rec) : Nat :=
  if c.op = some .attn then (s.attnBlk c.wPtr).session * 2 ^ 52 else 0

/-- SESSION bits of an execution, whose attention block the issue stage fetched (R100). -/
def State.execSession (s : State) (e : Exec) : Nat := (s.withObjects e.objects).sessionBits (parseRec e.record)

/-- SESSION bits of the command a job has in execution. -/
def State.jobSession (s : State) (h : Half) (ctx : Nat) : Nat :=
  match (s.job h ctx).exec with
  | some e => s.execSession e
  | none => 0

/-- The flags of a killed execution are logged with the kill: CLIP under its own code (R95), the rest under
`killFlags` (R59). -/
def State.logKill (s : State) (h : Half) (ctx : Nat) (e : Exec) : State :=
  let d := s.execSession e + e.flagBits
  let s1 := if e.clip then s.log h { code := 0x40, unit := 8, ctx := ctx, tag := e.tag, detail := d } else s
  if e.nan || e.infIn then s1.logUnlisted h .killFlags { code := 0, unit := 8, ctx := ctx, tag := e.tag, detail := d }
  else s1

/-- A command that needs the partner half: it waits for cross-half data, has an output in the partner's bank pool, or names a
cue homed there (R23). Only a CUEW with a halo operand (R244) counts as waiting for cross-half data: one on a cue of its own
half that a MOVE of the partner would signal does not (DESIGN CHOICE, log entry 157). -/
def State.crossHalf (s : State) (h : Half) (cs : List Rec) (halo : Option (Nat × Nat)) : Bool :=
  halo.isSome || cs.any (fun c =>
    (namedCues c).any (fun k => cueHome k != h) ||
    (s.outputsOf c).any (fun r => s.targetOf r == .bankPool (otherHalf h)))

/-- The records an execution holds. -/
def Exec.recs (e : Exec) : List Rec := (e.record :: e.chain).map parseRec

/-- An execution needs the partner half (R23). -/
def State.execCrosses (s : State) (h : Half) (e : Exec) : Bool := (s.withObjects e.objects).crossHalf h e.recs e.halo

/-- A packet that waited takes a credit and is sent (R304). -/
def State.sendPacket (s : State) (h : Half) (p : LinkPacket) : State :=
  (s.modLink h (fun l =>
    { l with
      outData := l.outData ++ [p], unsent := l.unsent.erase p
      creditsUsed := lmod 0 l.creditsUsed (p.ctx / 32) (· + 1) })).modJob h p.ctx (fun j =>
    { j with exec := j.exec.map (fun e => { e with credits := e.credits + 1 }) })

/-- As many of a partition's waiting packets are sent, oldest first, as its share has free credits (R304). -/
def State.sendWaiting (s : State) (h : Half) (part : Nat) : State :=
  let l := (s.half h).link
  ((l.unsent.filter (fun p => p.ctx / 32 == part)).take (l.share.getD part 0 - l.creditsUsed.getD part 0)).foldl
    (fun t p => t.sendPacket h p) s

/-- Every partition sends what its share, newly in effect, admits (R304). -/
def State.sendAllWaiting (s : State) (h : Half) : State := (List.range 8).foldl (fun t p => t.sendWaiting h p) s

/-- The credits a job's command holds go back to its partition (R36, R304), and packets that wait take them. -/
def State.freeCredits (s : State) (h : Half) (ctx : Nat) : State :=
  match (s.job h ctx).exec with
  | none => s
  | some e =>
    ((s.modLink h (fun l => { l with creditsUsed := lmod 0 l.creditsUsed (ctx / 32) (fun n => n - e.credits) })).modJob h
      ctx (fun j => { j with exec := j.exec.map (fun e => { e with credits := 0 }) })).sendWaiting h (ctx / 32)

/-- A command's token request, or the answer to it, is on its way (R306, R343). -/
def State.tokenOut (s : State) (h : Half) (ctx : Nat) : Bool :=
  (s.half h).link.outbox.any (fun m => match m with
    | .tokenAsk c _ _ => c == ctx
    | _ => false) ||
  (s.half (otherHalf h)).link.outbox.any (fun m => match m with
    | .tokenAnswer c _ => c == ctx
    | _ => false)

/-- The command's packets not yet delivered are not sent, and a kill notice of a command that needs the partner half, or
whose token request is out, goes there (R308). -/
def State.dropPackets (s : State) (h : Half) (ctx : Nat) (e : Exec) : State :=
  let s1 := s.modLink h (fun l =>
    { l with
      outData := l.outData.filter (fun p => p.ctx != ctx), unsent := l.unsent.filter (fun p => p.ctx != ctx)
      flitBytes := if l.outData.head?.any (fun p => p.ctx == ctx) then 0 else l.flitBytes })
  if s.execCrosses h e || s.tokenOut h ctx then s1.send h (.killed ctx) else s1

/-- What a kill changes in the job: the execution stops, its log and local escrow are gone, and what is issued
afterwards is noted (R36, R37, R89). Escrow homed in the partner half and credits stay listed until the kill notice
(R308, R337), and credits at the latest until the kill's end (R36). -/
def Job.killed (home : Half) (k : RetakeKind) (e : Exec) (j : Job) : Job :=
  { j with
    kills := satAdd 255 j.kills 1
    wideNext := decide (k = .wide) || e.wide
    exec := some { e with
      phase := .killing, retake := k, printLog := [], staged := [], acksDue := 0, hbmDue := []
      escrow := if k = .wide then e.escrow else e.escrow.filter (fun p => cueHome p.1 != home) } }

/-- A job's command is killed (R36). A kill that meets a kill changes only what is issued afterwards: an escrow passed
to a wide variant is then returned (R89), and the guarded original is retaken (R95). -/
def State.kill (s : State) (h : Half) (ctx : Nat) (k : RetakeKind) : State :=
  match (s.job h ctx).exec with
  | none => s
  | some e =>
    if e.phase = .killing then
      if k = .none ∨ e.retake = .wide then
        (s.modJob h ctx (fun j =>
          { j with wideNext := e.wide, exec := some { e with
              retake := if e.retake = .none then .none else k
              escrow := e.escrow.filter (fun p => cueHome p.1 != h) } })).returnEscrow h e.escrow
      else s
    else
      let s1 := (s.logKill h ctx e).dropPackets h ctx e
      let s2 := ((s1.dropWaiters h h ctx).loseRegions (e.outputs ++ e.flow)).modJob h ctx (Job.killed h k e)
      if k = .wide then s2 else s2.returnEscrow h e.escrow

/-! ### Teardown (R346) -/

/-- Open holds of a job: cue and amount not signalled (R332). -/
def Job.openHolds (j : Job) : List (Nat × Nat) :=
  (j.holds.filter (fun x => decide (x.signalled < x.acquired))).map (fun x => (x.cue, x.acquired - x.signalled))

/-- Open holds of a job on cues that have a ceiling: its ceiling holds (R332). -/
def State.ceilingHolds (s : State) (j : Job) : List (Nat × Nat) :=
  j.openHolds.filter (fun c => decide ((s.cue c.1).ceiling < 8))

/-- CUE_HELD for each hold still open (R346). -/
def State.logHolds (s : State) (h : Half) (ctx : Nat) : List (Nat × Nat) → State
  | [] => s
  | (cue, a) :: r =>
    State.logHolds (s.logUnlisted h .cueHeld { code := 0, ctx := ctx, detail := cue * 2 ^ 32 + a }) h ctx r

/-- The contents of the banks a job owns become undefined (R346). -/
def State.loseBanks (s : State) (h : Half) (ctx : Nat) : State :=
  ((s.half h).dolly.banks.filter (fun b => b.2.ownedBy ctx)).foldl (fun t b => t.loseBank h b.1) s

/-- The array is free again where a job held it. -/
def Disp.leave (ctx : Nat) (d : Disp) : Disp := { d with running := if d.running = some ctx then none else d.running }

/-- The CMD_TAG of a job's command; 0 when none is in execution. -/
def State.tagOf (s : State) (h : Half) (ctx : Nat) : Nat :=
  match (s.job h ctx).exec with
  | some e => e.tag
  | none => 0

/-- The run of a job's frame is over (R321, R346). -/
def State.overRun (s : State) (h : Half) (ctx : Nat) : State :=
  let j := s.job h ctx
  match j.entry, j.frame with
  | some e, some q =>
    if e.stream < 24 then
      s.modStream h e.stream (fun k => { k with frames := k.frames.map (fun f => if f.seq = q then { f with runOver := true } else f) })
    else s
  | _, _ => s

/-- The frame that a job's run computes is treated as marked, where its result has not printed: it is not delivered (R247,
R252). -/
def State.loseRun (s : State) (h : Half) (ctx : Nat) : State :=
  let j := s.job h ctx
  match j.entry, j.frame with
  | some e, some q =>
    if e.stream < 24 then
      s.modStream h e.stream (fun k => { k with frames := k.frames.map (fun f =>
        if f.seq = q ∧ f.printed.isNone = true then { f with withheldBy := true } else f) })
    else s
  | _, _ => s

/-- A half that waits for a halo as the link goes down, or would from its next command on, falls back at its next slot boundary,
where it holds a degraded sheet (R252). -/
def Disp.fallBack (waits : Bool) (d : Disp) : Disp :=
  { d with switchPending := d.switchPending || (waits && decide (d.sheetState = 1) && d.degraded.isSome) }

/-- Teardown of a job (R346): its command is killed and not retaken, its holds end, the fault code is recorded and
logged as class 3 (code 0: a teardown that records no fault, R327), and its banks' contents are undefined. It is
complete at once where no command is in execution, else when the kill completes. -/
def State.teardown (s : State) (h : Half) (ctx code tag detail : Nat) : State :=
  let d := s.jobSession h ctx + detail
  let s1 := ((s.overRun h ctx).kill h ctx .none).stopEarly h ctx
  let s2 := s1.logHolds h ctx (s.ceilingHolds (s.job h ctx))
  let s3 := (s2.loseBanks h ctx).modJob h ctx (fun j =>
    { j with
      holds := [], fault := if code = 0 then j.fault else code % 65536, teardownAt := some s.now
      lost := j.lost || code == 0x2D
      status := if j.exec.isSome then .teardown else if code = 0 then .idle else .faulted
      dark := if j.exec.isSome then j.dark else []
      flow := if j.exec.isSome then j.flow else [] })
  let s4 := if (s3.job h ctx).exec.isSome then s3 else s3.modDisp h (Disp.leave ctx)
  if code = 0 then s4 else s4.log h { code := code, cls := 3, ctx := ctx, tag := tag, detail := d }

/-! ### Release and the end of a run (R321, R370) -/

/-- The frame of a run of a job that names a stream and is no BACKUP job: its latest frame without a record (R370). -/
def State.runFrame (s : State) (h : Half) (e : JobEntry) : Option Nat :=
  if e.stream < 24 then (((s.stream h e.stream).frames.find? (fun f => !f.recorded)).map (·.seq)) else none

/-- A run starts at the queue's first record (R321). -/
def State.startRun (s : State) (h : Half) (ctx : Nat) (frame : Option Nat) : State :=
  match (s.job h ctx).entry with
  | none => s
  | some e =>
    let f := if e.backup then frame else s.runFrame h e
    (s.stopEarly h ctx).modJob h ctx (fun j =>
      { j with
        status := .released, queueIndex := 0, kills := 0, retakes := 0, expiries := 0, satisfied := false
        wideNext := false, frame := f, deferredRelease := false, lost := false, teardownAt := none, exec := none, dark := [], flow := [] })

/-- The run of a job has not ended. -/
def Job.active (j : Job) : Bool := j.status == .released || j.status == .running || j.status == .parked

/-- A release (R321): it waits for a teardown under way; it abandons a periodic job's previous run, with
RELEASE_OVERRUN (0x2A). -/
def State.release (s : State) (h : Half) (ctx : Nat) (frame : Option Nat) : State :=
  let j := s.job h ctx
  match j.entry with
  | none => s
  | some e =>
    let late := fun (t : State) => t.modJob h ctx (fun j => { j with deferredRelease := true, frame := frame })
    if j.status = .teardown then late s
    else if j.active then
      let s0 := s.overRun h ctx
      let s1 := if e.release = 0 then s0.log h { code := 0x2A, ctx := ctx, tag := s.tagOf h ctx, detail := s.jobSession h ctx } else s0
      if j.exec.isSome then late (s1.kill h ctx .none)
      else (s1.modDisp h (Disp.leave ctx)).startRun h ctx frame
    else if j.exec.isSome then late s
    else s.startRun h ctx frame

/-- A run ends without a fault (R321): a continuous job is released again at once, a once job has completed. -/
def State.endRun (s : State) (h : Half) (ctx : Nat) : State :=
  let s1 := ((s.overRun h ctx).stopEarly h ctx).modJob h ctx (fun j =>
    { j with status := .idle, onceDone := j.onceDone || (j.entry.map (fun e => e.release == 2)).getD false, exec := none, dark := [], flow := [] })
  match (s1.job h ctx).entry with
  | some e => if e.release = 1 then s1.startRun h ctx none else s1
  | none => s1

/-! ### Selection and pre-emption (R329 to R332) -/

/-- The job has a resumable command that is not dispatched. -/
def Job.resumable (j : Job) : Bool :=
  j.status != .running && (match j.exec with
    | some e => e.phase == .resumable
    | none => false)

/-- The job has a ready command. -/
def Job.ready (j : Job) : Bool := j.status == .released && j.exec.isNone

/-- Jobs of a half with a ready or resumable command. -/
def HalfState.work (x : HalfState) : List (Nat × Job) := x.disp.jobs.filter (fun p => p.2.ready || p.2.resumable)

/-- The partition R329 selects. -/
def HalfState.select (x : HalfState) : Option Nat :=
  (List.range 8).find? (fun p => x.slotOf p && x.work.any (fun j => j.1 / 32 == p))

/-- The hold level of a job (R332); none where it is in no ceiling hold. -/
def State.holdLevel (s : State) (j : Job) : Option Nat :=
  ((s.ceilingHolds j).map (fun c => (s.cue c.1).ceiling)).min?

/-- R331: no slot of the job's partition covers the instant, or a partition numbered below it is selected. -/
def HalfState.preempts (x : HalfState) (ctx : Nat) : Bool :=
  !(x.slotOf (ctx / 32)) || (match x.select with
    | some p => decide (p < ctx / 32)
    | none => false)

/-- R332: a ceiling hold at level `e` suspends the pre-emption. -/
def State.holdsOff (s : State) (h : Half) (ctx : Nat) : Bool :=
  match s.holdLevel (s.job h ctx) with
  | none => false
  | some e =>
    (match (s.half h).select with
     | some p => decide (e ≤ p)
     | none => true) &&
    ((s.half h).slotOf (ctx / 32) || !((List.range e).any (s.half h).slotOf))

/-- The job has a command that can be pre-empted: running or parked, and not being killed. -/
def Job.preemptable (j : Job) : Bool :=
  match j.exec with
  | some e => e.phase != .killing
  | none => j.status == .running

/-- The first job whose command R331 pre-empts now. -/
def State.victim (s : State) (h : Half) : Option Nat :=
  ((s.half h).disp.jobs.find? (fun p =>
    p.2.preemptable && (s.half h).preempts p.1 && !(s.holdsOff h p.1))).map (·.1)

/-- One pre-emption (R331): the command is killed and retaken later; one dispatched and not yet issued is only put
back. The early-fetch threads of the queue's next command stop as well (R165). A kill where a STRICT slot of the partition ends is logged as SLOT_OVERRUN, class 7 (R345). -/
def State.preempt (s : State) (h : Half) (ctx : Nat) (strict : Bool) : State :=
  if (s.job h ctx).exec.isNone then
    ((s.modJob h ctx (fun j => { j with status := .released })).modDisp h (Disp.leave ctx)).stopEarly h ctx
  else
    let s1 := if strict && !((s.half h).slotOf (ctx / 32)) then
        s.log h { code := 0x26, ctx := ctx, tag := s.tagOf h ctx, detail := s.jobSession h ctx } else s
    ((s1.modJob h ctx (fun j => { j with preemptions := satAdd 0xFFFFFFFF j.preemptions 1 })).kill h ctx .same).stopEarly h
      ctx

/-- Every pre-emption due; `strict p` says that a STRICT slot of partition `p` has just ended. -/
def State.preemptAll (s : State) (h : Half) (strict : Nat → Bool) : Nat → State
  | 0 => s
  | fuel + 1 =>
    match s.victim h with
    | none => s
    | some c => State.preemptAll (s.preempt h c (strict (c / 32))) h strict fuel

/-- The job dispatched next (R329, R332): a job in a ceiling hold that suspends the others, else the lowest role with a
resumable command, else with a ready command, of the selected partition. -/
def State.pick (s : State) (h : Half) : Option Nat :=
  let w := (s.half h).work
  match w.find? (fun p => s.holdsOff h p.1) with
  | some p => some p.1
  | none =>
    match (s.half h).select with
    | none => none
    | some q =>
      let l := w.filter (fun p => p.1 / 32 == q)
      match l.find? (fun p => p.2.resumable) with
      | some p => some p.1
      | none => (l.find? (fun p => p.2.ready)).map (·.1)

/-- The jobs whose pre-emption a ceiling hold suspends now (R332, R333), a command of theirs that is being killed for its
retake included. -/
def State.suspended (s : State) (h : Half) : List Nat :=
  ((s.half h).disp.jobs.filter (fun p =>
    (p.2.exec.isSome || p.2.preemptable || p.2.ready || p.2.resumable) && (s.half h).preempts p.1 && s.holdsOff h p.1)).map
      (·.1)

/-- The suspensions that last, with their beginnings, and those that begin now (R333). -/
def State.defer (s : State) (h : Half) : State :=
  let z := (s.half h).hzn
  let now := fun (c : Nat) => (c, z.lines, s.now - z.lineStart)
  let l := s.suspended h
  s.modDisp h (fun d =>
    { d with deferredPreempt := l.map (fun c => (d.deferredPreempt.find? (fun p => p.1 == c)).getD (now c)) })

/-- Queue waiting starts or ends for one job (R349): its partition has a covering slot and its ready or resumable
command is neither issued nor resumed. -/
def Job.account (now : Nat) (waiting : Bool) (j : Job) : Job :=
  match j.waitingSince, waiting with
  | none, true => { j with waitingSince := some now }
  | some t, false =>
    { j with
      waitingSince := none, waitSum := (j.waitSum + (now - t)) % 2 ^ 64
      waitMax := max j.waitMax (min 0xFFFFFFFF (now - t)) }
  | _, _ => j

/-- WAIT_SUM_NS and WAIT_MAX_NS as they read: a wait under way counts up to now (R350). -/
def Job.waited (now : Nat) (j : Job) : Nat × Nat :=
  let k := j.account now false
  (k.waitSum, k.waitMax)

/-- The accounting of every job of a half. -/
def State.account (s : State) (h : Half) : State :=
  let x := s.half h
  s.modDisp h (fun d =>
    { d with jobs := d.jobs.map (fun p => (p.1, p.2.account s.now (x.slotOf (p.1 / 32) && (p.2.ready || p.2.resumable)))) })

/-- A dispatch point (R329): pre-emptions, then the selection where the array is free, then the record of the suspended
pre-emptions and the accounting. Dispatch starts with step 5 of an arming (R327). -/
def State.dispatchWith (s : State) (h : Half) (strict : Nat → Bool) : State :=
  if !(s.live h) || (s.half h).disp.sheetState == 0 || (s.half h).disp.armRest.any (·.arming) then s.account h
  else
    let s1 := s.preemptAll h strict ((s.half h).disp.jobs.length + 1)
    let s2 :=
      match (s1.half h).disp.running, s1.pick h with
      | none, some c =>
        (s1.modJob h c (fun j => { j with status := .running })).modDisp h (fun d => { d with running := some c })
      | _, _ => s1
    (s2.defer h).account h

/-- A dispatch point that no slot's end brought about. -/
def State.dispatch (s : State) (h : Half) : State := s.dispatchWith h (fun _ => false)

/-- A cue change may resume commands of either half: a dispatch point in both (R329). -/
def State.dispatchBoth (s : State) : State := (s.dispatch .a).dispatch .b

end Sys2Proof.Machine
end

