-- ==== Sys2Proof/Machine/Command.lean ====
section
/-! DEFINITION. What one command of a queue does from its issue until all its results are written: the fetch of its
record or chain, the checks at issue, CUE_IN, its threads, its effect, and the errors that end it before print. -/

namespace Sys2Proof.Machine

open Sys2Proof

/-! ### Disagreements (R371) -/

/-- The repair record takes the derates and their event counters (R389). -/
def Isl.keepDerate (i : Isl) : Isl :=
  { i with repair := { i.repair with derate := i.derate, derateEvents := i.derateEvents } }

/-- The unit a derate-counted event counts against: the array for the post unit and the outlier side lane (R391). -/
def derateUnit (u : Nat) : Nat := if u = 8 ∨ u = 9 then 0 else u

/-- Count a derate-counted event of a unit in its present band and powered hour (R391, R392). -/
def State.countDerate (s : State) (h : Half) (unit : Nat) : State :=
  let u := derateUnit unit
  if u ≤ 7 then
    s.modIsl h (fun i => Isl.keepDerate
      { i with derateEvents := (u, tjBand (s.unit h u).temp16, (s.half h).zen.poweredHours) :: i.derateEvents })
  else s

/-- A disagreement of a unit is counted in the window of 1,000 sheet frames (R371) and for derating (R391). -/
def State.disagree (s0 : State) (h : Half) (unit : Nat) : State :=
  let s := s0.countDerate h unit
  let f := (s.half h).hzn.sheetFrame
  let l := (((s.half h).isl.disagreeAt.getD unit []).filter (fun g => decide (f < g + 1000))) ++ [f]
  s.modIsl h (fun i =>
    { i with
      disagreeAt := i.disagreeAt.set unit l
      disagree := i.disagree.set unit (min 0xFFFF l.length) })

/-! ### The head of a queue -/

/-- The record or chain at the head of a job's queue, each with its address: the wide variant alone where that is
retaken (R41, R134). -/
def State.headChain (s : State) (h : Half) (ctx : Nat) : List (Nat × Rec) :=
  let j := s.job h ctx
  match j.entry with
  | none => []
  | some e =>
    if j.wideNext then
      let w := (parseRec (s.record (e.queuePtr + 64 * j.queueIndex))).widePtr
      [(w, parseRec (s.record w))]
    else s.chainFrom e.queuePtr e.queueLen 8 j.queueIndex

/-- A row of the table stands for a record: its operation, or its MODE where that operation is MOVE; any row stands for
a record with a reserved OPCODE or MODE, which issue rejects. -/
def Rec.isRow (c : Rec) (op : Op) (mode : Option Nat) : Bool :=
  match c.op with
  | none => true
  | some o =>
    o == op && (match mode with
      | none => true
      | some m => c.moveMode == m || decide (4 ≤ c.moveMode))

/-- A MOVE that pushes into the partner half's bank pool (R195, R196). -/
def State.pushes (s : State) (h : Half) (c : Rec) : Bool :=
  c.op == some .move && (s.outputsOf c).any (fun r => s.targetOf r == .bankPool (otherHalf h))

/-- The watchdog limit in 1/16 ns (R94, R103, R137). -/
def State.budgetOf (s : State) (h : Half) (cs : List Rec) : Nat :=
  let m := match (s.half h).sheet with
    | some sh => sh.wdgMargin16
    | none => 20
  let cost := (cs.map Rec.cost).foldl (· + ·) 0
  m * (match cs with
    | c :: _ => if c.guard then cost + 2000 + (parseRec (s.record c.widePtr)).cost else cost
    | [] => cost)

/-- The execution of a chain that has passed the checks at issue. -/
def State.newExec (s : State) (h : Half) (ctx : Nat) (cs : List (Nat × Rec)) (wide : Bool) (halo : Option (Nat × Nat)) :
    Exec :=
  let rs := cs.map (·.2)
  let j := s.job h ctx
  let guarded := parseRec (s.record ((j.entry.map (·.queuePtr)).getD 0 + 64 * j.queueIndex))
  { record := (cs.map (fun p => s.record p.1)).headD [], chain := (cs.drop 1).map (fun p => s.record p.1)
    objects := s.objectCells cs, phase := .resumable, wide := wide
    wideRecord := match rs with
      | c :: _ => if c.guard then s.record c.widePtr else []
      | [] => []
    inputs := s.chainInputs rs, outputs := s.chainOutputs rs
    flow := (links rs).map (fun p => (s.desc p.1.oPtr).region)
    tag := if wide then guarded.tag else (rs.map (·.tag)).getLastD 0
    startedAt := s.now, budget := s.budgetOf h rs, halo := halo }

/-- The CUE_IN operation of a command (R128, R129): none, or whether it acquires, and its amount or value. A wait
recorded as satisfied is not evaluated again (R35). -/
def Rec.cueWait (c : Rec) (satisfied : Bool) : Option (Bool × Nat) :=
  if c.cueInAmt ≠ 0 then some (true, c.cueInAmt)
  else if c.op = some .cuew ∧ satisfied = false then some (false, c.waitValue)
  else none

/-- The execution waits for its CUE_IN (R330): it leaves the array. -/
def State.park (s : State) (h : Half) (ctx : Nat) : State :=
  (s.modJob h ctx (fun j =>
    { j with status := .parked, exec := j.exec.map (fun e => { e with phase := .parked }) })).modDisp h (Disp.leave ctx)

/-- Ask for the CUE_IN of a command just issued (R128, R335 to R337). -/
def State.awaitCue (s : State) (h : Half) (ctx : Nat) (c : Rec) : State :=
  match c.cueWait (s.job h ctx).satisfied with
  | none => s
  | some (acq, n) =>
    if cueHome c.cueIn = h then
      let x := s.askCue { half := h, ctx := ctx, acquire := acq, amount := n } c.cueIn
      if x.1 then
        x.2.modJob h ctx (fun j =>
          { j with
            satisfied := j.satisfied || !acq
            exec := j.exec.map (fun e => { e with escrow := if acq then e.escrow ++ [(c.cueIn, n)] else e.escrow }) })
      else x.2.park h ctx
    else (s.send h (if acq then .acquire ctx c.cueIn n else .wait ctx c.cueIn n)).park h ctx

/-! ### The effect of one record -/

/-- What a record's work comes to. -/
inductive RunOutcome where
  /-- The command is killed and its job faulted with a code, not retaken; the detail is logged with the fault. -/
  | fault (code detail : Nat)
  /-- The check column failed at an output row of a pass (R142). -/
  | checkFail (pass row : Nat) (fl : Flags)
  /-- Everything is written: cells, flags and the atomics logged. -/
  | done (w : Written) (log : List (BitVec 64))
deriving DecidableEq, Repr

/-- An array command's outcome. -/
def ArrayOutcome.run : ArrayOutcome → RunOutcome
  | .badList => .fault 0x09 0
  | .checkFail p r fl => .checkFail p r fl
  | .done w => .done w []

/-- A list a post-unit command gathers by is validated as an array command's lists are (R85, R88). -/
def State.gatherOk (s : State) (c : Rec) : Bool :=
  let q := s.qdesc c.qPtr
  !q.gather || s.outlierListOk q.gatherListPtr (s.desc c.oPtr).d0

/-- The validation of an ATTN's page table (R212): none where it passes, else the failed comparison, as the entry's
number in bits 31:16 and the comparison's in bits 15:0 of DETAIL (log entry 107). -/
def State.attnPagesFail (s : State) (h : Half) (ctx : Nat) (c : Rec) : Option Nat :=
  ((s.attention c).pagesFail (s.outputsOf c) (s.darkOutputs h ctx)).map (fun x => x.1 * 2 ^ 16 + x.2)

/-- The validation of the page tables of a command, before any page is read (R212). -/
def State.pagesRefused (s : State) (h : Half) (ctx : Nat) (cs : List Rec) : Option Nat :=
  cs.findSome? (fun c => if c.op = some .attn then s.attnPagesFail h ctx c else none)

/-- The page extents that an ATTN's table adds to its declared inputs at fetch (R212). -/
def State.pageInputs (s : State) (cs : List Rec) : List Region :=
  cs.flatMap (fun c => if c.op = some .attn then (s.attention c).pageRegions else [])

/-- MOVE's writes as cells (R195 to R197). -/
def State.moveCells (s : State) (h : Half) (c : Rec) : List (Nat × Byte) :=
  (s.moveRuns h c).flatMap (fun p => cellsAt p.1 p.2)

/-- A MOVE in atomic mode logs its entries one by one (R187, R198): the 257th ends it with CMD_PRINT_LOG_FULL (R33). -/
def State.logAtomics (s : State) (h : Half) (ctx : Nat) : Nat → List (BitVec 64) → Option Nat
  | _, [] => none
  | n, e :: r =>
    if n = 256 then some 0x20 else if !(s.atomicOk h ctx e) then some 0x22 else State.logAtomics s h ctx (n + 1) r

/-- The effect of one record (R105). -/
def State.runRec (s : State) (h : Half) (ctx : Nat) (c : Rec) (wide : Bool) (draw : Draw) (u : Option Upset) : RunOutcome :=
  let post := fun (w : Written) => if s.gatherOk c then RunOutcome.done w [] else .fault 0x09 0
  match c.op with
  | some .mmul | some .conv | some .tconv => (s.runGemm c wide draw u).run
  | some .pool => post (s.runPool c draw)
  | some .rsmp => post (s.runRsmp c draw)
  | some .ewise => post (s.runEwise c draw)
  | some .norm => post (s.runNorm c draw)
  | some .cvt => post (s.runCvt c draw)
  | some .topk => .done (s.runTopk c) []
  | some .attn => (s.runAttn c draw u).run
  | some .attb => (s.runAttb h c draw u).run
  | some .move =>
    if c.moveMode = 3 then
      let l := s.atomicEntries c
      (match s.logAtomics h ctx 0 l with
       | some k => .fault k 0
       | none => .done {} l)
    else .done { cells := s.moveCells h c } []
  | _ => .done {} []

/-- What a producer of a chain wrote, parted: its flow region's bytes, which the chain keeps, and the rest, such as a gather
tensor, which prints with the chain (R88, R135, R137). -/
def Written.producer (flow : Region) (w : Written) : Written :=
  { w with
    cells := w.cells.filter (fun p => !(inRange flow.base flow.len p.1))
    flow := w.cells.filter (fun p => inRange flow.base flow.len p.1) }

/-- The effect of a chain: each consumer reads the flow region its producer wrote (R134). -/
def State.runChain (s : State) (h : Half) (ctx : Nat) (wide : Bool) (u : Option Upset) : List Rec → RunOutcome
  | [] => .done {} []
  | [c] => s.runRec h ctx c wide (fun e k => Config.freeWord s.free e k) u
  | c :: r =>
    match s.runRec h ctx c wide (fun e k => Config.freeWord s.free e k) u with
    | .fault k d => .fault k d
    | .checkFail p row fl => .checkFail p row fl
    | .done w _ =>
      match State.runChain ({ s with free := s.free + 1 }.writeCells w.cells) h ctx wide u r with
      | .fault k d => .fault k d
      | .checkFail p row fl => .checkFail p row (w.fl.join fl)
      | .done w' l => .done ((w.producer (s.desc c.oPtr).region).join w') l

/-! ### Errors of runtime accesses -/

/-- The 64-byte lines some cells touch. -/
def linesOf (l : List (Nat × Byte)) : List Nat := (dedupAdjacent (l.map (fun p => p.1 / 64 * 64))).eraseDups

/-- Lines of a half's own bank pool among some lines, and of its own HBM. -/
def State.poolLines (s : State) (h : Half) (l : List Nat) : List Nat := l.filter (fun a => s.target a == .bankPool h)
def State.hbmLines (s : State) (h : Half) (l : List Nat) : List Nat := l.filter (fun a => s.target a == .hbm h)

/-- DETAIL of a refused bank write: bank, line and tag (R182). -/
def bankDetail (h : Half) (ctx a : Nat) : Nat :=
  bankAt h a * 2 ^ 32 + bankLine (a - poolBase h) * 2 ^ 16 + ctx

/-- The map of R288 refuses some access of a range: it does not lie in the half's own HBM, where that answers (R296), in its
own bank pool, or, for what a MOVE writes, in the partner's bank pool. -/
def State.mapRefuses (s : State) (h : Half) (write move : Bool) (r : Region) : Bool :=
  decide (0 < r.len) && !(match s.targetOf r with
    | .hbm k => k == h && (s.half h).hbmServed
    | .bankPool k => k == h || (write && move)
    | _ => false)

/-- The first access of a chain that gets a decode error (R288, R296). -/
def State.decodeFails (s : State) (h : Half) (cs : List Rec) : Option Nat :=
  let move := cs.any (fun c => c.op == some .move)
  let first := fun (w : Bool) (l : List Region) =>
    (l.find? (s.mapRefuses h w move)).map (fun r => r.firstRefused (fun a => !(s.mapReaches h w move a)))
  (first false (s.chainInputs cs ++ s.pageInputs cs)).or (first true (s.chainOutputs cs))

/-- The first access of a chain that the region descriptors no longer admit at run time (R314). -/
def State.regionFails (s : State) (h : Half) (ctx : Nat) (cs : List Rec) : Option Nat :=
  cs.findSome? (fun c =>
    (((s.inputsOf c ++ s.pageInputs [c]).find? (fun r => !(s.ownAdmits h (.job ctx) (s.jobSecure h ctx) false r))).or
      ((s.outputsOf c).find? (fun r => !(s.outputOk h ctx c r)))).map (·.base))

/-! ### CRC of a slate output (R368) -/

/-- The output bytes of a slate command in drain order: N tile, row, then the row's bytes of that tile (R232, R368). -/
def drainBytes (rowPitch tileBytes rowBytes rows : Nat) (l : List Byte) : List Byte :=
  (List.range (ceilDiv rowBytes (max 1 tileBytes))).flatMap (fun t =>
    (List.range rows).flatMap (fun r =>
      (((l.drop (r * rowPitch)).take rowBytes).drop (t * tileBytes)).take tileBytes))

/-- CRC-32C of a slate command's output. -/
def State.slateCrcOf (s : State) (c : Rec) (w : Written) : Nat :=
  if c.slate then
    let o := s.desc c.oPtr
    crc32c (drainBytes (pRow c.fo false o.layout o.d0) ((s.gemm c false).nWidth * c.fo.bits / 8) (c.fo.rowBytes o.d0) o.rows
      (w.cells.map (·.2)))
  else 0

/-! ### The end of a command's work -/

/-- The flags of an execution are set. -/
def Exec.withFlags (e : Exec) (fl : Flags) : Exec := { e with clip := fl.clip, nan := fl.nan, infIn := fl.infIn }

/-- CHECK_FAIL with the pass in bits 51:32 and the output row in bits 31:0 of DETAIL (R142, R363, R370; log entry 107), and of
a chain the last record's CMD_TAG, whichever record fails (DESIGN CHOICE, log entry 140):
class 1 in a job without a stream, where the record is retaken; class 2 in a job with one, where the run ends and its
frame is treated as marked. -/
def State.failCheck (s : State) (h : Half) (ctx pass row : Nat) (fl : Flags) : State :=
  let j := s.job h ctx
  let stream : Nat := (j.entry.map (fun e => e.stream)).getD 31
  let two := decide (stream < 24)
  let s1 := (s.modJob h ctx (fun j => { j with exec := j.exec.map (fun e => e.withFlags fl) })).log h
    { code := 0x0501, cls := if two then 2 else 1, unit := 0, ctx := ctx, tag := s.tagOf h ctx
      detail := s.jobSession h ctx + pass % 2 ^ 20 * 2 ^ 32 + row % 2 ^ 32 }
  let s2 := s1.disagree h 0
  if two then
    (s2.modStream h stream (fun k =>
      { k with frames := k.frames.map (fun f => if some f.seq = j.frame then { f with withheldBy := true } else f) })).kill
        h ctx .none
  else s2.kill h ctx .same

/-- An execution takes the flags its work has raised. -/
def State.flagExec (s : State) (h : Half) (ctx : Nat) (fl : Flags) : State :=
  s.modJob h ctx (fun j => { j with exec := j.exec.map (fun e => e.withFlags fl) })

/-- CLIP of a guarded command: the print is withheld and the kill starts, with the flags logged; WIDE_TAKEN follows at
the kill's end (R59, R89). -/
def State.takeWide (s : State) (h : Half) (ctx : Nat) (fl : Flags) : State := (s.flagExec h ctx fl).kill h ctx .wide

/-- A push into the partner half's bank pool (R304, R307): a packet takes one credit of its partition's share and is sent;
one that finds no credit left waits for it. -/
def State.push (s : State) (h : Half) (ctx : Nat) (l : List LinkPacket) : State :=
  ((s.modLink h (fun x => { x with unsent := x.unsent ++ l })).modJob h ctx (fun j =>
    { j with exec := j.exec.map (fun e => { e with acksDue := l.length, credits := 0 }) })).sendWaiting h (ctx / 32)

/-- The command has written everything: it waits for its acknowledgements and its print. -/
def State.wrote (s : State) (h : Half) (ctx : Nat) (cs : List Rec) (w : Written) (log : List (BitVec 64)) : State :=
  let c := cs.headD (parseRec [])
  let v := s.view h ctx
  let buf := (v.backBlk c.wPtr).scoreBuf
  let far := v.pushes h c
  let s1 := s.modJob h ctx (fun j =>
    { j with exec := j.exec.map (fun e =>
        { e.withFlags w.fl with
          phase := .written, staged := if far then [] else w.cells, printLog := log
          checkPass := cs.any (·.checked), writtenAt := s.now, hbmDue := s.hbmLines h (linesOf w.cells), slateCrc := v.slateCrcOf c w
          flow := e.flow ++ (if c.op = some .attb ∧ buf ≠ 0 then [(v.desc buf).region] else []) }) })
  if far then s1.push h ctx (runPackets ctx (!(s.jobSecure h ctx)) (v.moveRuns h c)) else s1

/-- The mode of an ATTB is logged with its CMD_TAG (R227). -/
def State.logAttb (s : State) (h : Half) (ctx : Nat) (c : Rec) : State :=
  if c.op = some .attb then
    s.logUnlisted h .attbMode { code := 0, unit := 0, ctx := ctx, tag := c.tag, detail := bitOf ((s.view h ctx).attbStores h c) }
  else s

/-- A runtime fault of a command: its kill, its job's fault and teardown (R345, R346). -/
def State.faultJob (s : State) (h : Half) (ctx code detail : Nat) : State :=
  s.teardown h ctx code (s.tagOf h ctx) detail

/-- The regulators admit as many of the command's requests as they hold tokens for (R169 to R171). -/
def State.admitRequests (s : State) (h : Half) (ctx : Nat) : State :=
  match (s.job h ctx).exec with
  | none => s
  | some e =>
    let p := ctx / 32
    let d := (s.half h).dolly
    let a := min e.requests.1 (d.tokensFor 0 p)
    let b := min e.requests.2 (d.tokensFor 1 p)
    (s.modDolly h (fun d => (d.spend 0 p a).spend 1 p b)).modJob h ctx (fun j =>
      { j with exec := j.exec.map (fun e => { e with requests := (e.requests.1 - a, e.requests.2 - b) }) })

/-- The command's requests are all admitted. -/
def Job.admitted (j : Job) : Bool := j.exec.all (fun e => e.requests == (0, 0))

/-! #### ZBM drains (R193) -/

/-- The packed drains of a command: the threads of each, and the lines that its rows, now packed, take. -/
def State.packedDrains (s : State) (h : Half) (e : Exec) (w : Written) : List (List Nat × List Nat) :=
  let plan := e.threads.zip (s.plan h e.recs)
  e.recs.zipIdx.filterMap (fun c =>
    let ids := (plan.filter (fun p => p.2.packed && p.2.chainIx == c.2)).map (·.1)
    let r := (s.desc c.1.oPtr).region
    if ids.isEmpty then none
    else some (ids, (linesOf ((w.cells ++ w.flow).filter (fun x => inRange r.base r.len x.1))).map (· / 64)))

/-- The threads of a drain share its lines as those of any stream do (log entry 112). -/
def Dolly.dealDrain (l : List Nat) (ids : List Nat) (d : Dolly) : Dolly :=
  ids.zipIdx.foldl (fun d p =>
    let mine := dealtLines l ids.length p.2
    { d with threads := tmod {} d.threads p.1 (fun t => { t with lines := some mine, total := mine.length }) }) d

/-- The requests of some lines through one regulator. -/
def State.linesThrough (s : State) (h : Half) (bucket : Nat) (l : List Nat) : Nat :=
  (l.filter (fun a => s.bucketOf h (64 * a) == some bucket)).length

/-- What a command's ZBM drains write is known, and requested with the rest (R193): as many requests as their regulators hold
tokens for are admitted. -/
def State.drainPacked (s : State) (h : Half) (ctx : Nat) (e : Exec) (w : Written) : State :=
  let l := (s.withObjects e.objects).packedDrains h e w
  let all := l.flatMap (·.2)
  ((s.modDolly h (fun d => l.foldl (fun d p => d.dealDrain p.2 p.1) d)).modJob h ctx (fun j =>
    { j with exec := j.exec.map (fun x =>
        { x with drained := true, requests := (s.linesThrough h 0 all, s.linesThrough h 1 all) }) })).admitRequests h ctx

/-! #### The outcome -/

/-- A command whose work is done and whose requests are admitted: it stands written, waits for a scrub of a bank it writes
(R185), is refused by a bank (R182), or ends with CLIP where it is guarded (R89). -/
def State.finish (s : State) (h : Half) (ctx : Nat) (e : Exec) (w : Written) (log : List (BitVec 64)) : State :=
  let cs := e.recs
  let next := fun (t : State) => { t with free := t.free + cs.length }
  let pool := s.poolLines h (linesOf (w.cells ++ w.flow))
  match pool.find? (fun a => !(s.jobOwns h ctx (bankAt h a))) with
  | some a =>
    ((s.flagExec h ctx w.fl).log h
      { code := 0x0402, unit := 2 + bankAt h a / 64, ctx := ctx, tag := e.tag
        detail := s.jobSession h ctx + bankDetail h ctx a }).faultJob
      h ctx 0x21 (bankDetail h ctx a)
  | none =>
    if pool.any (fun a => (s.bank h (bankAt h a)).scrubbing) then s
    else if w.fl.clip && (cs.headD (parseRec [])).guard then next (s.takeWide h ctx w.fl)
    else next ((s.logAttb h ctx (cs.headD (parseRec []))).wrote h ctx cs w log)

/-- The work of a command that holds the array and its threads, from its objects as they were fetched at issue (R100). Page
extents join its declared inputs at the fetch of the page table (R212). -/
def State.work (s0 : State) (h : Half) (ctx : Nat) (e : Exec) (u : Option Upset) : State :=
  let cs := e.recs
  let v := s0.withObjects e.objects
  let s := s0.modJob h ctx (fun j => { j with exec := j.exec.map (fun x => { x with inputs := v.chainInputs cs ++ v.pageInputs cs }) })
  match v.pagesRefused h ctx cs, v.decodeFails h cs, v.regionFails h ctx cs with
  | some d, _, _ => s.faultJob h ctx 0x23 d
  | none, some a, _ =>
    (s.log h { code := 0x0112, unit := 1, ctx := ctx, tag := e.tag, detail := s.jobSession h ctx + a }).faultJob h ctx 0x25 a
  | none, none, some a => s.faultJob h ctx 0x25 a
  | none, none, none =>
    match v.runChain h ctx e.wide u cs with
    | .fault k d => s.faultJob h ctx k d
    | .checkFail pass row fl =>
      let t := s.failCheck h ctx pass row fl
      { t with free := t.free + cs.length }
    | .done w log =>
      if e.drained then s.finish h ctx e w log
      else
        let t := s.drainPacked h ctx e w
        if (t.job h ctx).admitted then t.finish h ctx e w log else t

/-- The record after the command in execution in a job's queue. -/
def State.nextInQueue (s : State) (h : Half) (ctx : Nat) (e : Exec) : Option Rec :=
  let j := s.job h ctx
  match j.entry with
  | none => none
  | some en =>
    let i := j.queueIndex + 1 + e.chain.length
    if i < en.queueLen then some (parseRec (s.record (en.queuePtr + 64 * i))) else none

/-- The record whose early fetch the command in execution lets start (R19): the next of its queue, and none before a FENCE
has printed (R131). -/
def State.earlyNext (s : State) (h : Half) (ctx : Nat) (e : Exec) : Option Rec :=
  if e.recs.any (fun c => c.op == some .fence) then none else s.nextInQueue h ctx e

/-- The requests of a command through one regulator: its threads', and those that R167 gives no thread (log
entry 137). -/
def State.requestsOf (s : State) (h : Half) (bucket : Nat) (cs : List Rec) (plan : List Plan) : Nat :=
  s.requestsThrough h bucket plan +
    s.linesThrough h bucket (cs.flatMap s.otherLines)

/-- A command takes its threads (R164, R167): the early-fetch threads of its job go back first (log entry 113), and those of
the queue's next command start (R19). -/
def State.takeThreads (s : State) (h : Half) (ctx : Nat) (e : Exec) (plan : List Plan) (free : List Nat) : State :=
  let v := s.withObjects e.objects
  let s1 := (s.modDolly h (fun d => d.allocate ctx free (free.zip plan))).modJob h ctx (fun j =>
    { j with exec := j.exec.map (fun x =>
        { x with threads := free, requests := (v.requestsOf h 0 e.recs plan, v.requestsOf h 1 e.recs plan) }) })
  match s.earlyNext h ctx e with
  | some c => s1.startEarly h ctx c
  | none => s1

/-- A command with its threads works once its requests are admitted (R169, R171). -/
def State.workAdmitted (s : State) (h : Half) (ctx : Nat) (u : Option Upset) : State :=
  let s1 := s.admitRequests h ctx
  match (s1.job h ctx).exec with
  | some e => if (s1.job h ctx).admitted then s1.work h ctx e u else s1
  | none => s1

/-- A command that holds the array goes on as far as it can: it waits for threads (R164) and for the tokens of its requests
(R169). -/
def State.proceed (s0 : State) (h : Half) (ctx : Nat) (u : Option Upset) : State :=
  match (s0.job h ctx).exec with
  | none => s0
  | some e =>
    if e.phase ≠ .resumable then s0
    else if !e.threads.isEmpty then s0.workAdmitted h ctx u
    else
      let s := s0.stopEarly h ctx
      let plan := (s.withObjects e.objects).plan h e.recs
      let free := (s.half h).dolly.freeThreads (ctx / 32) plan.length
      if free.length < plan.length then s else (s.takeThreads h ctx e plan free).workAdmitted h ctx u

/-- The issue of the record or chain at the head of a dispatched job's queue (R109): a rejection, or an execution that
waits for its CUE_IN. DESIGN CHOICE (log entry 140): the rejection of a chain is logged with its first record's CMD_TAG. -/
def State.issue (s : State) (h : Half) (ctx : Nat) (cs : List (Nat × Rec)) (halo : Option (Nat × Nat)) : State :=
  let j := s.job h ctx
  let rs := cs.map (·.2)
  let c := rs.headD (parseRec [])
  match s.issueFail h ctx cs j.wideNext with
  | some code =>
    let w := if code = 0x0E then s.wideCode h ctx c.widePtr (parseRec (s.record c.widePtr)) else 0
    s.teardown h ctx code c.tag (s.sessionBits c + w)
  | none =>
    if s.crossHalf h rs halo && (!(s.linkUp h) || (s.half h).link.waitArm) then
      ((if halo.isSome then s.loseRun h ctx else s).teardown h ctx 0x2D c.tag (s.sessionBits c)).modDisp h (Disp.fallBack halo.isSome)
    else
      let e := s.newExec h ctx cs j.wideNext halo
      (s.modJob h ctx (fun j => { j with exec := some e, dark := e.outputs, flow := e.flow })).awaitCue h ctx c

/-- One row of the table for a job's command: the row stands for the record at the head of the dispatched job's queue.
It is issued where it was not, and then works as far as it can; where the row does not stand for the command the half
has dispatched, nothing happens (log entry 3). -/
def State.command (s : State) (h : Half) (ctx : Nat) (op : Op) (mode : Option Nat) (u : Option Upset)
    (halo : Option (Nat × Nat)) : State :=
  onLive s h (fun s =>
    if (s.half h).disp.running ≠ some ctx then s
    else
      let j := s.job h ctx
      match j.exec with
      | some e =>
        if (parseRec e.record).isRow op mode then (s.proceed h ctx u).dispatchBoth else s
      | none =>
        let cs := s.headChain h ctx
        match cs with
        | [] => s
        | p :: _ =>
          if p.2.isRow op mode then ((s.issue h ctx cs halo).proceed h ctx u).dispatchBoth else s)

end Sys2Proof.Machine
end

