-- ==== Sys2Proof/Machine/HznCfg.lean ====
section
/-! DEFINITION. The fields of Horizon's configuration registers and the geometry they give (R258, R259, R269, R270,
R279). -/

namespace Sys2Proof.Machine

open Sys2Proof

/-! ### STREAM_CTL (R258) -/

def StreamCfg.enabled (c : StreamCfg) : Bool := flag c.ctl.toNat 63
def StreamCfg.shadow (c : StreamCfg) : Bool := flag c.ctl.toNat 62
def StreamCfg.port (c : StreamCfg) : Nat := field c.ctl.toNat 61 59
def StreamCfg.vc (c : StreamCfg) : Nat := field c.ctl.toNat 58 57
def StreamCfg.dt (c : StreamCfg) : Nat := field c.ctl.toNat 56 51
def StreamCfg.chanMode (c : StreamCfg) : Nat := field c.ctl.toNat 50 49
def StreamCfg.hdecCode (c : StreamCfg) : Nat := field c.ctl.toNat 48 47
def StreamCfg.vdecCode (c : StreamCfg) : Nat := field c.ctl.toNat 46 45
def StreamCfg.hdec (c : StreamCfg) : Nat := 2 ^ c.hdecCode
def StreamCfg.vdec (c : StreamCfg) : Nat := 2 ^ c.vdecCode
def StreamCfg.landFmt (c : StreamCfg) : Nat := field c.ctl.toNat 44 41
def StreamCfg.landCtx (c : StreamCfg) : Nat := 32 * field c.ctl.toNat 40 38 + field c.ctl.toNat 37 33
def StreamCfg.fsyncSel (c : StreamCfg) : Nat := field c.ctl.toNat 32 31
def StreamCfg.ring (c : StreamCfg) : Nat := field c.ctl.toNat 30 28
def StreamCfg.firstLine (c : StreamCfg) : Nat := field c.ctl.toNat 27 16
def StreamCfg.camera (c : StreamCfg) : Nat := field c.ctl.toNat 15 0

/-! ### STREAM_GEOM (R259) -/

def StreamCfg.linePixels (c : StreamCfg) : Nat := field c.geom0.toNat 63 51 + 1
def StreamCfg.cropX0 (c : StreamCfg) : Nat := field c.geom0.toNat 50 38
def StreamCfg.cropW (c : StreamCfg) : Nat := field c.geom0.toNat 37 25 + 1
def StreamCfg.frameRows (c : StreamCfg) : Nat := field c.geom1.toNat 63 52 + 1
def StreamCfg.cropY0 (c : StreamCfg) : Nat := field c.geom1.toNat 51 40
def StreamCfg.cropH (c : StreamCfg) : Nat := field c.geom1.toNat 39 28 + 1
/-- 2 for a Bayer quad, 1 otherwise. -/
def StreamCfg.quad (c : StreamCfg) : Nat := if c.chanMode = 1 then 2 else 1
/-- Channels of the landed image. -/
def StreamCfg.channels (c : StreamCfg) : Nat := if c.chanMode = 0 then 1 else if c.chanMode = 1 then 4 else 3
/-- Width and height of the landed image. -/
def StreamCfg.outW (c : StreamCfg) : Nat := c.cropW / (c.hdec * c.quad)
def StreamCfg.outH (c : StreamCfg) : Nat := c.cropH / (c.vdec * c.quad)

/-! ### STREAM_RES (R279) -/

/-- RES_CUE0 or RES_CUE1 by the parity of a FRAME_SEQ. -/
def StreamCfg.resCue (c : StreamCfg) (parity : Nat) : Nat :=
  if parity % 2 = 0 then field c.res.toNat 63 49 else field c.res.toNat 48 34
def StreamCfg.freeCue (c : StreamCfg) : Nat := field c.res.toNat 33 19
def StreamCfg.payload (c : StreamCfg) : Nat := 64 * field c.res.toNat 18 9

/-! ### Frames and marks (R276, R277) -/

/-- The frame is marked: bits 0 to 6 of its FRAME_MARK, or a CHECK_FAIL of its run (R276, R370). -/
def Frame.marked (f : Frame) : Bool := f.mark % 128 != 0 || f.withheldBy

/-- A frame of a stream by its FRAME_SEQ. -/
def Stream.frame? (k : Stream) (seq : Nat) : Option Frame := k.frames.find? (fun f => f.seq == seq)

/-- Change one frame of a stream. -/
def State.modFrame (s : State) (h : Half) (k seq : Nat) (f : Frame → Frame) : State :=
  s.modStream h k (fun x => { x with frames := x.frames.map (fun g => if g.seq = seq then f g else g) })

/-- The sheet in force names a stream context (R278). -/
def HalfState.namesStream (x : HalfState) (k : Nat) : Bool :=
  match x.sheet with
  | none => false
  | some sh => sh.streams.any (fun e => e.context == k)

/-- The stream entry of the sheet in force for a context (R323). -/
def HalfState.streamEntry (x : HalfState) (k : Nat) : Option StreamEntry :=
  match x.sheet with
  | none => none
  | some sh => sh.streams.find? (fun e => e.context == k)

/-- The enabled context of a half with a camera's number and a role: home and shadow of one camera bear the same
CAMERA_ID (R258). -/
def HalfState.contextOf (x : HalfState) (camera : Nat) (shadow : Bool) : Option Nat :=
  (x.hzn.streams.find? (fun p => p.2.cfg.enabled && p.2.cfg.camera == camera && p.2.cfg.shadow == shadow)).map (·.1)

/-- The context of the partner half that carries the same camera in the other role. -/
def State.twin (s : State) (h : Half) (k : Nat) : Option Nat :=
  if s.hasHalf (otherHalf h) then
    (s.half (otherHalf h)).contextOf (s.stream h k).cfg.camera (!(s.stream h k).cfg.shadow)
  else none

/-- The context delivers: a home context, or a shadow context while its half holds the partner's tokens, or runs the degraded
sheet and is not paired with a partner that delivers for itself (R277, R375, R376; log entry 147). -/
def State.delivers (s : State) (h : Half) (k : Nat) : Bool :=
  !(s.stream h k).cfg.shadow || (s.half h).isl.holdsTokens || ((s.half h).disp.sheetState == 2 && !(s.half h).isl.paired)

/-- The half delivers a frame: its context delivers, or the half finishes a frame that began before a return boundary
(R380). -/
def State.deliversFrame (s : State) (h : Half) (k : Nat) (f : Frame) : Bool := s.delivers h k || f.kept

/-- DEADLINE_NS of a home context by the sheet in force (R323). -/
def HalfState.deadlineNs (x : HalfState) (k : Nat) : Option Nat :=
  match x.streamEntry k with
  | some e => if e.shadow then none else some e.timeNs
  | none => none

/-- The instant of a frame's deadline: DEADLINE_NS after its last landing (R341), that of its own sheet where an arming has
torn its run down (R327); none where no home stream entry gives one or its last row has not landed. -/
def State.deadline (s : State) (h : Half) (k : Nat) (f : Frame) : Option Nat :=
  match f.abandonNs.or ((s.half h).deadlineNs k), f.lastLanding with
  | some n, some t => some (t + n)
  | _, _ => none

/-- DEADLINE_NS of the home context of a stream of the partner half, by the sheet the partner holds (R323). -/
def State.homeTime (s : State) (h : Half) (k : Nat) : Option Nat :=
  match s.twin h k, (s.half (otherHalf h)).disp.active with
  | some j, some sh => (sh.streams.find? (fun e => e.context == j && !e.shadow)).map (·.timeNs)
  | _, _ => none

/-- The instant of a frame's deadline on the context that delivers it: on a shadow context the home context's DEADLINE_NS
counts from the shadow's own last landing (R277, R375; log entry 111). -/
def State.frameDeadline (s : State) (h : Half) (k : Nat) (f : Frame) : Option Nat :=
  match s.deadline h k f with
  | some d => some d
  | none =>
    if (s.stream h k).cfg.shadow then
      match f.lastLanding, s.homeTime h k with
      | some t, some n => some (t + n)
      | _, _ => none
    else none

/-- Both halves compute a striped frame of a shadow stream: a job of the shadow's half other than a BACKUP job names the
stream (R247; log entry 108). -/
def HalfState.stripes (x : HalfState) (k : Nat) : Bool :=
  match x.sheet with
  | none => false
  | some sh => sh.jobs.any (fun e => e.stream == k && !e.backup)

/-- The stream of a context is striped, seen from either half (R247; log entry 108). -/
def State.striped (s : State) (h : Half) (k : Nat) : Bool :=
  if (s.stream h k).cfg.shadow then (s.half h).stripes k
  else (s.twin h k).any (s.half (otherHalf h)).stripes

end Sys2Proof.Machine
end

