-- ==== Sys2Proof/Machine/Delivery.lean ====
section
/-! DEFINITION. Delivery of results: records and result rings in host memory (R279 to R285), MSI-X messages (R462),
print tokens (R342, R343) and the end of a frame's runs (R39, R370). -/

namespace Sys2Proof.Machine

open Sys2Proof

/-! ### Host memory and MSI-X (R280, R283, R462) -/

/-- Bytes written into host memory. -/
def State.hostWrite (s : State) (a : Nat) (l : List Byte) : State := { s with hostMem := memWrite s.hostMem a l }

/-- The vector may signal (R462, R463): MSI-X is enabled, and neither the function nor the vector is masked (log entry 79). -/
def Pcie.vectorOpen (p : Pcie) (v : Nat) : Bool :=
  p.msixOn && !p.msixHeld && !(flag (leAt (tget (toLe 16 (2 ^ 96)) p.msixTable v) 12 4) 0)

/-- A message of a vector is sent, or noted as pending where the vector may not signal (R462). -/
def Pcie.msix (p : Pcie) (v : Nat) : Pcie :=
  if p.vectorOpen v then { p with msixSent := v :: p.msixSent } else { p with msixPending := p.msixPending ||| 2 ^ v }

/-- The endpoint can issue posted writes (R374, R463, R465), and no shutdown has been requested (R421). -/
def HalfState.canPost (x : HalfState) : Bool :=
  x.pcie.linkState == 2 && x.pcie.busMaster && !x.pcie.d3hot && !x.isl.fenced &&
    x.zen.power != .testing && x.zen.power != .testDone

/-! ### Records (R281, R282) -/

/-- What a record's header says. -/
structure RecordInfo where
  frameSeq : Nat
  camera : Nat
  status : Nat
  flags : Nat
  mark : Nat
  retakes : Nat
  tag : Nat
  latency : Nat
  printLine : Nat
deriving DecidableEq, Repr

/-- Bytes 0x00 to 0x3B of a record (R281). -/
def recordHead (seq : Nat) (i : RecordInfo) (bytes : Nat) : List Byte :=
  toLe 8 seq ++ toLe 4 i.frameSeq ++ toLe 2 i.camera ++ toLe 1 i.status ++ toLe 1 i.flags ++ toLe 2 i.mark ++
  toLe 2 bytes ++ toLe 2 i.retakes ++ toLe 2 i.tag ++ toLe 4 i.latency ++ toLe 2 i.printLine ++ List.replicate 30 0

/-- The whole record: header with RECORD_CRC, and payload. -/
def recordBytes (seq : Nat) (i : RecordInfo) (payload : List Byte) : List Byte × List Byte :=
  let head := recordHead seq i payload.length
  (head ++ toLe 4 (crc32c (head ++ payload)), payload)

/-- Free slots of a ring, by CONSUMER as last read (R284). -/
def Ring.free (r : Ring) : Nat := 2 ^ r.slotsLog2 - (r.producer + 2 ^ 32 - r.consumer) % 2 ^ 32

/-- Write one record: payload, header, control block, MSI-X (R283). A data record also sets LAST_FRAME. -/
def State.putRecord (s : State) (h : Half) (r : Nat) (i : RecordInfo) (payload : List Byte) (isData : Bool) : State :=
  let g := s.ring h r
  let slot := g.base + g.nextSeq % 2 ^ g.slotsLog2 * 2 ^ g.slotLog2
  let b := recordBytes g.nextSeq i payload
  let g1 : Ring :=
    { g with
      producer := (g.producer + 1) % 2 ^ 32, nextSeq := (g.nextSeq + 1) % 2 ^ 64
      lastFrame := if isData then i.frameSeq % 2 ^ 32 else g.lastFrame }
  let s1 := ((s.hostWrite (slot + 64) b.2).hostWrite slot b.1)
  let s2 := ((s1.hostWrite g.cb (toLe 4 g1.producer)).hostWrite (g.cb + 8) (toLe 8 g1.nextSeq)).hostWrite (g.cb + 16)
    (toLe 4 g1.lastFrame)
  (s2.modRing h r (fun _ => g1)).modPcie h (fun p => p.msix g.msix)

/-- FLAGS of a record that reports no printed result: the writing half, CHECK_PASS clear (R370), the rest free. -/
def bareFlags (h : Half) (n : Nat) : Nat :=
  halfNum h + 2 * (Config.recordField n 5 % 2) + 8 * (Config.recordField n 6 % 8)

/-- The header of a record that reports no printed result: the fields no rule states are free (log entry 16). -/
def State.bareInfo (s : State) (h : Half) (status : Nat) : RecordInfo :=
  { frameSeq := Config.recordField s.free 0, camera := 0xFFFF, status := status, flags := bareFlags h s.free
    mark := Config.recordField s.free 1, retakes := Config.recordField s.free 2, tag := Config.recordField s.free 3
    latency := 0xFFFFFFFF, printLine := Config.recordField s.free 4 }

/-- OVERFLOW, once two slots are free and records were dropped (R284). -/
def State.putOverflow (s : State) (h : Half) (r : Nat) : State :=
  let g := s.ring h r
  if g.enable && (s.half h).canPost && !g.gapDue && decide (2 ≤ g.free) && decide (0 < g.dropped) then
    let s1 := { s with free := s.free + 1 }.putRecord h r (s.bareInfo h 0x11)
      (toLe 4 g.dropped ++ toLe 4 g.firstDropped ++ toLe 4 g.lastDropped) false
    s1.modRing h r (fun g => { g with dropped := 0 })
  else s

/-- A record that does not fit is dropped and takes no RECORD_SEQ (R284, R453, R465). -/
def Ring.drop (frame : Nat) (g : Ring) : Ring :=
  { g with
    dropped := satAdd 0xFFFFFFFF g.dropped 1
    firstDropped := if g.dropped = 0 then frame else g.firstDropped, lastDropped := frame }

/-- Write a data record of a stream's frame, or drop it (R284); either way the frame has had its record (R39). -/
def State.deliver (s : State) (h : Half) (k : Nat) (i : RecordInfo) (payload : List Byte) : State :=
  let r := (s.stream h k).cfg.ring
  let s1 := s.putOverflow h r
  let g := s1.ring h r
  let s2 :=
    if g.enable && (s1.half h).canPost && decide (2 ≤ g.free) then
      (s1.putRecord h r i payload true).modStream h k (fun x => { x with lastRecord := some i.frameSeq })
    else s1.modRing h r (Ring.drop i.frameSeq)
  s2.modFrame h k i.frameSeq (fun f => { f with recorded := true })

/-- FRAME_MARK bits of a frame as a record carries them. -/
def Frame.mark16 (f : Frame) : Nat := f.mark % 65536

/-- The record of a frame whose result printed (R281, R282). LATENCY_NS of a result that printed before its frame's last
landing is a free value: no rule states a negative one (log entry 16). -/
def State.resultInfo (s : State) (h : Half) (k : Nat) (f : Frame) : RecordInfo :=
  let t := f.printed.getD 0
  let late := match s.frameDeadline h k f with
    | some d => decide (d < t)
    | none => f.deadlinePassed
  let landed := f.lastLanding.getD 0
  { frameSeq := f.seq, camera := (s.stream h k).cfg.camera
    status := if f.fallback then 3 else if late then 1 else 0
    flags := halfNum h + 2 * f.status8, mark := f.mark16, retakes := f.retakes, tag := f.cmdTag
    latency := if t < landed then Config.recordField s.free 7 else min 0xFFFFFFFF (t - landed), printLine := f.printLine }

/-- The WITHHELD record of a frame (R277): no payload. A frame whose result has printed (R287) has the fields of its result
command (R281); for any other, the fields no rule states are free. CHECK_PASS is clear after a CHECK_FAIL (R370). -/
def State.withheldInfo (s : State) (h : Half) (k : Nat) (f : Frame) : RecordInfo :=
  if f.printed.isSome then
    let i := s.resultInfo h k f
    { i with status := 2, flags := if f.withheldBy then i.flags - i.flags / 4 % 2 * 4 else i.flags }
  else { s.bareInfo h 2 with frameSeq := f.seq, camera := (s.stream h k).cfg.camera, mark := f.mark16 }

/-- Deliver a frame as WITHHELD (R277). Its token is then held where the record stands, so that no second record can
follow (R39). -/
def State.withhold (s : State) (h : Half) (k seq : Nat) : State :=
  match (s.stream h k).frame? seq with
  | none => s
  | some f =>
    if f.recorded then s
    else
      (({ s with free := s.free + 1 }.deliver h k (s.withheldInfo h k f) [])).modFrame h k seq (fun f =>
        { f with token := .heldBy h })

/-! ### Runs of a frame (R343, R370) -/

/-- Jobs of a half that compute a frame of a stream and whose run has not ended. -/
def HalfState.runsOf (x : HalfState) (k seq : Nat) : List Nat :=
  (x.disp.jobs.filter (fun p =>
    p.2.active && p.2.frame == some seq && (p.2.entry.map (fun e => e.stream == k)).getD false)).map (·.1)

/-- End a run without a fault: its command is killed and not retaken (R343). -/
def State.stopRun (s : State) (h : Half) (ctx : Nat) : State :=
  if (s.job h ctx).exec.isSome then s.kill h ctx .none
  else (s.modDisp h (Disp.leave ctx)).endRun h ctx

/-- End every run of a frame in a half. -/
def State.stopRuns (s : State) (h : Half) : List Nat → State
  | [] => s
  | c :: r => State.stopRuns (s.stopRun h c) h r

/-! ### The result command of a stream (R279, R342) -/

/-- The cues a record signals at its print, in order (R128). -/
def Rec.signals (c : Rec) : List (Nat × Nat) :=
  (if c.amt0 = 0 then [] else [(c.cue0, c.amt0)]) ++ (if c.amt1 = 0 then [] else [(c.cue1, c.amt1)])

/-- The stream and parity whose result a record prints: the stream whose RES_CUE it names in a CUE_OUT field. -/
def HalfState.resultOf (x : HalfState) (c : Rec) : Option (Nat × Nat) :=
  ((x.hzn.streams.filter (fun p => p.2.cfg.enabled && x.namesStream p.1)).flatMap (fun p =>
    [(p.1, 0), (p.1, 1)].filter (fun q => c.signals.any (fun g => g.1 == p.2.cfg.resCue q.2)))).head?

/-- The frame whose result a job's result command prints: the run's frame where it has that parity, else the latest
frame of that parity without a record (R279); else the latest one, whose record came from elsewhere or was withheld and
whose token is therefore denied (R343). -/
def State.resultFrame (s : State) (h : Half) (ctx k parity : Nat) : Option Frame :=
  let fs := (s.stream h k).frames.filter (fun f => f.seq % 2 == parity && (!f.recorded || f.printed.isNone))
  match fs.find? (fun f => some f.seq == (s.job h ctx).frame) with
  | some f => some f
  | none =>
    match fs.find? (fun f => !f.recorded) with
    | some f => some f
    | none => fs.head?

/-! ### Token requests of a shadow context (R306, R343) -/

/-- A request reaches the home half: the halves are paired and the link is up. -/
def State.tokenPath (s : State) (h : Half) : Bool := (s.half h).isl.paired && s.linkUp h && s.live (otherHalf h)

/-- A command of half `h` asks the home half for its frame's token, unless its request or the answer is on its way. -/
def State.askToken (s : State) (h : Half) (ctx k seq : Nat) : State :=
  if s.tokenOut h ctx then s else s.send h (.tokenAsk ctx (s.stream h k).cfg.camera seq)

end Sys2Proof.Machine
end

