-- ==== Sys2Proof/Machine/Print.lean ====
section
/-! DEFINITION. Print (R29, R110), the end of a kill (R36), the command watchdog (R103, R365), and the faults that tear
a job down (R333, R345, R347). -/

namespace Sys2Proof.Machine

open Sys2Proof

/-! ### The steps of a print (R29) -/

/-- One atomic of a print log (R188), after the check of its line (R176): a corrected word is the one it takes (R202). A word
that cannot be corrected is counted and logged; its command prints already, and the word's new contents are free (DESIGN
CHOICE, log entry 156). -/
def State.runAtomic (s : State) (h : Half) (ctx : Nat) (check : LineCheck) (e : BitVec 64) : State × Flags :=
  let a := atomicAddr h e
  let bank := bankAt h a
  let s1 := s.lineCheck h bank check
  match check with
  | .uncorrectable word syn =>
    (((s1.markUndef { base := a, len := 4 }).disagree h (2 + bank / 64)).log h
      (bankUe bank (bankLine (a - poolBase h)) word syn ctx (s.tagOf h ctx) (s.jobSession h ctx)), {})
  | _ =>
    let x := atomicResult e (s1.readLe a 4)
    (s1.writeBytes a (toLe 4 x.1), x.2)

/-- The print log executed in order (R188), with the checks of its lines; one without a check has no error. -/
def State.runAtomics (s : State) (h : Half) (ctx : Nat) : List LineCheck → List (BitVec 64) → State × Flags
  | _, [] => (s, {})
  | cs, e :: r =>
    let x := s.runAtomic h ctx (cs.headD .ok) e
    let y := State.runAtomics x.1 h ctx cs.tail r
    (y.1, x.2.join y.2)

/-- Step 1: the staged bytes are written and the output regions are light; flow regions and the score buffer of an ATTB
are undefined (R135, R227). -/
def State.makeLight (s : State) (h : Half) (ctx : Nat) (e : Exec) : State :=
  ((s.writeCells e.staged).markUndefs e.flow).modJob h ctx (fun j => { j with dark := [], flow := [] })

/-- Add to a job's amounts of a cue (R332). -/
def holdAdd (cue acq sig : Nat) : List Hold → List Hold
  | [] => [{ cue := cue, acquired := acq, signalled := sig }]
  | x :: r =>
    if x.cue = cue then { x with acquired := x.acquired + acq, signalled := x.signalled + sig } :: r
    else x :: holdAdd cue acq sig r

/-- Step 3: the escrow is committed, and counts as acquired by a printed command (R332). -/
def Job.commit (e : Exec) (j : Job) : Job :=
  { j with holds := e.escrow.foldl (fun l p => holdAdd p.1 p.2 0 l) j.holds }

/-- Step 4: one cue signal; a cue homed in the partner half is signalled by message (R306, R337). -/
def State.fire (s : State) (h : Half) (ctx tag : Nat) (p : Nat × Nat) : State :=
  let s1 := s.modJob h ctx (fun j => { j with holds := holdAdd p.1 0 p.2 j.holds })
  if cueHome p.1 = h then s1.signalCue ctx tag (s.jobSession h ctx) p.1 p.2 else s1.send h (.signal p.1 p.2)

/-- The signals of a print, in order. -/
def State.fireAll (s : State) (h : Half) (ctx tag : Nat) (l : List (Nat × Nat)) : State :=
  l.foldl (fun t p => t.fire h ctx tag p) s

/-- The completion status of a printed execution (R110). -/
def statusWord (e : Exec) (retakes : Nat) (fl : Flags) : Nat :=
  e.tag % 65536 * 2 ^ 48 + min 0xFFFF retakes * 2 ^ 32 + bitOf e.wide * 2 ^ 15 + bitOf e.checkPass * 2 ^ 14 +
  bitOf fl.clip * 2 ^ 13 + bitOf fl.nan * 2 ^ 12 + bitOf fl.infIn * 2 ^ 11

/-- The status goes to entry k mod 2^COMPL_LOG2 of the job's completion ring (R322). -/
def State.complete (s : State) (h : Half) (ctx w : Nat) : State :=
  let j := s.job h ctx
  match j.entry with
  | none => s
  | some e =>
    (s.writeBytes (e.complPtr + 8 * (j.compl % 2 ^ e.complLog2)) (toLe 8 w)).modJob h ctx (fun j =>
      { j with compl := j.compl + 1 })

/-- The events a print logs: CLIP, WIDE_CLIP (R89, R93) and the other flags (R59). -/
def State.logPrint (s : State) (h : Half) (ctx : Nat) (e : Exec) (fl : Flags) : State :=
  let s1 := if fl.clip then
      s.log h { code := if e.wide then 0x42 else 0x40, unit := 8, ctx := ctx, tag := e.tag
                detail := s.execSession e } else s
  if fl.nan || fl.infIn then
    s1.logUnlisted h .printFlags
      { code := 0, unit := 8, ctx := ctx, tag := e.tag
        detail := s.execSession e + bitOf fl.nan * 2 + bitOf fl.infIn }
  else s1

/-- The CRC of a slate command goes to the island (R368, R369): a difference from the signature of its CMD_TAG is
SLATE_MISMATCH, a disagreement of the array, and a LOCALISE slice falls due. -/
def State.checkSlate (s : State) (h : Half) (ctx : Nat) (e : Exec) : State :=
  if (parseRec e.record).slate then
    match (s.half h).disp.slateSigs.find? (fun p => p.1 == e.tag) with
    | some p =>
      if p.2 = e.slateCrc then s
      else
        ((s.log h { code := 0x0502, unit := 0, ctx := ctx, tag := e.tag, detail := e.tag }).disagree h 0).modIsl h
          (fun i => { i with slicesDue := if i.slicesDue.contains 16 then i.slicesDue else i.slicesDue ++ [16] })
    | none => s
  else s

/-- A result command's frame takes what its record will say (R281, R282). -/
def State.notePrint (s : State) (h : Half) (ctx : Nat) (e : Exec) (retakes : Nat) (fl : Flags) : State :=
  match (s.half h).resultOf ((e.recs).getLastD (parseRec [])) with
  | none => s
  | some (k, par) =>
    match s.resultFrame h ctx k par with
    | none => s
    | some f =>
      s.modFrame h k f.seq (fun f =>
        { f with
          printed := some s.now, printLine := (s.half h).hzn.lineNo
          status8 := bitOf e.wide + 2 * bitOf e.checkPass + 4 * bitOf fl.clip + 8 * bitOf fl.nan + 16 * bitOf fl.infIn
          retakes := min 0xFFFF retakes, cmdTag := e.tag, fallback := decide ((s.half h).disp.sheetState = 2) })

/-- The queue moves on past the printed record or chain; the last print ends the run (R321). -/
def State.nextRecord (s : State) (h : Half) (ctx : Nat) (e : Exec) : State :=
  let s1 := (((s.freeThreads h e).freeCredits h ctx).modDisp h (Disp.leave ctx)).modJob h ctx (fun j =>
    { j with
      exec := none, status := .released, queueIndex := j.queueIndex + 1 + e.chain.length, kills := 0, retakes := 0
      expiries := 0, satisfied := false, wideNext := false })
  match (s1.job h ctx).entry with
  | some en => if en.queueLen ≤ (s1.job h ctx).queueIndex then s1.endRun h ctx else s1
  | none => s1

/-- Director code reads the tag line its consuming job expects and faults the job with HALO_TAG (0x24) where TAG or the
producing half differs (R244, R245). -/
def State.checkHalo (s : State) (h : Half) (ctx : Nat) (e : Exec) : State :=
  match e.halo with
  | none => s
  | some (a, tag) =>
    if s.readLe a 4 = tag % 2 ^ 32 ∧ s.readLe (a + 4) 1 = halfNum (otherHalf h) then s
    else (s.modDisp h (Disp.leave ctx)).teardown h ctx 0x24 e.tag a

/-- A print, in the order of R29, and what follows it. -/
def State.printNow (s : State) (h : Half) (ctx : Nat) (e : Exec) (checks : List LineCheck) : State :=
  let retakes := (s.job h ctx).retakes
  let last := (e.recs).getLastD (parseRec [])
  let s1 := s.makeLight h ctx e
  let x := s1.runAtomics h ctx checks e.printLog
  let fl : Flags := Flags.join { clip := e.clip, nan := e.nan, infIn := e.infIn } x.2
  let s2 := (x.1.notePrint h ctx e retakes fl).modJob h ctx (Job.commit e)
  let s3 := s2.fireAll h ctx e.tag last.signals
  let s4 := (s3.complete h ctx (statusWord e retakes fl)).logPrint h ctx e fl
  ((s4.checkSlate h ctx e).nextRecord h ctx e).checkHalo h ctx e

/-- What stands between a written command and its print: none, the wait for its frame's print token, or a kill without
retake (R277, R343, R370, R380). -/
inductive PrintGate where
  | print
  | wait
  | stop
deriving DecidableEq, Repr

/-- The gate of a written command. -/
def State.gate (s : State) (h : Half) (ctx : Nat) (e : Exec) : PrintGate :=
  match (s.half h).resultOf ((e.recs).getLastD (parseRec [])) with
  | none => .print
  | some (k, par) =>
    if (s.half h).isl.withholding && !(s.stream h k).cfg.shadow then .stop
    else
      match s.resultFrame h ctx k par with
      | none => .print
      | some f => if f.marked || f.recorded then .stop else if e.tokenHeld then .print else .wait

/-- A command that waits for its frame's token on a shadow context asks the home half for it (R343). -/
def State.requestToken (s : State) (h : Half) (ctx : Nat) (e : Exec) : State :=
  match (s.half h).resultOf ((e.recs).getLastD (parseRec [])) with
  | none => s
  | some (k, par) =>
    match s.resultFrame h ctx k par with
    | none => s
    | some f =>
      if (s.stream h k).cfg.shadow && !(s.deliversFrame h k f) && s.tokenPath h then s.askToken h ctx k f.seq else s

/-- A logged atomic's bank is being scrubbed: the owner's write waits until the scrub ends (R185). -/
def State.scrubHolds (s : State) (h : Half) (e : Exec) : Bool :=
  e.printLog.any (fun a => (s.bank h (bankOf (4 * atomicWord a))).scrubbing)

/-- PRINT (R29): the dispatched command has written all its results, and every byte of them is acknowledged (R297,
R307). -/
def execPrint (t : Nat) (h : Half) (printing : Printing) (s : State) : Host.Outcome State Fault Refusal :=
  .next (onLive (s.advance t) h (fun s =>
    let ctx := printing.ctx
    match (s.job h ctx).exec with
    | none => s
    | some e =>
      if e.phase ≠ .written ∨ (s.half h).disp.running ≠ some ctx ∨ e.acksDue ≠ 0 ∨ e.hbmDue ≠ [] then s
      else if s.scrubHolds h e then s
      else
        match s.gate h ctx e with
        | .wait => s.requestToken h ctx e
        | .stop => s.kill h ctx .none
        | .print => (s.printNow h ctx e printing.checks).dispatchBoth))

/-! ### The end of a kill (R36, R165, R308) -/

/-- The wide variant is issued at once (R89): WIDE_TAKEN is logged, and the record passes the checks of R109 again, which
it can fail only where software breached R102 (R90), and the link is tested as at any issue (R23). Its declared regions are its
own. -/
def State.issueWide (s : State) (h : Half) (ctx : Nat) (e : Exec) : State :=
  let w := parseRec e.wideRecord
  let s1 := s.log h { code := 0x41, unit := 8, ctx := ctx, tag := e.tag, detail := e.flagBits }
  let s2 := (s1.modJob h ctx (fun j =>
    { j with
      retakes := satAdd 0xFFFF j.retakes 1, status := .running
      exec := some { e with
        record := e.wideRecord, wide := true, phase := .resumable, threads := [], clip := false, nan := false
        infIn := false, retake := .none, answered := [], inputs := s.chainInputs [w], outputs := s.chainOutputs [w]
        drained := false, objects := s.objectCells [((parseRec e.record).widePtr, w)] } })).modDisp h
          (fun d => { d with running := some ctx })
  match s2.wideCode h ctx (parseRec e.record).widePtr w with
  | 0 =>
    if s2.crossHalf h [w] e.halo && (!(s2.linkUp h) || (s2.half h).link.waitArm) then s2.teardown h ctx 0x2D e.tag 0
    else s2
  | code => s2.teardown h ctx code e.tag 0

/-- What follows a kill (R37, R38, R89, R321, R346). -/
def State.afterKill (s : State) (h : Half) (ctx : Nat) (e : Exec) : State :=
  let s1 := s.modDisp h (Disp.leave ctx)
  let clear := fun (st : JobStatus) (j : Job) => { j with exec := none, status := st }
  let j := s.job h ctx
  if j.status = .teardown then
    let s2 := s1.modJob h ctx (fun j =>
      { clear (if j.entry.isNone then .idle else .faulted) j with dark := [], flow := [], teardownAt := none })
    if j.deferredRelease then s2.startRun h ctx j.frame else s2
  else if j.deferredRelease then (s1.modJob h ctx (clear .idle)).startRun h ctx j.frame
  else
    match e.retake with
    | .none => s1.endRun h ctx
    | .same => s1.modJob h ctx (fun j => { clear .released j with retakes := satAdd 0xFFFF j.retakes 1 })
    | .wide => s.issueWide h ctx e

/-- The kill notice of a job's command has not reached the partner (R308). -/
def State.noticeDue (s : State) (h : Half) (ctx : Nat) : Bool := (s.half h).link.outbox.contains (.killed ctx)

/-! ### Watchdog and job faults (R103, R333, R345, R365) -/

/-- The half's watchdogs are suspended: a lockstep pair is halted by the debugger (R355). -/
def HalfState.suspended (x : HalfState) : Bool := x.isl.pairs.any (·.halted)

/-- COMMAND_WATCHDOG (R103, R365): the watchdog of a command that has been issued, is not parked and is not printed
expires at its limit. The first expiry of a record is class 1, a second one CMD_WATCHDOG (0x2C), class 3. -/
def execCommandWatchdog (t : Nat) (h : Half) (ctx : Nat) (s : State) : Host.Outcome State Fault Refusal :=
  .next (onLive (s.advance t) h (fun s =>
    match (s.job h ctx).exec with
    | none => s
    | some e =>
      if e.phase = .parked ∨ e.phase = .killing ∨ (s.half h).suspended = true ∨ 16 * (s.now - e.startedAt) < e.budget then s
      else if (s.job h ctx).expiries = 0 then
        ((s.modJob h ctx (fun j => { j with expiries := 1 })).log h
          { code := 0x2C, cls := 1, ctx := ctx, tag := e.tag, detail := s.jobSession h ctx }).kill h ctx .same
      else (s.teardown h ctx 0x2C e.tag 0).dispatchBoth))

/-- A suspension that began at place (line, ns) has lasted `n` whole lines (R333). -/
def Hzn.lasted (now n : Nat) (z : Hzn) (p : Nat × Nat) : Bool :=
  decide (p.1 + n < z.lines) || (z.lines == p.1 + n && decide (p.2 ≤ now - z.lineStart))

/-- CUE_HOLD_OVERRUN (R333): a hold of the job has suspended a pre-emption for HOLD_MAX lines; the job is torn down. -/
def execCueHoldOverrun (t : Nat) (h : Half) (ctx : Nat) (s : State) : Host.Outcome State Fault Refusal :=
  .next (onLive (s.advance t) h (fun s =>
    match (s.half h).disp.deferredPreempt.find? (fun p => p.1 == ctx), (s.half h).sheet with
    | some p, some sh =>
      if (s.half h).hzn.lasted s.now sh.holdMax p.2 then
        (s.teardown h ctx 0x27 (s.tagOf h ctx) sh.holdMax).dispatchBoth
      else s
    | _, _ => s))

/-- SLOT_OVERRUN (R345): RETAKE_LIMIT consecutive kills of one command without a print; the job is torn down. -/
def execSlotOverrun (t : Nat) (h : Half) (ctx : Nat) (s : State) : Host.Outcome State Fault Refusal :=
  .next (onLive (s.advance t) h (fun s =>
    let j := s.job h ctx
    match j.entry with
    | none => s
    | some e =>
      if j.active && decide (e.retakeLimit ≤ j.kills) && decide (0 < e.retakeLimit) then
        (s.teardown h ctx 0x26 (s.tagOf h ctx) j.kills).dispatchBoth
      else s))

/-! ### Partition reset (R347) -/

/-- Jobs of a half whose entry stands in the running sheet, or that run, in one partition. -/
def HalfState.jobsOf (x : HalfState) (p : Nat) : List Nat :=
  (x.disp.jobs.filter (fun j => j.1 / 32 == p && (j.2.entry.isSome || j.2.exec.isSome))).map (·.1)

/-- A job of the partition has been in teardown for more than `ns`. -/
def State.teardownOver (s : State) (h : Half) (p ns : Nat) : Bool :=
  ((s.half h).jobsOf p).any (fun c =>
    (s.job h c).status == .teardown && (match (s.job h c).teardownAt with
      | some t => decide (t + ns < s.now)
      | none => false))

/-- The forced teardown of one job: its command is gone, and a release that waited starts its run (R321, R347). -/
def State.forceDown (s : State) (h : Half) (ctx : Nat) : State :=
  let s1 := if (s.job h ctx).status = .teardown then s else s.teardown h ctx 0 0 0
  let j := s1.job h ctx
  let s2 := match j.exec with
    | some e => ((((s1.freeThreads h e).freeCredits h ctx).dropWaiters (otherHalf h) h ctx).returnEscrow (otherHalf h) e.escrow)
    | none => s1
  let s3 := ((s2.stopEarly h ctx).modJob h ctx (fun j =>
    { j with
      exec := none, dark := [], flow := [], teardownAt := none, status := .faulted
      fault := if j.status = .teardown ∧ j.fault ≠ 0 then j.fault else 0x28 })).modDisp h (Disp.leave ctx)
  if j.deferredRelease then s3.startRun h ctx j.frame else s3

/-- Threads of a partition's groups are free (R347). -/
def Dolly.resetGroups (d : Dolly) (p : Nat) : Dolly :=
  let mine := fun (g : Nat) => (tget ({} : Group) d.groups g).part == p
  { d with
    threads := d.threads.filter (fun t => !(mine (t.1 / 256)))
    groups := d.groups.map (fun g => if g.2.part = p then (g.1, { g.2 with active := 0 }) else g) }

/-- Cues whose USERS names only the partition return to INIT (R347). -/
def Disp.resetCues (d : Disp) (p : Nat) : Disp :=
  { d with cues := d.cues.map (fun c => if c.2.users = 2 ^ p then (c.1, { c.2 with counter := c.2.init }) else c) }

end Sys2Proof.Machine
end

