-- ==== Sys2Proof/Machine/Banks.lean ====
section
/-! DEFINITION. Bank handovers (R181 to R185), and the writes of the partner half (R307, R314). -/

namespace Sys2Proof.Machine

open Sys2Proof

/-- A range holds a line of a bank (R174). -/
def touchesBank (h : Half) (bank : Nat) (r : Region) : Bool :=
  let set := poolBase h + bank / 16 * 2 ^ 23
  let lo := max r.base set
  let hi := min (r.base + r.len) (set + 2 ^ 23)
  decide (lo < hi) &&
    (decide (lo / 64 + 15 ≤ (hi - 1) / 64) ||
      ((List.range 16).any (fun i => decide ((lo / 64 + i) * 64 < hi) && field (lo / 64 + i) 3 0 == bank % 16)))

/-- An execution has a declared output region, a flow region or a logged atomic target in a bank (R184). -/
def Exec.usesBank (h : Half) (bank : Nat) (e : Exec) : Bool :=
  (e.outputs ++ e.flow).any (touchesBank h bank) || e.printLog.any (fun a => bankOf (4 * atomicWord a) == bank)

/-- The job that owns a bank has an unprinted command that uses it (R184): in execution, or killed and waiting for its retake,
whose output and flow regions stay its own. -/
def State.bankBusy (s : State) (h : Half) (bank : Nat) : Bool :=
  let b := s.bank h bank
  let j := s.job h (b.ownerPart * 32 + b.ownerRole)
  b.owned && ((j.dark ++ j.flow).any (touchesBank h bank) || (match j.exec with
    | some e => e.usesBank h bank
    | none => false))

/-- The fields a BANK_CTL value writes together (R181, R183). -/
def Bank.write (v : Nat) (b : Bank) : Bank :=
  { b with
    owned := flag v 31, hostWr := flag v 30, scrubbing := b.scrubbing || flag v 29, ownerPart := field v 7 5
    ownerRole := field v 4 0 }

/-- An accepted handover takes effect at once; SCRUB zeroes the bank, which reads as zero from now on (R183, R185). -/
def State.handover (s : State) (h : Half) (bank v : Nat) : State :=
  let s1 := s.modBank h bank (Bank.write v)
  if flag v 29 then s1.zeroBank h bank else s1

/-- A handover by the continuity island, which first tears down the owner's job where its unprinted command uses the
bank (R184). -/
def State.islandHandover (s : State) (h : Half) (bank v : Nat) : State :=
  let b := s.bank h bank
  let s1 := if s.bankBusy h bank then s.teardown h (b.ownerPart * 32 + b.ownerRole) 0 0 0 else s
  s1.handover h bank v

/-- A refused handover is logged (R183, R184). -/
def State.refuseHandover (s : State) (h : Half) (bank tag : Nat) : State :=
  s.log h { code := 0x0403, unit := 2 + bank / 64, ctx := tag, detail := bank }

/-- BANK_CTL is written (R183): accepted from the owner in the secure world (R199) and from the continuity island, refused
from any other writer. -/
def State.bankCtl (s : State) (h : Half) (bank v : Nat) : Writer → State
  | .island => s.islandHandover h bank v
  | .job ctx .secure =>
    if (s.bank h bank).ownedBy ctx && !(s.bankBusy h bank) then s.handover h bank v else s.refuseHandover h bank ctx
  | .job ctx .nonSecure => s.refuseHandover h bank ctx
  | .firmware => s.refuseHandover h bank 0xFF
  | .host _ => s.refuseHandover h bank 0xFF

/-- BANK_CTL_WRITE (R183). -/
def execBankCtlWrite (t : Nat) (h : Half) (bank : Nat) (v : BitVec 32) (who : Writer) (s : State) :
    Host.Outcome State Fault Refusal :=
  .next (onHalf (s.advance t) h (fun s => s.bankCtl h bank v.toNat who))

/-! ### Packets of the partner half (R185, R304, R307, R314) -/

/-- The lines a packet writes lie in banks the producing job owns in the receiving half (R182). -/
def State.packetOwned (s : State) (h : Half) (p : LinkPacket) : Bool :=
  s.ownsRange h p.ctx { base := p.addr, len := p.bytes.length }

/-- A packet's banks are being scrubbed: it waits (R185). -/
def State.packetWaits (s : State) (h : Half) (p : LinkPacket) : Bool :=
  (banksOf h { base := p.addr, len := p.bytes.length }).any (fun b => (s.bank h b).scrubbing)

/-- A refused packet is discarded, and its command is killed and its job faulted in the producing half (R182, R314). The
entry names the first line that a bank refuses. -/
def State.refusePacket (s : State) (h : Half) (p : LinkPacket) (owner : Bool) : State :=
  let src := otherHalf h
  let l := s.foreignLine h p.ctx { base := p.addr, len := p.bytes.length }
  let s1 := if owner then
      s.log h { code := 0x0402, unit := 2 + bankAt h l / 64, ctx := p.ctx, tag := s.tagOf src p.ctx
                detail := bankDetail h p.ctx l }
    else s
  s1.faultJob src p.ctx (if owner then 0x21 else 0x25) p.addr

/-- One packet leaves the write queue of half `h`: it is written into the dark region and acknowledged (R307), or refused.
One whose command has been killed is discarded (R308). -/
def State.landPacket (s : State) (h : Half) (p : LinkPacket) : State :=
  let src := otherHalf h
  if (s.job src p.ctx).exec.all (fun e => e.phase != .written) then s
  else if !(s.ownAdmits h (.remote p.ctx) (!p.nonSecure) true { base := p.addr, len := p.bytes.length }) then
    s.refusePacket h p false
  else if !(s.packetOwned h p) then s.refusePacket h p true
  else (s.writeBytes p.addr p.bytes).send h (.written p.ctx)

/-- The write queue of a half drains into its bank pool, in order; packets for a bank being scrubbed stay (R185; log
entry 109). -/
def State.drain (s : State) (h : Half) : State :=
  let q := (s.half h).link.writeQueue
  if q.all (s.packetWaits h) then s
  else
    ((q.filter (fun p => !(s.packetWaits h p))).foldl (fun t p => t.landPacket h p)
      (s.modLink h (fun l => { l with writeQueue := q.filter (s.packetWaits h) }))).dispatchBoth

end Sys2Proof.Machine
end

