-- ==== Sys2Proof/Machine/Fence.lean ====
section
/-! DEFINITION. The reactions of the fault classes (R363): the retake of class 1, the fence of class 5 (R374), and the
refusal of register writes from the non-secure world (R472). -/

namespace Sys2Proof.Machine

open Sys2Proof

/-- Class 1 (R363): the event is logged, and the command of its job, unless killed already, is killed and retaken. -/
def State.recover (s : State) (h : Half) (ctx : Nat) (e : Event) : State := (s.log h { e with cls := 1 }).kill h ctx .same

/-- The writable fields of FSYNC_CTL (R266). -/
def Fsync.load (w : Nat) (f : Fsync) : Fsync :=
  { f with enable := flag w 31, activeLow := flag w 30, widthM1 := field w 27 24, offset := field w 11 0 }

/-- The configuration snapshot of what is applied (R378). -/
def HalfState.snap (x : HalfState) : Snapshot :=
  { line := x.hzn.lineStaged.getD x.hzn.line
    fsync := x.hzn.fsyncStaged.foldl (fun l p => tmod {} l p.1 (Fsync.load p.2.toNat)) x.hzn.fsync
    ports := x.hzn.ports.map (fun p => (p.1, { ctl := p.2.ctl }))
    streams := x.hzn.streams.map (fun k => (k.1, k.2.staged.getD k.2.cfg))
    rings := x.hzn.rings.map (fun r =>
      (r.1, { base := r.2.base, cb := r.2.cb, enable := r.2.enable, slotsLog2 := r.2.slotsLog2, slotLog2 := r.2.slotLog2
              msix := r.2.msix }))
    portCtl := x.hbm.hznPrio * 64 + x.hbm.dirPrio * 16 + x.hbm.pciePrio * 4, share := x.link.share
    regions := x.prot.regions, enforce := x.prot.enforce, lock := x.prot.lock, safetyMode := x.isl.safetyMode
    activeImage := x.disp.activeImage, degradedImage := x.disp.degradedImage
    arm := x.disp.sheetState != 0 || x.disp.armPending == some 1, good := true, taken := true }

/-- HALF_DOWN (R374): for each home stream the FRAME_SEQ of the last record counted in PRODUCER. -/
def Hzn.downMessage (z : Hzn) : List (Nat × Nat) :=
  z.streams.filterMap (fun k =>
    if k.2.cfg.enabled && !k.2.cfg.shadow then k.2.lastRecord.map (fun q => (k.1, q)) else none)

/-- A fenced half (R374): its frame-sync outputs go low (R267), ISL_FAULT_N is asserted, it is no longer paired (R360),
and with `fenced` set none of its rows has an effect. Its restart has begun (R379; log entry 22), so HALF_STATE reads
restarting, unless it is held out, failed or retired. -/
def HalfState.fence (now : Nat) (x : HalfState) : HalfState :=
  let stays := (x.isl.halfState == 5 && !x.isl.unconfigured) || x.isl.halfState == 6 || x.isl.halfState == 7
  { x with
    hzn := { x.hzn with fsync := x.hzn.fsync.map (fun p => (p.1, { p.2 with driven := false, linesLeft := 0 })) }
    boot := { x.boot with phase := if stays then x.boot.phase else 5 }
    isl := { x.isl with
      halfState := if stays then x.isl.halfState else 4
      fenced := true, faultN := false, paired := false, lastClass5 := now, restartReq := false
      downMessage := if x.isl.fenced then x.isl.downMessage else x.hzn.downMessage
      snapshot := if !x.isl.fenced && decide (4 ≤ x.boot.stage) then x.snap else x.isl.snapshot } }

/-- A class 5 event (R363, R374): it is logged, LAST_HALF_FAULT names it, and the half is fenced. -/
def State.halfFault (s : State) (h : Half) (e : Event) : State :=
  ((s.log h { e with cls := 5 }).modIsl h (fun i => { i with lastHalfFault := e.code })).modHalf h (HalfState.fence s.now)

/-- A register block accepts writes from the secure world only (R472); a refused one is logged. -/
def State.secureOnly (s : State) (h : Half) (unit : Nat) (w : World) (f : State → State) : State :=
  match w with
  | .secure => f s
  | .nonSecure => s.logUnlisted h .writeRefused { code := 0, unit := unit }

end Sys2Proof.Machine
end

