-- ==== Sys2Proof/Machine/Dolly.lean ====
section
/-! DEFINITION. Dolly's rows: the responses of threads (R163, R176), the background scrubber (R178), the token buckets
(R169), the regulators' APPLY (R171) and the thread groups (R200). -/

namespace Sys2Proof.Machine

open Sys2Proof

/-! ### Threads (R161, R163) -/

/-- The job context of a thread (R161). -/
def Thread.ctx (t : Thread) : Nat := field t.desc0.toNat 57 50
/-- The thread is a write side (R161). -/
def Thread.writes (t : Thread) : Bool := flag t.desc0.toNat 60
/-- The thread belongs to a MOVE: a copy, halo or page thread (R160). -/
def Thread.moves (t : Thread) : Bool :=
  let k := field t.desc0.toNat 63 61
  k == 1 || k == 4 || k == 5

/-- Thread context `n` of a half. -/
def State.thread (s : State) (h : Half) (n : Nat) : Thread := tget {} (s.half h).dolly.threads n
/-- Change a thread context. -/
def State.modThread (s : State) (h : Half) (n : Nat) (f : Thread → Thread) : State :=
  s.modDolly h (fun d => { d with threads := tmod {} d.threads n f })

/-- Request `gen` may be answered: the thread makes it, and it is one of the 8 that can be outstanding (R162, R163). DESIGN
CHOICE (log entry 139): a request answered out of order stays among the 8 until it is delivered. -/
def Thread.awaits (gen : Nat) (t : Thread) : Bool :=
  t.busy && decide (gen < t.total) && decide (t.delivered ≤ gen) && decide (gen < t.delivered + 8) && !(t.returned.contains gen)

/-- Eight requests are outstanding: the thread makes no further one (R163). A port that cannot accept data shows in no row
(log entry 115). -/
def Thread.full (t : Thread) : Bool := decide (t.delivered + 8 ≤ t.generated)

/-- The line of request `gen` of a thread (R162, R166): a window thread walks the positions of the command's PARAM, any
other the loops of its descriptor or the lines it was given one by one. -/
def State.requestLine (s : State) (h : Half) (t : Thread) (gen : Nat) : Option Nat :=
  if field t.desc0.toNat 63 61 = 3 then
    match (s.job h t.ctx).exec with
    | none => none
    | some e => ((s.withObjects e.objects).windowLines (e.recs.getD t.chainIx (parseRec [])) t.share.1 t.share.2)[gen]?
  else
    match t.lines with
    | some l => l[gen]?
    | none => some (walkLine t.loops t.baseLine gen).toNat

/-- Deliver returned requests in generation order, at most `fuel` of them. -/
def Thread.deliver : Nat → Thread → Thread
  | 0, t => t
  | fuel + 1, t =>
    if t.returned.contains t.delivered then
      Thread.deliver fuel { t with returned := t.returned.erase t.delivered, delivered := t.delivered + 1 }
    else t

/-- A response arrives and is delivered in generation order (R163). -/
def Thread.answer (gen : Nat) (t : Thread) : Thread :=
  Thread.deliver 8 { t with returned := t.returned ++ [gen], generated := max t.generated (gen + 1), stalled := false }

/-! ### Tokens (R169 to R172) -/

/-- Tokens of one bucket after `ns` ns, in 1/1,000 byte (R169). -/
def refill (rate burst ns tokens : Nat) : Nat := if rate = 0 then min tokens burst else min (tokens + rate * ns) burst

/-- Both buckets of every partition after `ns` ns. -/
def Dolly.refillAll (d : Dolly) (ns : Nat) : Dolly :=
  { d with
    tokHbm := (List.range 8).map (fun p =>
      refill (d.hbmRate p) (64000 * burstOf (d.regHbm.getD p 0)) ns (d.tokHbm.getD p 0))
    tokCtr := (List.range 8).map (fun p =>
      refill (d.ctrRate p) (64000 * burstOf (d.regCtr.getD p 0)) ns (d.tokCtr.getD p 0)) }

/-- A stalled thread goes on once the regulator of its own path holds 64 tokens (R163, R169, R202); one that waits for its
level in the HBM goes on when it is answered (R292). -/
def Dolly.wake (d : Dolly) : Dolly :=
  { d with threads := d.threads.map (fun t =>
      (t.1, { t.2 with stalled := t.2.stalled && (t.2.waitsOn == 2 || !(d.hasTokens t.2.waitsOn (t.2.ctx / 32) 1)) })) }

/-- The caps of the Horizon, Director and PCIe ports, in bytes per µs (R293). -/
def portCaps : List Nat := [16000, 4000, 16000]

/-- The buckets of the ports that are not Dolly's after `ns` ns: 64 lines each (R293). Tokens that an access of more than 64
lines still owes are paid first. -/
def Hbm.refillPorts (ns : Nat) (m : Hbm) : Hbm :=
  let due := fun (i : Nat) => m.owed.getD i 0
  let got := fun (i : Nat) => portCaps.getD i 0 * ns
  { m with
    tokPort := (List.range 3).map (fun i => min (m.tokPort.getD i 0 + (got i - due i)) 4096000)
    owed := (List.range 3).map (fun i => due i - got i) }

/-! ### Responses (R163, R176, R288, R314) -/

/-- A thread may reach an address: its own half's HBM and bank pool, and the partner's bank pool for writes of a MOVE
(R288), where the region descriptors admit it (R314). -/
def State.reaches (s : State) (h : Half) (t : Thread) (addr : Nat) : Bool :=
  let line : Region := { base := addr / 64 * 64, len := 64 }
  s.mapReaches h t.writes t.moves addr &&
    (s.target addr == .bankPool (otherHalf h) || s.ownAdmits h (.job t.ctx) (s.jobSecure h t.ctx) t.writes line)

/-- The thread's command can still print, or the thread fetches early for its queue (R165). -/
def State.threadLives (s : State) (h : Half) (n ctx : Nat) : Bool :=
  (s.job h ctx).early.contains n || (match (s.job h ctx).exec with
    | some e => e.phase != .killing
    | none => false)

/-- A Dolly access that is refused: MAP_DECODE where the map refuses it, and in any case MEM_REGION for its job (R288,
R314). An early fetch has no visible effect (R19): a refused one only stops. -/
def State.refuseAccess (s : State) (h : Half) (n : Nat) (t : Thread) (addr : Nat) : State :=
  let s1 := if s.mapReaches h t.writes t.moves addr then s
    else s.log h { code := 0x0112, unit := 1, ctx := t.ctx, tag := s.tagOf h t.ctx, detail := s.jobSession h t.ctx + addr }
  if (s.job h t.ctx).early.contains n then s1.stopEarly h t.ctx
  else if s.threadLives h n t.ctx then s1.faultJob h t.ctx 0x25 addr else s1

/-- Requests of a command that a response shows to have been made, out of those not yet admitted (R169). -/
def Job.unadmitted (bucket : Nat) (j : Job) : Nat :=
  match j.exec with
  | some e => if bucket = 0 then e.requests.1 else e.requests.2
  | none => 0

/-- Requests spend their regulator's tokens, and the command has as many fewer to make (R169, R170). -/
def State.spendFor (s : State) (h : Half) (ctx bucket k : Nat) : State :=
  (s.modDolly h (fun d => d.spend bucket (ctx / 32) k)).modJob h ctx (fun j =>
    { j with exec := j.exec.map (fun e =>
        { e with requests := if bucket = 0 then (e.requests.1 - k, e.requests.2) else (e.requests.1, e.requests.2 - k) }) })

/-- The page table of the command that a K or V feed works for fails its validation (R212): that precedes every read of a
page. -/
def State.tableRefused (s : State) (h : Half) (n : Nat) (t : Thread) : Option Nat :=
  if field t.desc0.toNat 59 58 = 1 ∧ s.threadLives h n t.ctx = true ∧ (s.job h t.ctx).early.contains n = false then
    (s.job h t.ctx).exec.bind (fun e => (s.withObjects e.objects).pagesRefused h t.ctx e.recs)
  else none

/-- The response to request `gen` of thread `n`, at its address. -/
def State.answerLine (s : State) (h : Half) (n gen addr : Nat) (check : LineCheck) : State :=
  let th := s.thread h n
  let live := s.threadLives h n th.ctx
  let early := (s.job h th.ctx).early.contains n
  let fresh := gen + 1 - th.generated
  let b := (s.bucketOf h addr).getD 0
  let due := if (s.bucketOf h addr).isNone then 0 else if early then fresh else min fresh ((s.job h th.ctx).unadmitted b)
  if !live && decide (0 < fresh) then s
  else if live && decide (0 < due) && !((s.half h).dolly.hasTokens b (th.ctx / 32) due) then
    s.modThread h n (fun x => { x with stalled := true, waitsOn := b })
  else if !(s.reaches h th addr) then s.refuseAccess h n th addr
  else
    let s1 := if live && decide (0 < due) then
        (if early then s.modDolly h (fun d => d.spend b (th.ctx / 32) due) else s.spendFor h th.ctx b due) else s
    let inPool := s.target addr == .bankPool h
    let bank := bankAt h addr
    let s2 := if inPool then s1.lineCheck h bank check else s1
    match (if inPool then check else .ok) with
    | .uncorrectable word syn =>
      ((s2.disagree h (2 + bank / 64)).recover h th.ctx
        (bankUe bank (bankLine (addr - poolBase h)) word syn th.ctx (s.tagOf h th.ctx) (s.jobSession h th.ctx))).dispatch h
    | _ => if live then s2.modThread h n (Thread.answer gen) else s2

/-- LINE_RESPONSE (R163): the response to request `gen` of a thread, for the line at `addr`, which is the one the thread
generates (R162). A thread that a kill has stopped takes no response: it is discarded, and an error in it is still counted
and logged (R165, R300). -/
def execLineResponse (t : Nat) (h : Half) (thread gen addr : Nat) (check : LineCheck) (s : State) :
    Host.Outcome State Fault Refusal :=
  .next (onLive (s.advance t) h (fun s =>
    if (s.thread h thread).awaits gen && s.requestLine h (s.thread h thread) gen == some (addr / 64) then
      (match s.tableRefused h thread (s.thread h thread) with
       | some d => s.faultJob h (s.thread h thread).ctx 0x23 d
       | none => s.answerLine h thread gen addr check)
    else s))

/-- SCRUBBER (R178): the background scrubber reads its next line; what R176 permits is corrected, and an uncorrectable
error that no thread reads is counted and logged and kills no command (R202). -/
def execScrubber (t : Nat) (h : Half) (check : LineCheck) (s : State) : Host.Outcome State Fault Refusal :=
  .next (onLive (s.advance t) h (fun s =>
    let d := (s.half h).dolly
    let s1 := s.lineCheck h d.scrubBank check
    let s2 := match check with
      | .uncorrectable word syn =>
        (s1.disagree h (2 + d.scrubBank / 64)).log h (bankUe d.scrubBank d.scrubLine word syn 0xFF 0 0)
      | _ => s1
    s2.modDolly h (fun d =>
      if d.scrubLine + 1 < 8192 then { d with scrubLine := d.scrubLine + 1 }
      else { d with scrubLine := 0, scrubBank := (d.scrubBank + 1) % 256 })))

/-! ### Registers (R171, R199, R200) -/

/-- DOLLY_APPLY.APPLY is written (R171, R199). -/
def State.dollyApply (s : State) (h : Half) (w : World) : State :=
  s.secureOnly h 1 w (fun s => s.modDolly h (fun d =>
    { d with applyPending := true, takeHbm := d.stagedHbm, takeCtr := d.stagedCtr }))

/-- DOLLY_APPLY (R13, R171): the regulator values as now written take effect at the next slot boundary. -/
def execDollyApply (t : Nat) (h : Half) (w : World) (s : State) : Host.Outcome State Fault Refusal :=
  .next (onLive (s.advance t) h (fun s => s.dollyApply h w))

/-- At the slot boundary, the regulator values are in effect as the APPLY found them (R171). -/
def Dolly.apply (d : Dolly) : Dolly :=
  if d.applyPending then { d with applyPending := false, regHbm := d.takeHbm, regCtr := d.takeCtr } else d

/-- The value of a group once ACTIVE reads 0: ENABLED in bit 7, PARTITION in bits 2:0 (R200, R327). -/
def Group.take (b : Nat) (g : Group) : Group :=
  { g with enabled := flag b 7, part := field b 2 0, disabling := false, next := none }

/-- A write of GROUP_CTL that is accepted: to a disabled group, or one that clears ENABLED, which waits for ACTIVE = 0
(R200). -/
def Group.write (v : Nat) (g : Group) : Group :=
  if !g.enabled then Group.take (bitOf (flag v 31) * 128 + field v 2 0) g
  else if g.active = 0 then Group.take (field v 2 0) g
  else { g with disabling := true, next := some (field v 2 0) }

/-- GROUP_CTL is written (R200): an enabled group refuses a write that does not clear ENABLED (R13). -/
def State.groupCtl (s : State) (h : Half) (group value : Nat) (w : World) : State :=
  s.secureOnly h 1 w (fun s =>
    if 96 ≤ group then s
    else if ((s.half h).dolly.group group).enabled && flag value 31 then
      s.logUnlisted h .writeRefused { code := 0, unit := 1, detail := 0x100400 + 4 * group }
    else s.modDolly h (fun d => { d with groups := tmod {} d.groups group (Group.write value) }))

/-- GROUP_CTL_WRITE (R200). -/
def execGroupCtlWrite (t : Nat) (h : Half) (group : Nat) (value : BitVec 32) (w : World) (s : State) :
    Host.Outcome State Fault Refusal :=
  .next (onLive (s.advance t) h (fun s => s.groupCtl h group value.toNat w))

end Sys2Proof.Machine
end

