-- ==== Sys2Proof/Machine/HbmQueue.lean ====
section
/-! DEFINITION. The HBM controller's queues: pseudo-channels and banks (R291), admission and the pick (R292), the ports with
their levels and rate caps (R293). -/

namespace Sys2Proof.Machine

open Sys2Proof

/-! ### Pseudo-channels (R291, R292, R294) -/

/-- The offset of an HBM address in its half's range. -/
def hbmOffset (h : Half) (addr : Nat) : Nat := addr - hbmBase h

/-- Change one pseudo-channel. -/
def State.modPc (s : State) (h : Half) (pc : Nat) (f : HbmQueue → HbmQueue) : State :=
  s.modHbm h (fun x => { x with queues := tmod {} x.queues pc f })

/-- Change one pseudo-channel's error counters. -/
def State.modPcErr (s : State) (h : Half) (pc : Nat) (f : HbmErr → HbmErr) : State :=
  s.modHbm h (fun x => { x with pcErr := tmod {} x.pcErr pc f })

/-- A refresh or step holds the bank at an instant (R294). -/
def HbmQueue.holds (q : HbmQueue) (now bank : Nat) : Bool := q.blocked.any (fun b => b.1 == bank && decide (now < b.2))

/-! #### The pick (R292) -/

/-- The head request of a bank's queue. -/
def HbmQueue.head (q : HbmQueue) (bank : Nat) : Option HbmReq := q.reqs.find? (fun r => r.bank == bank)

/-- The banks at or after the pointer, in turn, whose head request is of a level and can issue. -/
def HbmQueue.ready (q : HbmQueue) (now level : Nat) : Option HbmReq :=
  ((List.range 48).map (fun i => (q.pointer + i) % 48)).findSome? (fun b =>
    match q.head b with
    | some r => if r.level = level ∧ q.holds now b = false then some r else none
    | none => none)

/-- A line of a row is two column accesses; a row stays open for up to 16 in a row (R290, R292). -/
def HbmQueue.access (bank row : Nat) (q : HbmQueue) : HbmQueue :=
  let n := match q.openRows.find? (fun x => x.1 == bank) with
    | some (_, r, k) => if r = row ∧ k + 2 ≤ 16 then k + 2 else 2
    | none => 2
  { q with openRows := (bank, row, n) :: q.openRows.filter (fun x => x.1 != bank) }

/-- A request leaves its bank's queue, and the pointer moves past the bank. -/
def HbmQueue.take (r : HbmReq) (q : HbmQueue) : HbmQueue :=
  ({ q with reqs := q.reqs.erase r, pointer := (r.bank + 1) % 48 } : HbmQueue).access r.bank r.row

/-- One command slot: the most urgent level that has a bank whose head request can issue, and within it the first such bank
at or after the pointer. -/
def HbmQueue.pick (now : Nat) (q : HbmQueue) : HbmQueue :=
  match (List.range 4).findSome? (q.ready now) with
  | some r => q.take r
  | none => q

/-- Several command slots. -/
def HbmQueue.picks (now : Nat) : Nat → HbmQueue → HbmQueue
  | 0, q => q
  | n + 1, q => HbmQueue.picks now n (q.pick now)

/-- Command slots since the last ones were used, in 1/80 of a slot: a pseudo-channel serves a line in 2.5 ns at its peak
(819.2 GB/s over 32, R290; log entry 118), and the controller admits commands in (16 − s) of every 16 slots at `steps` = s
throttle steps of unit 10 (R408). -/
def HbmQueue.slots (now steps : Nat) (q : HbmQueue) : Nat := q.slotRest + (now - q.pickedAt) * 2 * (16 - steps)

/-- The command slots up to an instant are used; what has passed of the next one is kept. -/
def HbmQueue.run (now steps : Nat) (q : HbmQueue) : HbmQueue :=
  { q.picks now (min q.reqs.length (q.slots now steps / 80)) with
    pickedAt := max now q.pickedAt, slotRest := q.slots now steps % 80 }

/-- The throttle steps of the HBM (unit 10). -/
def HalfState.hbmSteps (x : HalfState) : Nat := (tget ({} : Unit) x.zen.units 10).steps

/-- Requests of a level that a pseudo-channel holds: at most 64 are admitted (R292). -/
def HbmQueue.levelCount (q : HbmQueue) (level : Nat) : Nat := (q.reqs.filter (fun r => r.level == level)).length

/-- The priority level of a port (R293). -/
def HalfState.portLevel (x : HalfState) : HbmPort → Nat
  | .dolly c => x.dolly.prio (c / 32)
  | .horizon => x.hbm.hznPrio
  | .director _ | .island => x.hbm.dirPrio
  | .pcie => x.hbm.pciePrio

/-- The line at an address. -/
def lineAt (addr : Nat) : Nat := addr / 64 * 64

/-- The request of a port for an address. -/
def State.hbmReq (s : State) (h : Half) (port : HbmPort) (addr : Nat) (acked : Bool) : HbmReq :=
  { bank := hbmBank (hbmOffset h addr), row := hbmRow (hbmOffset h addr), level := (s.half h).portLevel port
    line := lineAt addr, port := port, acked := acked }

/-- The pseudo-channel of an address, with its slots up to now used. -/
def State.pcNow (s : State) (h : Half) (addr : Nat) : HbmQueue :=
  (tget {} (s.half h).hbm.queues (hbmPc (hbmOffset h addr))).run s.now (s.half h).hbmSteps

/-- Requests that `n` lines from an address add to the fullest pseudo-channel they reach (R291). -/
def perChannel (n : Nat) : Nat := ceilDiv n 32

/-- The level of a port has room in the pseudo-channel of an address for `n` more requests (R292). -/
def State.levelRoom (s : State) (h : Half) (port : HbmPort) (addr n : Nat) : Bool :=
  decide ((s.pcNow h addr).levelCount ((s.half h).portLevel port) + n ≤ 64)

/-- A request whose data its port needs no more is queued (R292, R297). -/
def State.enqueue (s : State) (h : Half) (port : HbmPort) (addr : Nat) : State :=
  s.modPc h (hbmPc (hbmOffset h addr)) (fun q =>
    let p := q.run s.now (s.half h).hbmSteps
    { p with reqs := p.reqs ++ [s.hbmReq h port addr true] })

/-- Picks go on until a request has left its queue; it stays where its bank is held. -/
def HbmQueue.serve (now : Nat) (r : HbmReq) : Nat → HbmQueue → HbmQueue
  | 0, q => q
  | n + 1, q => if q.reqs.contains r then HbmQueue.serve now r n (q.pick now) else q

/-- The read of a port stands in its bank's queue. -/
def State.readQueued (s : State) (h : Half) (port : HbmPort) (addr : Nat) : Bool :=
  (s.pcNow h addr).reqs.contains (s.hbmReq h port addr false)

/-- A read that returns has been admitted and picked, after every request that the pick puts before it (R292): the state then,
and whether it could be. One whose bank is held waits in its queue. -/
def State.serveRead (s : State) (h : Half) (port : HbmPort) (addr : Nat) : State × Bool :=
  let q := s.pcNow h addr
  let r := s.hbmReq h port addr false
  let q1 := if q.reqs.contains r then q else { q with reqs := q.reqs ++ [r] }
  let q2 := q1.serve s.now r (q1.reqs.length + 1)
  let put := fun (x : HbmQueue) => s.modPc h (hbmPc (hbmOffset h addr)) (fun _ => x)
  if q2.reqs.contains r then (put q1, false) else (put q2, true)

/-- The queues of every pseudo-channel use their command slots up to now, before the throttle steps change (R408). -/
def HalfState.runQueues (now : Nat) (x : HalfState) : HalfState :=
  { x with hbm := { x.hbm with queues := x.hbm.queues.map (fun q => (q.1, q.2.run now x.hbmSteps)) } }

/-! ### The ports that are not Dolly's (R293) -/

/-- PORT of an HBM port (R301). -/
def portCode : HbmPort → Nat
  | .dolly _ => 0
  | .horizon => 1
  | .director _ => 2
  | .island => 2
  | .pcie => 3

/-- The port's bucket holds the tokens of `n` lines, of 64 of them where there are more; Dolly's regulator stands upstream
(R169, R293). -/
def State.portReady (s : State) (h : Half) (port : HbmPort) (n : Nat) : Bool :=
  portCode port == 0 || decide (64000 * min 64 n ≤ (s.half h).hbm.tokPort.getD (portCode port - 1) 0)

/-- Spend the tokens of `n` lines of the bucket of port code `k`; what it does not hold is owed, and paid by the next ones
(R169, R293). -/
def Hbm.spendPort (k n : Nat) (m : Hbm) : Hbm :=
  let have' := m.tokPort.getD (k - 1) 0
  { m with tokPort := lmod 0 m.tokPort (k - 1) (fun x => x - 64000 * n), owed := lmod 0 m.owed (k - 1) (· + (64000 * n - have')) }

/-- Spend a line's tokens of a port (R169, R293). -/
def State.portSpend (s : State) (h : Half) (port : HbmPort) : State :=
  if portCode port = 0 then s else s.modHbm h (Hbm.spendPort (portCode port) 1)

/-- An access of a port to a range of HBM can be admitted: its tokens are there, and its level has room (R292, R293). -/
def State.portOpen (s : State) (h : Half) (port : HbmPort) (r : Region) : Bool :=
  let l := r.lines
  s.portReady h port l.length && l.all (fun a => s.levelRoom h port a (perChannel l.length))

/-- An admitted access spends its tokens, and its lines enter the queues. -/
def State.portUse (s : State) (h : Half) (port : HbmPort) (r : Region) : State :=
  r.lines.foldl (fun t a => t.enqueue h port a) (s.modHbm h (Hbm.spendPort (portCode port) r.lines.length))

/-! ### Blocks -/

/-- A bank is blocked until an instant; blocks that have ended are dropped. -/
def HbmQueue.block (now bank until' : Nat) (q : HbmQueue) : HbmQueue :=
  { q with blocked := (bank, until') :: q.blocked.filter (fun b => decide (now < b.2)) }

end Sys2Proof.Machine
end

