-- ==== Sys2Proof/Machine/Hbm.lean ====
section
/-! DEFINITION. The HBM controller's rows: refresh, retraining and training (R290 to R296), the checks of writes and
reads (R297, R298), parity errors and timeouts (R299), and HBM_APPLY (R293). -/

namespace Sys2Proof.Machine

open Sys2Proof

/-! ### Refresh (R294) -/

/-- HBM_REFRESH (R294): a per-bank refresh blocks its bank for at most 160 ns; it waits while another refresh or a step
holds the bank. How long it takes is free within the bound. -/
def execHbmRefresh (t : Nat) (h : Half) (pc bank : Nat) (s : State) : Host.Outcome State Fault Refusal :=
  .next (onHalf (s.advance t) h (fun s =>
    if (tget ({} : HbmQueue) (s.half h).hbm.queues pc).holds s.now bank then s
    else
      { s with free := s.free + 1 }.modPc h pc
        (HbmQueue.block s.now bank (s.now + s.freeWord.toNat % 161))))

/-! ### Retraining and training (R295, R296) -/

/-- A retraining window covers the instant: the sheet in force marks the line (R295, R319). -/
def HalfState.retrainWindow (x : HalfState) : Bool :=
  match x.sheet with
  | none => false
  | some sh => sh.slots.any (fun e => e.retrain && e.covers sh.periodLines (x.periodLine sh))

/-- The pass is complete: every pseudo-channel has made its 16 steps (R295). -/
def Hbm.passDone (m : Hbm) : Bool := (List.range 32).all (fun c => (tget ({} : HbmQueue) m.queues c).steps == 16)

/-- A completed pass is counted, and nothing is due any more. -/
def Hbm.endPass (now : Nat) (m : Hbm) : Hbm :=
  { m with
    passes := satAdd 0xFFFFFFFF m.passes 1, retrainDue := false, retrainLate := false, dueSince := none
    passTemp := m.stackTemp, passAt := now, queues := m.queues.map (fun q => (q.1, { q.2 with steps := 0 })) }

/-- HBM_RETRAIN_STEP (R295): one step of a due pass on a pseudo-channel, inside a retraining window, at least 5 µs after
its last one, on a bank that nothing holds. -/
def execHbmRetrainStep (t : Nat) (h : Half) (pc bank : Nat) (s : State) : Host.Outcome State Fault Refusal :=
  .next (onLive (s.advance t) h (fun s =>
    let q := tget ({} : HbmQueue) (s.half h).hbm.queues pc
    let rested := match q.lastStepAt with
      | some a => decide (a + 5000 ≤ s.now)
      | none => true
    if (s.half h).hbm.retrainDue && (s.half h).retrainWindow && rested && decide (q.steps < 16) && !(q.holds s.now bank)
    then
      let s1 := { s with free := s.free + 1 }.modPc h pc (fun q =>
        { q.block s.now bank (s.now + s.freeWord.toNat % 201) with steps := q.steps + 1, lastStepAt := some s.now })
      s1.modHbm h (fun m => if m.passDone then m.endPass s.now else m)
    else s))

/-- A pass is due: 1 s after the last one, or after a change of 5 °C (R295). -/
def Hbm.passIsDue (now : Nat) (m : Hbm) : Bool :=
  m.train == 2 && (decide (m.passAt + 1000000000 ≤ now) || decide (m.passTemp + 5 ≤ m.stackTemp) ||
    decide (m.stackTemp + 5 ≤ m.passTemp))

/-- RETRAIN_DUE (R295). -/
def execRetrainDue (t : Nat) (h : Half) (s : State) : Host.Outcome State Fault Refusal :=
  .next (onHalf (s.advance t) h (fun s =>
    s.modHbm h (fun m =>
      if m.passIsDue s.now && !m.retrainDue then { m with retrainDue := true, dueSince := some s.now } else m)))

/-- HBM_RETRAIN_LATE (R295): a pass has been due for 1 s. -/
def execHbmRetrainLate (t : Nat) (h : Half) (s : State) : Host.Outcome State Fault Refusal :=
  .next (onHalf (s.advance t) h (fun s =>
    match (s.half h).hbm.dueSince with
    | some a =>
      if a + 1000000000 ≤ s.now ∧ (s.half h).hbm.retrainLate = false then
        (s.modHbm h (fun m => { m with retrainLate := true })).log h { code := 0x0110, unit := 10 }
      else s
    | none => s))

/-- HBM_TRAINING (R296): power-up training of an untrained stack completes with its spare lanes, or fails. -/
def execHbmTraining (t : Nat) (h : Half) (ok : Bool) (lanes : Nat) (s : State) : Host.Outcome State Fault Refusal :=
  .next (onHalf (s.advance t) h (fun s =>
    if 2 ≤ (s.half h).hbm.train then s
    else if ok then
      s.modHbm h (fun m =>
        { m with train := 2, lanesRepaired := min 63 lanes, passAt := s.now, passTemp := m.stackTemp })
    else (s.modHbm h (fun m => { m with train := 3 })).log h { code := 0x0111, unit := 10 }))

/-- HBM_TEMP_READ (R290): the stack temperature; refresh doubles above 85 °C. -/
def execHbmTempRead (t : Nat) (h : Half) (temp : Nat) (s : State) : Host.Outcome State Fault Refusal :=
  .next (onHalf (s.advance t) h (fun s =>
    s.modHbm h (fun m => { m with stackTemp := temp % 256, refresh2x := decide (85 < temp % 256) })))

/-! ### Error events (R299 to R301) -/

/-- The requester's job context; 0xFF for non-Dolly ports (R301). -/
def portCtx : HbmPort → Nat
  | .dolly c => c
  | _ => 0xFF

/-- CMD_TAG of a port's command; 0 for non-Dolly ports. -/
def State.portTag (s : State) (h : Half) : HbmPort → Nat
  | .dolly c => s.tagOf h c
  | _ => 0

/-- The SESSION bits of a port's command in a fault-log DETAIL (R222); 0 for non-Dolly ports. -/
def State.portSession (s : State) (h : Half) : HbmPort → Nat
  | .dolly c => s.jobSession h c
  | _ => 0

/-- The 32-byte HBM_LOG entry of an event (R301). -/
def State.hbmEntry (s : State) (h : Half) (type : Nat) (port : HbmPort) (addr syn : Nat) : List Byte :=
  let o := hbmOffset h addr
  toLe 8 (type * 2 ^ 56 + portCtx port % 256 * 2 ^ 48 + portCode port * 2 ^ 40 + addr / 64 * 64 % 2 ^ 40) ++
  toLe 8 (s.sheetTime h) ++
  toLe 8 (syn % 256 * 2 ^ 56 + hbmPc o * 2 ^ 51 + hbmBank o * 2 ^ 45 + hbmRow o * 2 ^ 31 +
    (s.half h).hbm.stackTemp * 2 ^ 23 + tjBand (s.unit h 10).temp16 * 2 ^ 20) ++
  toLe 8 (s.portTag h port * 2 ^ 48)

/-- Put an error event in HBM_LOG, whose head names it (R301), and forward it to the fault log. -/
def State.hbmError (s : State) (h : Half) (type : Nat) (port : HbmPort) (addr syn : Nat) : State :=
  (s.modHbm h (fun m =>
    let i := m.logCount % 64
    { m with log := tput m.log i (s.hbmEntry h type port addr syn), logHead := i, logCount := m.logCount + 1 })).log h
    { code := 0x0100 + type, cls := 1, unit := 10, ctx := portCtx port, tag := s.portTag h port
      detail := s.portSession h port + addr / 64 * 64 }

/-- The stream contexts whose landing region holds an address (R270). -/
def State.landsAt (s : State) (h : Half) (addr : Nat) : List Nat :=
  ((s.half h).hzn.streams.filter (fun p =>
    p.2.cfg.enabled && inRange (s.desc p.2.cfg.landDesc).base (s.desc p.2.cfg.landDesc).span addr)).map (·.1)

/-- The image of a landing descriptor that holds an address (R106, R270). -/
def Desc.imageAt (d : Desc) (addr : Nat) : Nat := if 1 < d.d3 then (addr - d.base) / (64 * max 1 d.imagePitch) else 0

/-- The newest frame that lands in an image takes a mark, unless its mark is final (R270, R276). -/
def markLanding (bit d3 image : Nat) : List Frame → List Frame
  | [] => []
  | f :: r =>
    if f.seq % max 1 d3 = image then (if f.final then f else { f with mark := f.mark ||| 2 ^ bit }) :: r
    else f :: markLanding bit d3 image r

/-- The frame of a stream that a landing write at an address belongs to takes the mark LAND_ERR (R272, R276). -/
def State.markLanded (s : State) (h : Half) (k addr : Nat) : State :=
  let d := s.desc (s.stream h k).cfg.landDesc
  s.modStream h k (fun x => { x with frames := markLanding 6 d.d3 (d.imageAt addr) x.frames })

/-- A command's reads may be outstanding: it holds its threads and has not printed (R165; log entry 20). -/
def Exec.reading (e : Exec) : Bool := (e.phase == .resumable || e.phase == .written) && !e.threads.isEmpty

/-- A command has a request for the line outstanding: a read of its input regions that has not been answered, or a write
not yet acknowledged (R163, R297). -/
def Exec.awaits (addr : Nat) (e : Exec) : Bool :=
  (e.hbmDue.contains (lineAt addr)) ||
    (e.reading && !(e.answered.contains (lineAt addr)) && anyOverlap [{ base := lineAt addr, len := 64 }] e.inputs)

/-- A live command of a Dolly port awaits the line. -/
def State.awaited (s : State) (h : Half) (addr : Nat) : HbmPort → Bool
  | .dolly c => (s.job h c).exec.any (fun e => e.phase != .killing && e.awaits addr)
  | _ => false

/-- The instant its request was admitted (R299). -/
def Exec.admittedAt (addr : Nat) (e : Exec) : Nat :=
  if e.hbmDue.contains (lineAt addr) then e.writtenAt else e.startedAt

/-- An error response to a port (R300, R363): a command with the request outstanding is killed and retaken, and one killed
already discards it; a landing write that failed marks its frame LAND_ERR (R272, R276). -/
def State.errorResponse (s : State) (h : Half) (addr : Nat) : HbmPort → State
  | .dolly c =>
    match (s.job h c).exec with
    | some e => if e.phase ≠ .killing ∧ e.awaits addr = true then (s.kill h c .same).dispatch h else s
    | none => s
  | .horizon => (s.landsAt h addr).foldl (fun t k => t.markLanded h k addr) s
  | _ => s

/-- An error event and its error response. -/
def State.hbmFails (s : State) (h : Half) (type : Nat) (port : HbmPort) (addr syn : Nat) : State :=
  (s.hbmError h type port addr syn).errorResponse h addr port

/-- The request of a port for the line has timed out, and its response has not come (R299). -/
def State.lateFor (s : State) (h : Half) (port : HbmPort) (addr : Nat) : Bool :=
  (s.half h).hbm.late.contains (port, lineAt addr)

/-- The response is discarded: it is not to a request that its port has outstanding, because that timed out (R299) or its
command has been killed (R300). `stale` says so of a response whose line a retake, or a port that is not Dolly's, has asked for
again (log entry 116). -/
def State.discards (s : State) (h : Half) (port : HbmPort) (addr : Nat) (stale : Bool) : Bool :=
  stale || (portCode port == 0 && s.lateFor h port addr && !(s.awaited h addr port))

/-- A discarded response is no longer awaited (R299). -/
def State.dropLate (s : State) (h : Half) (port : HbmPort) (addr : Nat) : State :=
  s.modHbm h (fun m => { m with late := m.late.erase (port, lineAt addr) })

/-- The address is in the half's own HBM. -/
def State.ownHbm (s : State) (h : Half) (addr : Nat) : Bool := s.target addr == .hbm h

/-- The job context in a port's initiator tag: the job's for Dolly, for Director code acting for a job and for landing (R272,
R313), else 0xFF. -/
def State.initiatorCtx (s : State) (h : Half) (addr : Nat) : HbmPort → Nat
  | .dolly c => c
  | .director (some c) => c
  | .horizon => ((s.landsAt h addr).map (fun k => (s.stream h k).cfg.landCtx)).headD 0xFF
  | _ => 0xFF

/-- A decode error of a port (R288, R296): logged with the address and the initiator's tag; a Dolly command that awaits the
line is killed and its job faulted, a landing frame marked. -/
def State.portDecode (s : State) (h : Half) (port : HbmPort) (addr : Nat) : State :=
  let e : Event := { code := 0x0112, unit := 10, ctx := s.initiatorCtx h addr port, tag := s.portTag h port, detail := addr }
  match port with
  | .dolly c =>
    if s.awaited h addr port then (s.log h { e with detail := s.jobSession h c + addr }).faultJob h c 0x25 addr else s
  | .horizon => (s.log h e).errorResponse h addr .horizon
  | _ => s.log h e

/-- Tally's window answers a port: an aligned word read of it by a Director core or the island, on a part with Tally (R4,
R289). -/
def State.windowServes (s : State) (port : HbmPort) (write : Bool) (addr : Nat) : Bool :=
  !write && portCode port == 2 && decide (addr ≤ tallyBase + 0xFFF) && addr % 4 == 0 && decide (s.part = .fbz2400AT)

/-- An access of a port outside the half's HBM gets a decode error where the half's own map does not let it through either
(R288, R289); what a command's threads reach, LINE_RESPONSE says. -/
def State.portMiss (s : State) (h : Half) (port : HbmPort) (write : Bool) (addr : Nat) : State :=
  let inside := match s.target addr with
    | .bankPool k => k == h
    | .registers k => k == h
    | .tallyWindow => s.windowServes port write addr
    | _ => false
  if inside || portCode port == 0 then s else s.portDecode h port addr

/-- The threads of a command whose next request names the line wait for room in its level (R163, R292). -/
def State.stallFor (s : State) (h : Half) (addr : Nat) : HbmPort → State
  | .dolly c =>
    match (s.job h c).exec with
    | none => s
    | some e => e.threads.foldl (fun t n =>
        if t.requestLine h (t.thread h n) (t.thread h n).generated == some (addr / 64) then
          t.modThread h n (fun x => { x with stalled := true, waitsOn := 2 })
        else t) s
  | _ => s

/-! ### Region checks (R313, R314) -/

/-- The initiator of a port's access to a line (R313): landing bears its job's tag (R272). -/
def State.portAgent (s : State) (h : Half) (addr : Nat) : HbmPort → Agent
  | .dolly c => .job c
  | .horizon => .job (((s.landsAt h addr).map (fun k => (s.stream h k).cfg.landCtx)).headD 0)
  | .director (some c) => .job c
  | .director none => .firmware
  | .island => .island
  | .pcie => .host

/-- The access of a port comes from the secure world: a job's or landing's by its partition's job (R272), firmware and the
island's always, the host's never (log entry 119). -/
def State.portSecure (s : State) (h : Half) (addr : Nat) (port : HbmPort) : Bool :=
  match s.portAgent h addr port with
  | .job c => s.jobSecure h c
  | .host => false
  | _ => true

/-- A port may read or write the range: the region descriptors admit it (R313, R314). -/
def State.portAdmits (s : State) (h : Half) (port : HbmPort) (write : Bool) (addr len : Nat) : Bool :=
  s.ownAdmits h (s.portAgent h addr port) (s.portSecure h addr port) write { base := addr, len := len }

/-- A write that the region descriptors refuse (R314): a Dolly command is killed and its job faulted, a host write is dropped
and logged, a landing write marks its frame (R272); any other is dropped. -/
def State.portRefuse (s : State) (h : Half) (port : HbmPort) (addr : Nat) : State :=
  match port with
  | .dolly c => if (s.job h c).exec.isSome then s.faultJob h c 0x25 addr else s
  | .pcie => s.logUnlisted h .hostRefused { code := 0, unit := 14, detail := addr }
  | .horizon => s.errorResponse h addr .horizon
  | _ => s

/-- A read that the region descriptors refuse (R314): it is not served. A Dolly command that awaits the line is killed and its
job faulted; a host read's Completer Abort is the answer of its own row. -/
def State.readRefuse (s : State) (h : Half) (port : HbmPort) (addr : Nat) : State :=
  match port with
  | .dolly c => if s.awaited h addr port then s.faultJob h c 0x25 addr else s
  | _ => s

/-! ### Reads (R298) -/

/-- What a read's checks count on a pseudo-channel. -/
def State.countRead (s : State) (h : Half) (addr : Nat) (check : HbmCheck) : State :=
  s.modPcErr h (hbmPc (hbmOffset h addr)) (fun e =>
    match check with
    | .ok => e
    | .corrected => { e with ce := satAdd 0xFFFF e.ce 1 }
    | _ => { e with ue := satAdd 0xFF e.ue 1 })

/-- TYPE and syndrome of a read that fails (R298, R301). -/
def readFailure : HbmCheck → Option (Nat × Nat)
  | .ok => none
  | .corrected => none
  | .ue syn => some (1, syn)
  | .onDie => some (2, 0)
  | .converter => some (3, 0)

/-- A read is answered: its command awaits the line no more. -/
def State.answerRead (s : State) (h : Half) (addr : Nat) : HbmPort → State
  | .dolly c => s.modJob h c (fun j => { j with exec := j.exec.map (fun e =>
      if e.phase = .killing then e else { e with answered := lineAt addr :: e.answered }) })
  | _ => s

/-- HBM_READ_RESPONSE (R298): on-die ECC, the sideband code and the converters check the line. The request waits for its
port's tokens (R293), for room in its level, and for the pick (R292). A response that is discarded is still counted and
logged (R299, R300). -/
def execHbmReadResponse (t : Nat) (h : Half) (port : HbmPort) (addr : Nat) (answer : HbmAnswer) (s : State) :
    Host.Outcome State Fault Refusal :=
  .next (onHalf (s.advance t) h (fun s =>
    if !(s.ownHbm h addr) then s.portMiss h port false addr
    else if !(s.half h).hbmServed then s.portDecode h port addr
    else if s.discards h port addr answer.stale then
      let s1 := (s.dropLate h port addr).countRead h addr answer.check
      match readFailure answer.check with
      | none => s1
      | some (type, syn) => s1.hbmError h type port addr syn
    else if !(s.portAdmits h port false (lineAt addr) 64) then s.readRefuse h port addr
    else if !(s.portReady h port 1) then s
    else if !(s.readQueued h port addr) && !(s.levelRoom h port addr 1) then s.stallFor h addr port
    else
      let x := s.serveRead h port addr
      if !x.2 then x.1
      else
        let s1 := (x.1.portSpend h port).countRead h addr answer.check
        match readFailure answer.check with
        | none => s1.answerRead h addr port
        | some (type, syn) => s1.hbmFails h type port addr syn))

/-! ### Writes (R297, R300) -/

/-- The write of a line that passed its checks: queued and acknowledged (R297). A Dolly thread's line is one its command has
written and not had acknowledged, whose bytes become light at the print; any other port's bytes are written. -/
def State.acceptWrite (s : State) (h : Half) (port : HbmPort) (addr : Nat) (data : List Byte) : State :=
  let s1 := s.enqueue h port addr
  match port with
  | .dolly c => s1.modJob h c (fun j =>
      { j with exec := j.exec.map (fun e => { e with hbmDue := e.hbmDue.filter (fun a => a != lineAt addr) }) })
  | _ => s1.writeBytes addr data

/-- TYPE of a write whose checks fail (R297, R301). -/
def writeFailure : HbmWriteCheck → Option Nat
  | .ok => none
  | .corrected => none
  | .badInput => some 4
  | .converter => some 3

/-- HBM_WRITE (R297): the line is checked, encoded twice, compared and queued, and the write acknowledged. It waits for its
port's tokens (R293) and for room in its level (R292). -/
def execHbmWrite (t : Nat) (h : Half) (port : HbmPort) (addr : Nat) (data : List Byte) (check : HbmWriteCheck) (s : State) :
    Host.Outcome State Fault Refusal :=
  .next (onLive (s.advance t) h (fun s =>
    if !(s.ownHbm h addr) then s.portMiss h port true addr
    else if !(s.half h).hbmServed then s.portDecode h port addr
    else if s.discards h port addr false then
      let s1 := s.dropLate h port addr
      match writeFailure check with
      | none => s1
      | some type => s1.hbmError h type port addr 0
    else if !(s.portReady h port 1) then s
    else if !(s.levelRoom h port addr 1) then s.stallFor h addr port
    else if !(s.portAdmits h port true addr data.length) then s.portRefuse h port addr
    else
      let s1 := s.portSpend h port
      match writeFailure check with
      | none => s1.acceptWrite h port addr data
      | some type => s1.hbmFails h type port addr 0))

/-! ### Parity and timeouts (R299) -/

/-- Commands of a half with a request outstanding to a pseudo-channel. -/
def State.waitersOnPc (s : State) (h : Half) (pc : Nat) : List Nat :=
  ((s.half h).disp.jobs.filter (fun p => match p.2.exec with
    | some e => e.phase != .killing && (e.hbmDue.any (fun a => hbmPc (hbmOffset h a) == pc) ||
        (e.reading && e.inputs.any (fun r => s.targetOf r == .hbm h &&
          r.lines.any (fun a => hbmPc (hbmOffset h a) == pc && !(e.answered.contains (lineAt a))))))
    | none => false)).map (·.1)

/-- The reads of ports that are not Dolly's and wait in a pseudo-channel's queues fail, and leave them with Dolly's (R299). -/
def State.failQueued (s : State) (h : Half) (pc : Nat) : State :=
  let q := (tget {} (s.half h).hbm.queues pc : HbmQueue)
  (q.reqs.filter (fun r => !r.acked && portCode r.port != 0)).foldl (fun t r => t.errorResponse h r.line r.port)
    (s.modPc h pc (fun q => { q with reqs := q.reqs.filter (·.acked) }))

/-- HBM_PARITY (R299): the first parity error of a request has it reissued and counted; when the reissued request also
fails, every request outstanding to the pseudo-channel fails. -/
def execHbmParity (t : Nat) (h : Half) (port : HbmPort) (addr : Nat) (again : Bool) (s : State) :
    Host.Outcome State Fault Refusal :=
  .next (onLive (s.advance t) h (fun s =>
    if !(s.ownHbm h addr) then s
    else
      let pc := hbmPc (hbmOffset h addr)
      if again then
        ((s.waitersOnPc h pc).foldl (fun t c => t.kill h c .same) ((s.hbmFails h 5 port addr 0).failQueued h pc)).dispatch h
      else s.modPcErr h pc (fun e => { e with parity := satAdd 0xFF e.parity 1 })))

/-- A request times out (R299): logged, answered with an error, and its response discarded when it comes: of a Dolly command
the line is kept for that, of another port its response says so itself (log entry 116). -/
def State.timeOut (s : State) (h : Half) (port : HbmPort) (addr : Nat) : State :=
  (s.modHbm h (fun m => { m with late := if portCode port = 0 then m.late ++ [(port, lineAt addr)] else m.late })).hbmFails h 6
    port addr 0

/-- HBM_TIMEOUT (R299): a request has had no response for 20 µs since its admission. When a port that is not Dolly's had its
request admitted shows in no row, and the row's word is taken (log entry 116). -/
def execHbmTimeout (t : Nat) (h : Half) (port : HbmPort) (addr : Nat) (s : State) : Host.Outcome State Fault Refusal :=
  .next (onLive (s.advance t) h (fun s =>
    if !(s.ownHbm h addr) then s
    else
      match port with
      | .dolly c =>
        (match (s.job h c).exec with
         | some e => if e.awaits addr && decide (e.admittedAt addr + 20000 ≤ s.now) then s.timeOut h port addr else s
         | none => s)
      | _ => s.timeOut h port addr))

/-! ### HBM_APPLY (R293, R316) -/

/-- HBM_APPLY.APPLY is written (R316). -/
def State.hbmApply (s : State) (h : Half) (w : World) : State :=
  s.secureOnly h 10 w (fun s => s.modHbm h (fun m => { m with applyPending := true, takePort := m.stagedPort }))

/-- HBM_APPLY (R13): HBM_PORT_CTL as now written takes effect at the next slot boundary. -/
def execHbmApply (t : Nat) (h : Half) (w : World) (s : State) : Host.Outcome State Fault Refusal :=
  .next (onLive (s.advance t) h (fun s => s.hbmApply h w))

/-- At the slot boundary HBM_PORT_CTL is in effect, as the APPLY found it (R293). -/
def Hbm.apply (m : Hbm) : Hbm :=
  if m.applyPending then
    { m with
      applyPending := false, hznPrio := field m.takePort 7 6, dirPrio := field m.takePort 5 4
      pciePrio := field m.takePort 3 2 }
  else m

end Sys2Proof.Machine
end

