-- ==== Sys2Proof/Machine/Landing.lean ====
section
/-! DEFINITION. The entry path: unpacking (R255), cropping, channels, decimation, normalisation and conversion of a
camera line (R269), where its rows land (R270, R272), and the leader lines (R273 to R275). -/

namespace Sys2Proof.Machine

open Sys2Proof

/-! ### Data types (R255) -/

/-- Component width b of a data type. -/
def dtBits (dt : Nat) : Nat := if dt = 0x2B then 10 else if dt = 0x2C then 12 else if dt = 0x2E then 16 else 8
/-- Pixels and bytes of one packing group. -/
def dtGroup (dt : Nat) : Nat × Nat :=
  if dt = 0x2B then (4, 5) else if dt = 0x2C then (2, 3) else if dt = 0x2E then (1, 2)
  else if dt = 0x1E then (2, 4) else (1, 3)
/-- The data types a stream carries, and whether a CHAN_MODE is permitted with one. -/
def dtOk (dt mode : Nat) : Bool :=
  if dt = 0x2B ∨ dt = 0x2C ∨ dt = 0x2E then decide (mode ≤ 1) else (dt == 0x1E || dt == 0x24) && mode == 2
/-- Bytes of a line of `n` pixels in a data type's packing (R255), rounded up to whole groups (DESIGN CHOICE, log entry 166). -/
def lineBytes (dt n : Nat) : Nat := ceilDiv n (dtGroup dt).1 * (dtGroup dt).2

/-- Component codes of one packing group: one code a pixel, or three for YUV422 (Y, U, V) and RGB888 (R, G, B). The
order of the bytes in a group is CSI-2's (log entry 17). -/
def groupCodes (dt : Nat) (b : List Nat) : List Nat :=
  let g := fun (i : Nat) => b.getD i 0
  if dt = 0x2B then (List.range 4).map (fun i => g i * 4 + field (g 4) (2 * i + 1) (2 * i))
  else if dt = 0x2C then [g 0 * 16 + field (g 2) 3 0, g 1 * 16 + field (g 2) 7 4]
  else if dt = 0x2E then [g 0 + 256 * g 1]
  else if dt = 0x1E then [g 1, g 0, g 2, g 3, g 0, g 2]
  else [g 2, g 1, g 0]

/-- Codes of whole groups of a payload, at most `fuel` of them. -/
def unpackGroups (dt : Nat) : Nat → List Nat → List Nat
  | 0, _ => []
  | fuel + 1, l =>
    if l.length < (dtGroup dt).2 then []
    else groupCodes dt (l.take (dtGroup dt).2) ++ unpackGroups dt fuel (l.drop (dtGroup dt).2)

/-- Codes of a line: the first LINE_PIXELS pixels that arrived; pixels a short line lacks are code 0 (R276). -/
def unpackLine (dt pixels : Nat) (payload : List Byte) : List Nat :=
  let k := if dt = 0x1E ∨ dt = 0x24 then 3 else 1
  let l := unpackGroups dt (ceilDiv pixels (dtGroup dt).1) (payload.map (·.toNat))
  (l ++ List.replicate (k * pixels - l.length) 0).take (k * pixels)

/-! ### The steps of R269 -/

/-- Step 1: the cropped pixels of a line. -/
def StreamCfg.cropLine (c : StreamCfg) (codes : List Nat) : List Nat :=
  let k := if c.chanMode = 2 then 3 else 1
  (codes.drop (k * c.cropX0)).take (k * c.cropW)

/-- Step 2: the code of channel `ch` at column `x`, row `y` of the gathered lines. -/
def StreamCfg.codeAt (c : StreamCfg) (lines : List (List Nat)) (y x ch : Nat) : Nat :=
  if c.chanMode = 0 then (lines.getD y []).getD x 0
  else if c.chanMode = 1 then (lines.getD (2 * y + ch / 2) []).getD (2 * x + ch % 2) 0
  else (lines.getD y []).getD (3 * x + ch) 0

/-- Step 3: the mean of the HDEC × VDEC codes of a window. -/
def StreamCfg.window (c : StreamCfg) (lines : List (List Nat)) (x ch : Nat) : Rat :=
  let sum := (List.range c.vdec).foldl (fun a y =>
    (List.range c.hdec).foldl (fun b i => b + c.codeAt lines y (x * c.hdec + i) ch) a) 0
  mkRat sum (c.hdec * c.vdec)

/-- The landed format (R258). -/
def StreamCfg.fmt (c : StreamCfg) : Fmt := (fmtOf c.landFmt).getD .int8
/-- OFFSET_c and GAIN_c (R286). -/
def StreamCfg.offsetOf (c : StreamCfg) (ch : Nat) : Fv := Fmt.fp32.decode (field (c.norm.getD ch 0).toNat 63 32)
def StreamCfg.gainOf (c : StreamCfg) (ch : Nat) : Fv := Fmt.fp32.decode (field (c.norm.getD ch 0).toNat 31 0)

/-- Steps 3 to 5 for one landed element. -/
def StreamCfg.element (c : StreamCfg) (lines : List (List Nat)) (x ch : Nat) : Fv :=
  c.fmt.convert (((fvOf (c.window lines x ch)).sub (c.offsetOf ch)).mul (c.gainOf ch))

/-- P_row of a landed image (R107): D0 is the channel count. -/
def StreamCfg.prow (c : StreamCfg) : Nat := pRow c.fmt false 0 c.channels

/-- One output row: its bytes, padding zero (R270), and whether a saturation set NORM_CLIP. -/
def StreamCfg.outRow (c : StreamCfg) (lines : List (List Nat)) : List Byte × Bool :=
  let px := (List.range c.outW).map (fun x => (List.range c.channels).map (fun ch => c.element lines x ch))
  (px.flatMap (fun p =>
    let b := c.fmt.packRow (p.map (fun v => c.fmt.encode v.val))
    (b ++ List.replicate (c.prow - b.length) 0).take c.prow),
   px.any (fun p => p.any (fun v => v.fl.clip)))

/-- Source lines of one output row. -/
def StreamCfg.rowLines (c : StreamCfg) : Nat := c.vdec * c.quad

/-! ### Landing (R270, R272) -/

/-- Where output row `r` of a frame lands: in image FRAME_SEQ mod D3. -/
def State.landAddr (s : State) (c : StreamCfg) (seq r : Nat) : Nat :=
  let d := s.desc c.landDesc
  d.rowAddr c.prow ((seq % max 1 d.d3 * c.outH + r) * c.outW)

/-! ### Leader lines (R273 to R275) -/

/-- The code of pattern `k` at pixel `x` for component width `b` (R274). -/
def patternCode (k b x : Nat) : Nat :=
  let m := 2 ^ b - 1
  let p10 := x * 40503 % 2 ^ b
  if k = 0 then 0
  else if k = 1 then m
  else if k = 2 then (if x % 2 = 0 then 0 else m)
  else if k = 3 then (if x % 2 = 0 then m else 0)
  else if k = 4 then x % 2 ^ b
  else if k = 5 then m - x % 2 ^ b
  else if k = 6 then 2 ^ (x % b)
  else if k = 7 then m - 2 ^ (x % b)
  else if k = 8 then 0x5555 % 2 ^ b
  else if k = 9 then 0xAAAA % 2 ^ b
  else if k = 10 then p10
  else if k = 11 then m - p10
  else if k = 12 then (if x / 8 % 2 = 0 then m else 0)
  else if k = 13 then 2 ^ (b - 1)
  else if k = 14 then 2 ^ (b - 1) - 1
  else x * 40503 / 8 % 2 ^ b

/-- The component codes of a leader line of pattern `k` (R274). -/
def StreamCfg.leaderCodes (c : StreamCfg) (k : Nat) : List Nat :=
  let b := dtBits c.dt
  (List.range c.linePixels).flatMap (fun x =>
    if c.dt = 0x1E then [patternCode k b x, patternCode k b (x / 2 * 2), patternCode k b (x / 2 * 2)]
    else if c.dt = 0x24 then List.replicate 3 (patternCode k b x)
    else [patternCode k b x])

/-- The landed leader row of pattern `k`: the line is presented VDEC × q times (R273); and
whether a normalisation saturated. -/
def StreamCfg.leaderRow (c : StreamCfg) (k : Nat) : List Byte × Bool :=
  c.outRow (List.replicate c.rowLines (c.cropLine (c.leaderCodes k)))

/-- Patterns of leader rows 0 and 1 of a frame (R274). -/
def leaderPattern (seq row : Nat) : Nat := 2 * (seq % 8) + row

end Sys2Proof.Machine
end

