-- ==== Sys2Proof/Machine/Horizon.lean ====
section
/-! DEFINITION. Horizon's rows: packets (R254 to R256, R269, R276), line time (R261, R262), frame sync (R266), HZN_APPLY
(R264) and the adoption of SHEET_FRAME (R268). -/

namespace Sys2Proof.Machine

open Sys2Proof

/-! ### Ports and contexts -/

/-- Port `p` of a half. -/
def HalfState.port (x : HalfState) (p : Nat) : Port := tget {} x.hzn.ports p
/-- Change a port. -/
def State.modPort (s : State) (h : Half) (p : Nat) (f : Port → Port) : State :=
  s.modHzn h (fun z => { z with ports := tmod {} z.ports p f })
/-- A packet is discarded and counted against its port (R254, R278). -/
def State.discard (s : State) (h : Half) (p : Nat) : State :=
  s.modPort h p (fun x => { x with discarded := satAdd 0xFFFF x.discarded 1 })
/-- A corrected header is counted (R254). -/
def State.headerCount (s : State) (h : Half) (p : Nat) (corrected : Bool) : State :=
  if corrected then s.modPort h p (fun x => { x with corrected := satAdd 0xFFFF x.corrected 1 }) else s
/-- The receiver port is enabled (R286). -/
def HalfState.portOn (x : HalfState) (p : Nat) : Bool := flag (x.port p).ctl.toNat 63

/-- A configuration binds a (PORT, VC) pair (R257). -/
def StreamCfg.binds (c : StreamCfg) (p vc : Nat) : Bool := c.enabled && c.port == p && c.vc == vc

/-- The context in effect that a pair is bound to. -/
def HalfState.bound (x : HalfState) (p vc : Nat) : Option Nat :=
  (x.hzn.streams.find? (fun k => k.2.cfg.binds p vc)).map (·.1)

/-- A frame-start reaches a context whose applied configuration waits: it takes effect (R264). -/
def Stream.adopt (p vc : Nat) (k : Stream) : Stream :=
  match k.staged with
  | some c => if c.binds p vc || k.cfg.binds p vc then { k with cfg := c, staged := none, lines := [] } else k
  | none => k

/-! ### Frames (R266, R276) -/

/-- The newest frame of a stream that has not ended. -/
def Stream.open? (k : Stream) : Option Frame :=
  match k.frames with
  | f :: _ => if f.ended then none else some f
  | [] => none

/-- Change the newest frame. -/
def Stream.modNewest (f : Frame → Frame) (k : Stream) : Stream :=
  match k.frames with
  | g :: r => { k with frames := f g :: r }
  | [] => k

/-- Change the frame of a stream that bears a FRAME_SEQ. -/
def Stream.onFrame (seq : Nat) (f : Frame → Frame) (k : Stream) : Stream :=
  { k with frames := k.frames.map (fun g => if g.seq = seq then f g else g) }

/-- A frame's mark becomes final: a marked frame is counted, and the mark shows in STREAM_STAT (R276, R286). -/
def Stream.finalise (seq : Nat) (k : Stream) : Stream :=
  match k.frame? seq with
  | none => k
  | some g =>
    if g.final then k
    else
      { k.onFrame seq (fun f => { f with final := true }) with
        lastMark := g.mark % 65536, marked := satAdd 0xFFFF k.marked (bitOf g.marked) }

/-- The open frame takes a mark bit unless its mark is final. -/
def Stream.mark (bit : Nat) (k : Stream) : Stream :=
  k.modNewest (fun f => if f.final then f else { f with mark := f.mark ||| 2 ^ bit })

/-- A frame ends early (R276): its mark is final, and this instant stands for its last landing (log entry 21). -/
def Stream.endEarly (now seq : Nat) (k : Stream) : Stream :=
  (k.finalise seq).onFrame seq (fun f => { f with ended := true, lastLanding := some (f.lastLanding.getD now) })

/-- The open frame ends by a frame-end, or early; `bad` says that LINE_COUNT marks it, which ends it early (R276). The mark of
any other frame is final at its last landing. -/
def Stream.close (now : Nat) (bad : Bool) (k : Stream) : Stream :=
  match k.open? with
  | none => k
  | some f => if bad then (k.mark 3).endEarly now f.seq else k.modNewest (fun f => { f with ended := true })

/-- A row of a frame has missed its bound: LINE_LATE (R271). A frame whose frame-end has come, and which no line can give the
rows it lacks, ends here (log entry 21). -/
def Stream.missRow (now seq : Nat) (k : Stream) : Stream :=
  let k1 := k.onFrame seq (fun f => if f.final then f else { f with mark := f.mark ||| 2 ^ 5 })
  match k.frame? seq with
  | none => k1
  | some f => if f.ended && decide (f.rowsFormed < k.cfg.outH) then k1.endEarly now seq else k1

/-- The sheet line, counted from power-up, at which a frame that starts now has its first active line expected (R261,
R271): the first FIRST_LINE from its output's last active edge on, where that fell within one sheet frame, else from now
on (log entry 121). -/
def Hzn.expectAt (z : Hzn) (c : StreamCfg) : Nat :=
  let n := max 1 z.line.frameLines
  let back := match (tget ({} : Fsync) z.fsync c.fsyncSel).edgeAt with
    | some a => if z.lines - a < n then z.lines - a else 0
    | none => 0
  z.lines - back + (c.firstLine % n + n - (z.lineNo % n + n - back) % n) % n

/-- The last source line of output row `r`, as an active line (R269, R271). -/
def StreamCfg.lastLineOf (c : StreamCfg) (r : Nat) : Nat := c.cropY0 + (r + 1) * c.rowLines - 1

/-- Output row `r` of a frame has missed its bound: the end of sheet line FIRST_LINE + i + 2 has passed (R271). -/
def Hzn.rowLate (z : Hzn) (c : StreamCfg) (f : Frame) (r : Nat) : Bool := decide (f.expectAt + c.lastLineOf r + 2 < z.lines)

/-- A new frame begins: an open one ends before its frame-end (R276); the frame bears the SHEET_FRAME `seq` of its output's
last active edge (R266), and is UNLOCKED where the timer was not LOCKED at its frame-start. -/
def Stream.begin' (now : Nat) (locked : Bool) (seq expect : Nat) (k : Stream) : Stream :=
  let k1 := { k.close now true with seqSource := seq }
  let old := k1.frames.filter (fun f => f.seq != seq)
  let f : Frame :=
    { seq := seq, startedAt := now, expectAt := expect
      mark := (if k1.leaderSeq = seq then k1.leaderBits else 0) ||| (if locked then 0 else 2 ^ 7)
      recorded := k1.frames.any (fun f => f.seq == seq && f.recorded) }
  { k1 with frames := f :: old.take 15, lines := [] }

/-- FRAME_END (R276): the open frame ends; LINE_COUNT where it did not have FRAME_ROWS line-starts. -/
def execFrameEnd (t : Nat) (h : Half) (port vc : Nat) (corrected : Bool) (s : State) :
    Host.Outcome State Fault Refusal :=
  .next (onLive (s.advance t) h (fun s =>
    if !((s.half h).portOn port) then s
    else
      let s1 := s.headerCount h port corrected
      match (s1.half h).bound port vc with
      | none => s1.discard h port
      | some k =>
        s1.modStream h k (fun x => { x with activeLine := none }.close s.now (match x.open? with
          | some f => f.lineStarts != x.cfg.frameRows
          | none => false))))

/-- The sheet line before the next frame's first active line is expected has begun (R276; log entry 122). -/
def Hzn.frameOver (z : Hzn) (f : Frame) : Bool := decide (f.expectAt + z.line.frameLines ≤ z.lines + 1)

/-- LINE_COUNT (R276): no frame-end by the sheet line before the next expected frame-start. -/
def execLineCount (t : Nat) (h : Half) (stream : Nat) (s : State) : Host.Outcome State Fault Refusal :=
  .next (onLive (s.advance t) h (fun s =>
    match (s.stream h stream).open? with
    | some f => if (s.half h).hzn.frameOver f then s.modStream h stream (Stream.close s.now true) else s
    | none => s))

/-- LINE_LATE (R271): the next row of a frame has not been written by its landing bound. -/
def execLineLate (t : Nat) (h : Half) (stream frame : Nat) (s : State) : Host.Outcome State Fault Refusal :=
  .next (onLive (s.advance t) h (fun s =>
    let x := s.stream h stream
    match x.frame? frame with
    | none => s
    | some f =>
      if !f.final && decide (f.rowsLanded < x.cfg.outH) && (s.half h).hzn.rowLate x.cfg f f.rowsLanded then
        s.modStream h stream (Stream.missRow s.now frame)
      else s))

/-- HDR_UE (R254): a packet with an uncorrectable header is discarded and counted against its port, and marks the open
frames of the port's streams (R276). -/
def execHdrUe (t : Nat) (h : Half) (port : Nat) (s : State) : Host.Outcome State Fault Refusal :=
  .next (onLive (s.advance t) h (fun s =>
    if !((s.half h).portOn port) then s
    else
      (s.discard h port).modHzn h (fun z =>
        { z with streams := z.streams.map (fun k =>
            (k.1, if k.2.cfg.enabled && k.2.cfg.port == port && k.2.open?.isSome then k.2.mark 2 else k.2)) })))

/-! ### Line time (R261, R262) -/

/-- The stream context the timer follows (R262, R263). -/
def Hzn.inUse (z : Hzn) : Nat := if z.onAlt then z.line.altMaster else z.line.master

/-- The length of the lines that begin from now on: LINE_NS, and in locked mode δ (R261). -/
def Hzn.period (z : Hzn) : Nat := ((z.line.lineNs : Int) + (if z.line.locked then z.delta else 0)).toNat

/-- The arrival error of active line `i`'s line-start: none outside LINE_NS / 2 of its expected instant (R261). -/
def Hzn.error? (now firstLine i : Nat) (z : Hzn) : Option Int :=
  let n := max 1 z.line.frameLines
  let want := (firstLine + i) % n
  let late : Int := (now : Int) - (z.lineStart : Int)
  let e : Int := if want = z.lineNo then late else late - z.linePeriod
  if (want = z.lineNo ∨ want = (z.lineNo + 1) % n) ∧ (2 * e).natAbs ≤ z.line.lineNs then some e else none

/-- δ of an error: e / 8 toward zero, within ±16 ns (R261). -/
def deltaOf (e : Int) : Int := max (-16) (min 16 (Int.tdiv e 8))

/-- A line-start of the stream in use in locked mode (R261, R262): in HOLDOVER δ keeps its value, and 8 consecutive
packets within the window move to ACQUIRING. -/
def Hzn.steer (e : Option Int) (z : Hzn) : Hzn :=
  let good := match e with
    | some x => decide (x.natAbs ≤ z.line.lockTol)
    | none => false
  let z1 := { z with
    seenThisFrame := true, lastE := e.getD z.lastE, goodRun := if good then z.goodRun + 1 else 0
    badRun := if good then 0 else z.badRun + 1 }
  match z.lockState with
  | .holdover =>
    let run := if e.isSome then z.holdoverRun + 1 else 0
    if 8 ≤ run then { z1 with lockState := .acquiring, holdoverRun := 0, goodRun := 0, badRun := 0, seenThisFrame := true }
    else { z1 with holdoverRun := run }
  | _ => { z1 with delta := match e with
      | some x => deltaOf x
      | none => z.delta }

/-- LINE_START (R261): a line-start packet; that of the stream in use steers the timer in locked mode. -/
def execLineStart (t : Nat) (h : Half) (port vc : Nat) (corrected : Bool) (s : State) :
    Host.Outcome State Fault Refusal :=
  .next (onLive (s.advance t) h (fun s =>
    if !((s.half h).portOn port) then s
    else
      let s1 := s.headerCount h port corrected
      match (s1.half h).bound port vc with
      | none => s1.discard h port
      | some k =>
        let x := s1.stream h k
        let s2 := s1.modStream h k (fun x =>
          { (if x.open?.isSome then x.modNewest (fun f => { f with lineStarts := f.lineStarts + 1 }) else x) with
            activeLine := x.activeLine.map (· + 1) })
        match x.activeLine with
        | none => s2
        | some i =>
          s2.modHzn h (fun z =>
            if z.line.locked && z.inUse == k then z.steer (z.error? s.now x.cfg.firstLine i) else z)))

/-- LINE_LOCK (R262): 64 consecutive packets within LOCK_TOL move ACQUIRING to LOCKED; logged. -/
def execLineLock (t : Nat) (h : Half) (s : State) : Host.Outcome State Fault Refusal :=
  .next (onLive (s.advance t) h (fun s =>
    let z := (s.half h).hzn
    if z.line.locked && decide (z.lockState = .acquiring) && decide (64 ≤ z.goodRun) then
      (s.modHzn h (fun z => { z with lockState := .locked, lockedAt := s.now })).log h { code := 0x0301, unit := 7, detail := z.inUse }
    else s))

/-- HOLDOVER, and with ALT_EN at once ACQUIRING on the other stream (R262). -/
def Hzn.unlock (z : Hzn) : Hzn :=
  let z1 := { z with goodRun := 0, badRun := 0, holdoverRun := 0, seenThisFrame := true }
  if z.line.altEn then { z1 with lockState := .acquiring, onAlt := !z.onAlt } else { z1 with lockState := .holdover }

/-- LINE_UNLOCK (R262): 8 consecutive bad packets, or a sheet frame without a line-start of the stream in use, move
ACQUIRING or LOCKED to HOLDOVER; logged. -/
def execLineUnlock (t : Nat) (h : Half) (s : State) : Host.Outcome State Fault Refusal :=
  .next (onLive (s.advance t) h (fun s =>
    let z := (s.half h).hzn
    if z.line.locked && (decide (z.lockState = .acquiring) || decide (z.lockState = .locked)) && decide (8 ≤ z.badRun) then
      (s.modHzn h Hzn.unlock).log h { code := 0x0302, unit := 7, detail := z.inUse }
    else s))

/-- LINE_CTL takes effect at a line 0 (R262, R264): LOCK_STATE enters ACQUIRING on MASTER where the timer becomes locked,
MASTER changes, or ALT_MASTER changes while the timer follows it; where ALT_EN is now 0b1 it leaves HOLDOVER for ACQUIRING on
the other stream (DESIGN CHOICE, log entry 165). -/
def Hzn.takeLine (c : LineCfg) (z : Hzn) : Hzn :=
  let z1 := { z with line := c }
  if !c.locked then
    { z1 with lockState := .freeRun, onAlt := false, delta := 0, goodRun := 0, badRun := 0, holdoverRun := 0 }
  else if !z.line.locked || c.master != z.line.master || (z.onAlt && c.altMaster != z.line.altMaster) then
    { z1 with lockState := .acquiring, onAlt := false, goodRun := 0, badRun := 0, holdoverRun := 0, seenThisFrame := true }
  else if c.altEn && decide (z.lockState = .holdover) then
    { z1 with
      lockState := .acquiring, onAlt := !z.onAlt, goodRun := 0, badRun := 0, holdoverRun := 0, seenThisFrame := true }
  else z1

/-! ### Landing writes (R182, R185, R270, R272, R288) -/

/-- What becomes of a landing write. -/
inductive LandVerdict where
  | ok
  /-- The map refuses it, or the HBM failed its training (R288, R296). -/
  | decode
  /-- The region descriptors refuse it (R272, R313). -/
  | region
  /-- The landing job does not own a bank (R182). -/
  | owner
deriving DecidableEq, Repr

/-- The check of a landing write: it bears the tag and the world of the landing job (R272). -/
def State.landVerdict (s : State) (h : Half) (c : StreamCfg) (r : Region) : LandVerdict :=
  let admitted := (s.half h).admits (.job c.landCtx) (s.jobSecure h c.landCtx) true r.base r.len
  match s.targetOf r with
  | .bankPool k => if k ≠ h then .decode else if !admitted then .region else if !(s.ownsRange h c.landCtx r) then .owner else .ok
  | .hbm k => if k ≠ h ∨ (s.half h).hbmServed = false then .decode else if !admitted then .region else .ok
  | _ => .decode

/-- The check of a leader row, whose region lies in banks (R273). -/
def State.leaderVerdict (s : State) (h : Half) (c : StreamCfg) (r : Region) : LandVerdict :=
  match s.landVerdict h c r, s.targetOf r with
  | .ok, .hbm _ => .region
  | v, _ => v

/-- A landing write is performed, through its port in the HBM (R292, R293), or its refusal is logged (R182, R288). -/
def State.landWrite (s : State) (h : Half) (c : StreamCfg) (a : Nat) (bytes : List Byte) : LandVerdict → State
  | .ok =>
    (if s.target a = .hbm h then s.portUse h .horizon { base := a, len := bytes.length } else s).writeBytes a bytes
  | .decode => s.log h { code := 0x0112, unit := 7, ctx := c.landCtx, detail := a }
  | .owner =>
    let l := s.foreignLine h c.landCtx { base := a, len := bytes.length }
    s.log h { code := 0x0402, unit := 2 + bankAt h l / 64, ctx := c.landCtx, detail := bankDetail h c.landCtx l }
  | .region => s

/-- A range of the half's bank pool has a bank that is being scrubbed: a write to it waits (R185). -/
def State.scrubs (s : State) (h : Half) (r : Region) : Bool :=
  s.targetOf r == .bankPool h && (banksOf h r).any (fun b => (s.bank h b).scrubbing)

/-- The range a waiting write goes to. -/
def HeldWrite.region : HeldWrite → Region
  | .row _ _ _ a b _ => { base := a, len := b.length }
  | .leader _ _ _ a b _ => { base := a, len := b.length }
  | .host _ a b => { base := a, len := b.length }

/-- The port a waiting write takes into the HBM (R293). DESIGN CHOICE (log entry 143): a host access over the SDIO port takes
the host's port, as one over PCIe does. -/
def HeldWrite.port : HeldWrite → HbmPort
  | .host _ _ _ => .pcie
  | _ => .horizon

/-- A landing or host write to a half waits: for the end of its bank's scrub (R185), or, in the HBM, for its port's tokens and
its level's room, behind the writes of its port that wait already (R292, R293). -/
def State.writeWaits (s : State) (h : Half) (w : HeldWrite) : Bool :=
  s.scrubs h w.region ||
    (s.targetOf w.region == .hbm h &&
      (!(s.portOpen h w.port w.region) ||
        (s.half h).dolly.held.any (fun x => x.port == w.port && s.targetOf x.region == .hbm h)))

/-- A write waits. -/
def State.hold (s : State) (h : Half) (w : HeldWrite) : State := s.modDolly h (fun d => { d with held := d.held ++ [w] })

/-! ### Long packets (R269 to R272, R276) -/

/-- Output row `r` of frame `seq` is written, or marks the frame LAND_ERR (R270, R272); one past its bound marks it LINE_LATE,
and the last one is the frame's last landing (R271). -/
def State.rowLands (s : State) (h : Half) (k seq r a : Nat) (bytes : List Byte) (clip : Bool) : State :=
  let c := (s.stream h k).cfg
  let v := s.landVerdict h c { base := a, len := bytes.length }
  let s1 := s.landWrite h c a bytes v
  s1.modStream h k (fun x =>
    match x.frame? seq with
    | none => x
    | some f =>
      let last := decide (c.outH ≤ f.rowsLanded + 1)
      let late := (s.half h).hzn.rowLate c f r
      let m := (if clip then 2 ^ 8 else 0) ||| (if v = .ok then 0 else 2 ^ 6) ||| (if late then 2 ^ 5 else 0)
      let y := x.onFrame seq (fun f =>
        { f with
          mark := if f.final then f.mark else f.mark ||| m, rowsLanded := f.rowsLanded + 1
          lastLanding := if last && f.lastLanding.isNone then some s.now else f.lastLanding })
      if last then { y.finalise seq with landed := satAdd 0xFFFF y.landed 1 } else y)

/-- An output row lands, or waits (R185, R293). -/
def State.rowArrives (s : State) (h : Half) (k seq r a : Nat) (bytes : List Byte) (clip : Bool) : State :=
  if s.writeWaits h (.row k seq r a bytes clip) then s.hold h (.row k seq r a bytes clip)
  else s.rowLands h k seq r a bytes clip

/-- The next output row of the newest frame is formed and written (R270). -/
def State.landRow (s : State) (h : Half) (k : Nat) (lines : List (List Nat)) : State :=
  let x := s.stream h k
  match x.frames with
  | [] => s
  | f :: _ =>
    let row := x.cfg.outRow lines
    let a := s.landAddr x.cfg f.seq f.rowsFormed
    (s.modStream h k (Stream.modNewest (fun f => { f with rowsFormed := f.rowsFormed + 1 }))).rowArrives h k f.seq
      f.rowsFormed a row.1 row.2

/-- A line inside the crop is gathered; VDEC × q lines make an output row. -/
def State.gatherLine (s : State) (h : Half) (k : Nat) (line : List Nat) : State :=
  let x := s.stream h k
  let l := x.lines ++ [line]
  if l.length < x.cfg.rowLines then s.modStream h k (fun x => { x with lines := l })
  else (s.landRow h k l).modStream h k (fun x => { x with lines := [] })

/-- A line of the open frame: the marks of R276, then the entry path of R269. The n-th long packet of a frame is taken as its
active line n, so that one that is lost shifts the later ones (DESIGN CHOICE, log entry 120). -/
def State.takeLine (s : State) (h : Half) (k port wordCount : Nat) (payload : List Byte) (crcOk : Bool) (f : Frame) : State :=
  let c := (s.stream h k).cfg
  let i := f.longPackets
  let inCrop := decide (c.cropY0 ≤ i) && decide (i < c.cropY0 + c.cropH)
  let s1 := s.modStream h k (fun x =>
    let x1 := x.modNewest (fun f => { f with longPackets := f.longPackets + 1 })
    let x2 := if !crcOk && inCrop then x1.mark 1 else x1
    if wordCount ≠ lineBytes c.dt c.linePixels then x2.mark 4 else x2)
  let s2 := if !crcOk && !inCrop then s1.discard h port else s1
  if inCrop && f.lastLanding.isNone then s2.gatherLine h k (c.cropLine (unpackLine c.dt c.linePixels payload)) else s2

/-- LONG_PACKET (R254, R255, R269): a long packet of another data type is discarded and counted, embedded data
silently, also on a pair bound to no enabled context (DESIGN CHOICE, log entry 120); one whose virtual-channel extension bits
are set is discarded and counted whatever it carries. -/
def execLongPacket (t : Nat) (h : Half) (port vc dt wordCount : Nat) (payload : List Byte) (crcOk corrected : Bool)
    (s : State) : Host.Outcome State Fault Refusal :=
  .next (onLive (s.advance t) h (fun s =>
    if !((s.half h).portOn port) then s
    else
      let s1 := s.headerCount h port corrected
      match (s1.half h).bound port vc with
      | none => if dt = 0x12 ∧ vc < 4 then s1 else s1.discard h port
      | some k =>
        if dt = 0x12 then s1
        else if dt ≠ (s1.stream h k).cfg.dt then s1.discard h port
        else
          match (s1.stream h k).open? with
          | none => s1
          | some f => if (s1.half h).namesStream k then s1.takeLine h k port wordCount payload crcOk f else s1))

/-! ### Leader lines (R273 to R275) -/

/-- What a leader row gives its frame: LEADER_FAIL, LAND_ERR and NORM_CLIP (R272, R275, R287); the frame takes it at its
frame-start, or at once where it has begun. -/
def Stream.leaderMark (seq bits : Nat) (k : Stream) : Stream :=
  { k with
    leaderSeq := seq, leaderBits := (if k.leaderSeq = seq then k.leaderBits else 0) ||| bits
    frames := k.frames.map (fun f => if f.seq = seq ∧ f.final = false then { f with mark := f.mark ||| bits } else f) }

/-- FRAME_SEQ of the frame whose leader rows the present sheet line injects (R266, R274): where its output's active edge is
still to fall before FIRST_LINE, the present SHEET_FRAME, else the value at the last edge (log entry 123). -/
def HalfState.leaderFrame (x : HalfState) (c : StreamCfg) : Nat :=
  let f := tget ({} : Fsync) x.hzn.fsync c.fsyncSel
  (if f.enable && !f.faulted && decide (x.hzn.lineNo < f.offset) && decide (f.offset ≤ c.firstLine) then x.hzn.sheetFrame
   else f.edgeFrame) % 2 ^ 32

/-- A leader row lands, in banks its landing job owns (R273; ownership is checked as it lands, log entry 128), and its CRC is
compared (R275). The log carries stream and pattern in CMD_TAG and the expected and
computed values in DETAIL. -/
def State.leaderLands (s : State) (h : Half) (k seq row a : Nat) (bytes : List Byte) (clip : Bool) : State :=
  let c := (s.stream h k).cfg
  let v := s.leaderVerdict h c { base := a, len := bytes.length }
  let want := c.leaderCrc.getD (leaderPattern seq row) 0
  let got := crc32c bytes
  let bad := got != want
  let s1 := (s.landWrite h c a bytes v).modStream h k
    (Stream.leaderMark seq (bitOf bad + bitOf (decide (v ≠ .ok)) * 2 ^ 6 + bitOf clip * 2 ^ 8))
  if bad then
    s1.log h { code := 0x0304, unit := 7, tag := k * 2 ^ 8 + leaderPattern seq row, detail := want % 2 ^ 32 * 2 ^ 32 + got }
  else s1

/-- A leader row lands, or waits (R185, R293). -/
def State.leaderArrives (s : State) (h : Half) (k seq row a : Nat) (bytes : List Byte) (clip : Bool) : State :=
  if s.writeWaits h (.leader k seq row a bytes clip) then s.hold h (.leader k seq row a bytes clip)
  else s.leaderLands h k seq row a bytes clip

/-- Leader row `row` of a stream is injected (R273). -/
def State.leaderRow (s : State) (h : Half) (k row : Nat) : State :=
  let c := (s.stream h k).cfg
  let seq := (s.half h).leaderFrame c
  let x := c.leaderRow (leaderPattern seq row)
  s.leaderArrives h k seq row (c.leaderPtr + row * x.1.length) x.1 x.2

/-- Streams of a half that may be injected: enabled and named by the sheet in force. -/
def HalfState.leaderStreams (x : HalfState) : List Nat :=
  (x.hzn.streams.filter (fun k => k.2.cfg.enabled && x.namesStream k.1)).map (·.1)

/-- Leader lines of the present sheet line (R273), for one stream. -/
def State.leadersOf (s : State) (h : Half) (k : Nat) : State :=
  let l := (s.half h).hzn.lineNo
  let c := (s.stream h k).cfg
  if l = c.leaderLine then s.leaderRow h k 0 else if l = c.leaderLine + 1 then s.leaderRow h k 1 else s

/-- After leader row 1 the stream's consecutive failures are counted (R373), and streams that fail in one frame (R371). -/
def State.leaderTally (s : State) (h : Half) (k : Nat) : State :=
  let seq := (s.half h).hzn.sheetFrame % 2 ^ 32
  if (s.half h).hzn.lineNo ≠ (s.stream h k).cfg.leaderLine + 1 then s
  else if flag (s.stream h k).leaderBits 0 then
    let n := if (s.half h).isl.leaderFrame.1 = seq then (s.half h).isl.leaderFrame.2 + 1 else 1
    let s1 := (s.modStream h k (fun x => { x with leaderFails := x.leaderFails + 1 })).modIsl h (fun i =>
      { i with leaderFrame := (seq, n) })
    if n = 2 then s1.disagree h 7 else s1
  else s.modStream h k (fun x => { x with leaderFails := 0 })

/-- The leader lines of every stream at the start of a sheet line. -/
def State.leaders (s : State) (h : Half) : State :=
  (s.half h).leaderStreams.foldl (fun t k => (t.leadersOf h k).leaderTally h k) s

/-! ### Frame sync (R266) -/

/-- FSYNC_FAULT (R266): the read-back level has differed for 2 lines; the island drives the output low. The level of the
ball is the hardware's word (log entry 126). -/
def execFsyncFault (t : Nat) (h : Half) (output : Nat) (s : State) : Host.Outcome State Fault Refusal :=
  .next (onLive (s.advance t) h (fun s =>
    (s.modHzn h (fun z =>
      { z with fsync := tmod {} z.fsync output (fun f =>
          { f with sense := !f.driven, driven := false, linesLeft := 0, faulted := true }) })).log h
      { code := 0x0303, unit := 7, detail := output }))

/-! ### HZN_APPLY (R264) -/

/-- A stream's registers as applied so far: in effect, or on their way into effect (R264). -/
def Stream.applied (k : Stream) : StreamCfg := k.taken.getD (k.staged.getD k.cfg)
/-- A stream's registers as the next apply would stage them. -/
def Stream.next (k : Stream) : StreamCfg := k.written.getD k.applied
/-- LINE_CTL as applied so far. -/
def Hzn.appliedLine (z : Hzn) : LineCfg := z.lineTaken.getD (z.lineStaged.getD z.line)
/-- LINE_CTL as the next apply would stage it. -/
def Hzn.nextLine (z : Hzn) : LineCfg := z.lineWritten.getD z.appliedLine

/-- A condition on LINE_CTL fails (R263): its fields' ranges and, in locked mode, a master or an alternate master that is no
enabled context (log entry 124). -/
def Hzn.lineError (z : Hzn) : Bool :=
  let c := z.nextLine
  c.reservedMode ||
  let on := fun (k : Nat) => decide (k < 24) && (tget ({} : Stream) z.streams k).next.enabled
  decide (c.frameLines < 64) || decide (4095 < c.frameLines) || decide (c.lineNs < 2000) || decide (100000 < c.lineNs) ||
  decide (c.lockTol < 1) || decide (4095 < c.lockTol) || (c.locked && (!(on c.master) || !(on c.altMaster)))

/-- The first failing condition of one enabled stream context (R255 to R259, R269, R270, R273, R279, R280); 0 where none
fails. -/
def State.streamError (s : State) (h : Half) (k : Nat) : Nat :=
  let c := (s.stream h k).next
  let d := s.desc c.landDesc
  let r := s.desc c.resultDesc
  let ring := s.ring h c.ring
  if !c.enabled then 0
  else if c.shadow && !s.twoHalves then 1
  else if 5 < c.port then 2
  else if !(dtOk c.dt c.chanMode) then 3
  else if c.hdecCode = 3 ∨ c.vdecCode = 3 then 4
  else if c.landFmt ≠ 1 ∧ c.landFmt ≠ 7 ∧ c.landFmt ≠ 9 ∧ c.landFmt ≠ 10 then 5
  else if 3 < c.ring then 6
  else if c.linePixels < 64 ∨ 8192 < c.linePixels ∨ c.frameRows < 2 then 7
  else if c.linePixels < c.cropX0 + c.cropW ∨ c.frameRows < c.cropY0 + c.cropH then 8
  else if c.cropW % (c.hdec * c.quad) ≠ 0 ∨ c.cropH % (c.vdec * c.quad) ≠ 0 then 9
  else if (c.dt == 0x1E || c.chanMode == 1) && (c.cropX0 % 2 != 0 || c.cropW % 2 != 0) then 10
  else if c.chanMode = 1 ∧ c.cropY0 % 2 ≠ 0 then 11
  else if (List.range 24).any (fun j => j != k && (s.stream h j).next.binds c.port c.vc) then 12
  else if c.norm.any (fun w => !(finite32 (field w.toNat 63 32)) || !(finite32 (field w.toNat 31 0))) then 13
  else if d.layout ≠ 0 ∨ d.d0 ≠ c.channels ∨ d.d1 ≠ c.outW ∨ d.d2 ≠ c.outH ∨ d.d3 = 0 ∨ d.shapeOk c.prow = false then 14
  else if (match s.targetOf d.region with
      | .bankPool g => g == h
      | .hbm g => g == h && c.shadow
      | _ => false) = false then 15
  else if c.firstLine ≤ c.leaderLine + 2 then 16
  else if cueHome (c.resCue 0) ≠ cueHome (c.resCue 1) ∨ cueHome (c.resCue 0) ≠ cueHome c.freeCue then 17
  else if r.d3 ≠ 2 ∧ (c.payload ≠ 0 ∨ c.resultDesc ≠ 0) then 18
  else if 2 ^ ring.slotLog2 < 64 + c.payload then 19
  else if s.targetOf { base := c.leaderPtr, len := 2 * c.outW * c.prow } ≠ .bankPool h then 20
  else 0

/-- A port whose lane count is the reserved code (R286). -/
def Hzn.portError (z : Hzn) : Bool := z.ports.any (fun p => field (p.2.written.getD (p.2.taken.getD p.2.ctl)).toNat 62 61 == 3)

/-- The first failing condition of the staged set; 0 where it may be applied (R264). -/
def State.hznError (s : State) (h : Half) : Nat :=
  match (List.range 24).find? (fun k => s.streamError h k != 0) with
  | some k => 256 * (k + 1) + s.streamError h k
  | none => if (s.half h).hzn.lineError then 1 else if (s.half h).hzn.portError then 2 else 0

/-- An accepted APPLY takes the set as it is written now; what is written later waits for an APPLY of its own (R13). -/
def Hzn.take (z : Hzn) : Hzn :=
  { z with
    err := false, pending := true, lineTaken := z.lineWritten.or z.lineTaken, lineWritten := none
    fsyncTaken := z.fsyncWritten.foldl (fun l p => tput l p.1 p.2) z.fsyncTaken, fsyncWritten := []
    ports := z.ports.map (fun p => (p.1, { p.2 with taken := p.2.written.or p.2.taken, written := none }))
    streams := z.streams.map (fun k => (k.1, { k.2 with taken := k.2.written.or k.2.taken, written := none })) }

/-- HZN_APPLY.APPLY is written (R264): the staged set is checked. -/
def State.hznApply (s : State) (h : Half) (w : World) : State :=
  s.secureOnly h 7 w (fun s =>
    let e := s.hznError h
    if e = 0 then s.modHzn h Hzn.take
    else (s.modHzn h (fun z => { z with err := true })).logUnlisted h .applyRefused { code := 0, unit := 7, detail := e })

/-- HZN_APPLY (R264): the staged set is checked; one that breaks a condition sets ERR and is logged, any other waits for
the next slot boundary. -/
def execHznApply (t : Nat) (h : Half) (w : World) (s : State) : Host.Outcome State Fault Refusal :=
  .next (onLive (s.advance t) h (fun s => s.hznApply h w))

/-- The slot boundary of an apply (R264): stream registers wait for their stream's frame-start, LINE_CTL and FSYNC_CTL for
line 0; port registers, for which R264 names no instant, are in effect (DESIGN CHOICE, log entry 164). -/
def Hzn.apply (z : Hzn) : Hzn :=
  if !z.pending then z
  else
    { z with
      pending := false, lineStaged := z.lineTaken.or z.lineStaged, lineTaken := none
      fsyncStaged := z.fsyncTaken.foldl (fun l p => tput l p.1 p.2) z.fsyncStaged, fsyncTaken := []
      ports := z.ports.map (fun p => (p.1, { p.2 with ctl := p.2.taken.getD p.2.ctl, taken := none }))
      streams := z.streams.map (fun k => (k.1, { k.2 with staged := k.2.taken.or k.2.staged, taken := none })) }

/-- HZN_APPLY.PENDING (R13, R286): something applied waits for its slot boundary, for line 0 or for a frame-start. -/
def Hzn.waiting (z : Hzn) : Bool :=
  z.pending || z.lineStaged.isSome || !z.fsyncStaged.isEmpty || z.streams.any (fun k => k.2.staged.isSome)

/-! ### SHEET_FRAME (R268) -/

/-- The camera the timer follows. -/
def HalfState.masterCamera (x : HalfState) : Nat := (tget ({} : Stream) x.hzn.streams x.hzn.inUse).cfg.camera

/-- The value a half's SHEET_FRAME holds at its line 0 nearest the present instant (R268): the present one where that line 0
has passed, else that value plus 1. -/
def State.nearestFrame (s : State) (h : Half) : Nat :=
  let z := (s.half h).hzn
  let since := s.now - z.lineStart + z.lineNo * z.period
  (z.sheetFrame + bitOf (decide (z.line.frameLines * z.period < 2 * since))) % 2 ^ 32

/-- SHEET_FRAME_ADOPT (R268): the later-locked of two halves locked to one camera takes the partner's SHEET_FRAME at its next
line 0. Of two that locked at one instant it is Half B, whose master follows Half A's; a lane that HB_LANE reported silent
carries no exchange (log entry 125). -/
def execSheetFrameAdopt (t : Nat) (h : Half) (lane : Nat) (s : State) : Host.Outcome State Fault Refusal :=
  .next (onLive (s.advance t) h (fun s =>
    let x := (s.half h).hzn
    let y := (s.half (otherHalf h)).hzn
    let both := decide (x.lockState = .locked) && decide (y.lockState = .locked) &&
      (s.half h).masterCamera == (s.half (otherHalf h)).masterCamera
    let later := decide (y.lockedAt < x.lockedAt) || (x.lockedAt == y.lockedAt && h == .b)
    let carried := !((s.half h).isl.lanes.getD lane {}).silent
    if s.live (otherHalf h) && both && later && carried then s.modHzn h (fun z => { z with adopt := true }) else s))

end Sys2Proof.Machine
end

