-- ==== Sys2Proof/Machine/Sheets.lean ====
section
/-! DEFINITION. Call sheets: reading an image (R318 to R325), the checks at arming (R326), and how a sheet takes effect
at arming (R327) and at a switch (R328). -/

namespace Sys2Proof.Machine

open Sys2Proof

/-! ### Reading an image (R318 to R325) -/

/-- The counts and offsets of a sheet header, and the words that hold its other fields (R318). -/
structure SheetHead where
  w0 : Nat
  nSlots : Nat
  nJobs : Nat
  nCues : Nat
  nStreams : Nat
  slotOff : Nat
  jobOff : Nat
  cueOff : Nat
  streamOff : Nat
  bankOff : Nat
  groupOff : Nat
  regOff : Nat
  w6 : Nat
  bytes : Nat
  crc : Nat
deriving DecidableEq, Repr

/-- The header at an address. -/
def State.sheetHead (s : State) (a : Nat) : SheetHead :=
  let w := fun (o : Nat) => s.readLe (a + o) 8
  let w1 := w 0x08
  { w0 := w 0, nSlots := field w1 63 48, nJobs := field w1 47 39, nCues := field w1 38 24, nStreams := field w1 23 19
    slotOff := field (w 0x10) 63 32, jobOff := field (w 0x10) 31 0, cueOff := field (w 0x18) 63 32
    streamOff := field (w 0x18) 31 0, bankOff := field (w 0x20) 63 32, groupOff := field (w 0x20) 31 0
    regOff := field (w 0x28) 63 32, w6 := w 0x30, bytes := field (w 0x38) 63 32, crc := field (w 0x38) 31 0 }

/-- A slot entry (R319). -/
def slotOfWord (w : Nat) : SlotEntry :=
  { startLine := field w 63 50, lengthM1 := field w 49 44, part := field w 43 41, strict := flag w 40
    retrain := flag w 39, selftest := flag w 38, energy := field w 37 35 }

/-- A job entry (R320). -/
def State.jobEntryAt (s : State) (a : Nat) : JobEntry :=
  let w0 := s.readLe a 8
  let w1 := s.readLe (a + 8) 8
  let w2 := s.readLe (a + 16) 8
  { ctx := field w0 63 56, release := field w0 55 54, world := flag w0 53, stream := field w0 52 48, backup := flag w0 47
    retakeLimit := field w0 46 39, releaseLine := field w0 38 25, queueLen := field w1 63 48, queuePtr := field w1 39 0
    complLog2 := field w2 63 59, complPtr := field w2 39 0 }

/-- A stream entry (R323). -/
def streamOfWord (w : Nat) : StreamEntry :=
  { context := field w 63 59, shadow := flag w 58, jobCtx := field w 57 50, timeNs := field w 31 0 }

/-- A cue entry (R324). -/
def cueOfWord (w : Nat) : CueEntry :=
  { cue := field w 63 49, ceiling := field w 48 45, users := field w 44 37, init := field w 31 0 }

/-- The sheet an image holds (R318 to R325). -/
def State.sheetAt (s : State) (a : Nat) : Sheet :=
  let d := s.sheetHead a
  let rows := fun (n : Nat) => List.range n
  { addr := a, sheetId := field d.w0 63 32, version := field d.w0 31 24, periodFrames := field d.w0 23 20
    frameLines := field d.w0 19 8, twoHalf := flag d.w0 7, selftestPart := field d.w0 6 4
    floorArray := field d.w6 63 60, floorDolly := field d.w6 59 56, floorBank := field d.w6 55 52
    floorDir := field d.w6 51 48, wdgMargin16 := field d.w6 47 40, holdMax := field d.w6 39 32
    retrainMin := field d.w6 31 24, dirWdg := field d.w6 23 14
    slots := (rows d.nSlots).map (fun i => slotOfWord (s.readLe (a + d.slotOff + 8 * i) 8))
    jobs := (rows d.nJobs).map (fun i => s.jobEntryAt (a + d.jobOff + 32 * i))
    cues := (rows d.nCues).map (fun i => cueOfWord (s.readLe (a + d.cueOff + 8 * i) 8))
    streams := (rows d.nStreams).map (fun i => streamOfWord (s.readLe (a + d.streamOff + 8 * i) 8))
    bankOwner := (rows 256).map (fun b => s.readLe (a + d.bankOff + b) 1)
    bankReserved := (rows 256).map (fun b => flag (s.readLe (a + d.bankOff + 256 + b / 8) 1) (b % 8))
    groupMap := (rows 96).map (fun g => s.readLe (a + d.groupOff + g) 1)
    regs := (rows 8).map (fun p =>
      let e := a + d.regOff + 32 * p
      { hbm := BitVec.ofNat 64 (s.readLe e 8), ctr := BitVec.ofNat 64 (s.readLe (e + 8) 8), share := s.readLe (e + 16) 4 }) }

/-! ### The checks at arming (R326) -/

/-- 0x0001: the image lies wholly in the half's own HBM, and its VERSION and CRC are right. -/
def State.badImage (s : State) (h : Half) (a : Nat) : Bool :=
  let d := s.sheetHead a
  !(decide (hbmBase h ≤ a) && decide (a + d.bytes ≤ hbmBase h + hbmBytes)) || decide (d.bytes < 64) || a % 64 != 0 ||
    field d.w0 31 24 != 1 ||
    crc32c (s.readBytes a 0x38 ++ List.replicate 4 0 ++ s.readBytes (a + 0x3C) (d.bytes - 0x3C)) != d.crc

/-- The offsets of an image's seven tables, multiples of 64 (R318). -/
def SheetHead.offsets (d : SheetHead) : List Nat :=
  [d.slotOff, d.jobOff, d.cueOff, d.streamOff, d.bankOff, d.groupOff, d.regOff]

/-- The tables of an image that hold anything: offset and length. -/
def SheetHead.tables (d : SheetHead) : List (Nat × Nat) :=
  [(d.slotOff, 8 * d.nSlots), (d.jobOff, 32 * d.nJobs), (d.cueOff, 8 * d.nCues), (d.streamOff, 8 * d.nStreams),
   (d.bankOff, 288), (d.groupOff, 96), (d.regOff, 256)].filter (fun t => decide (0 < t.2))

/-- No two ranges of a list share a byte. -/
def disjointTables : List (Nat × Nat) → Bool
  | [] => true
  | t :: r => r.all (fun u => decide (t.1 + t.2 ≤ u.1) || decide (u.1 + u.2 ≤ t.1)) && disjointTables r

/-- The period lines a slot covers (R319). -/
def SlotEntry.lines (period : Nat) (e : SlotEntry) : List Nat :=
  (List.range (e.lengthM1 + 1)).map (fun i => (e.startLine + i) % period)

/-- Two slots of one partition overlap. -/
def slotsOverlap (period : Nat) : List SlotEntry → Bool
  | [] => false
  | e :: r =>
    r.any (fun f => e.part == f.part && (e.covers period f.startLine || f.covers period e.startLine)) || slotsOverlap period r

/-- Entries sorted by START_LINE. -/
def sortedSlots : List SlotEntry → Bool
  | a :: b :: r => decide (a.startLine ≤ b.startLine) && sortedSlots (b :: r)
  | _ => true

/-- 0x0002: table layout, ranges and reserved encodings. -/
def badLayout (d : SheetHead) (sh : Sheet) : Bool :=
  let period := sh.periodLines
  sh.periodFrames == 0 || decide (4 < sh.periodFrames) || period == 0 || d.nSlots == 0 || decide (4096 < d.nSlots) ||
  d.nJobs == 0 || decide (256 < d.nJobs) || decide (16384 < d.nCues) || decide (24 < d.nStreams) ||
  d.offsets.any (fun o => o % 64 != 0) ||
  d.tables.any (fun t => decide (t.1 < 64) || decide (d.bytes < t.1 + t.2)) ||
  !(disjointTables d.tables) || decide (sh.wdgMargin16 < 17) || decide (64 < sh.wdgMargin16) || sh.holdMax == 0 ||
  decide (64 < sh.holdMax) || decide (sh.retrainMin < 6) || decide (1000 < sh.dirWdg) || !(sortedSlots sh.slots) ||
  sh.slots.any (fun e => decide (period ≤ e.startLine) || (e.selftest && e.part != sh.selftestPart)) ||
  slotsOverlap period sh.slots ||
  sh.jobs.any (fun j =>
    j.release == 3 || j.retakeLimit == 0 || j.queueLen == 0 || decide (j.complLog2 < 4) || decide (16 < j.complLog2) ||
    j.queuePtr % 64 != 0 || j.complPtr % 64 != 0 || (decide (24 ≤ j.stream) && j.stream != 31) ||
    decide (period ≤ j.releaseLine)) ||
  decide (¬ (sh.jobs.map (·.ctx)).Nodup) || sh.cues.any (fun c => decide (8 < c.ceiling)) ||
  sh.streams.any (fun e => decide (24 ≤ e.context))

/-- What the checks against Horizon use: FRAME_LINES and the stream contexts as they will be when the images take
effect. -/
structure HznView where
  frameLines : Nat
  stream : Nat → StreamCfg

/-- The Horizon values applied so far. -/
def Hzn.view (z : Hzn) : HznView :=
  { frameLines := z.appliedLine.frameLines, stream := fun k => (tget ({} : Stream) z.streams k).applied }

/-- Bank b's reserved owner in an image (R325). -/
def Sheet.bankEntry (sh : Sheet) (b : Nat) : Option Nat :=
  if sh.bankReserved.getD b false then some (sh.bankOwner.getD b 0) else none

/-- A group's entry: ENABLED and PARTITION (R325). -/
def Sheet.groupEntry (sh : Sheet) (g : Nat) : Option Nat :=
  let b := sh.groupMap.getD g 0
  if flag b 7 then some (field b 2 0) else none

/-- A group's entry as its GROUP_CTL will read: ENABLED in bit 7 and PARTITION in bits 2:0, which a disabled entry has too
(R200, R325). -/
def Sheet.groupByte (sh : Sheet) (g : Nat) : Nat :=
  let b := sh.groupMap.getD g 0
  bitOf (flag b 7) * 128 + field b 2 0

/-- Retraining lines of sheet frame `f` of the period (R295, R319). -/
def Sheet.retrainLines (sh : Sheet) (f : Nat) : Nat :=
  ((((sh.slots.filter (·.retrain)).flatMap (fun e => e.lines sh.periodLines)).eraseDups).filter (fun l =>
    decide (f * sh.frameLines ≤ l) && decide (l < (f + 1) * sh.frameLines))).length

/-- The first failing check of one image; 0 where all pass (R326). The part with one half takes no sheet with shadow streams,
so no frame of it has a backup (R344). -/
def State.imageError (s : State) (h : Half) (v : HznView) (a : Nat) : Nat :=
  let d := s.sheetHead a
  let sh := s.sheetAt a
  if s.badImage h a then 1
  else if badLayout d sh then 2
  else if sh.frameLines ≠ v.frameLines then 3
  else if (List.range 256).any (fun b => (sh.bankEntry b).isSome && (s.bank h b).retired) then 4
  else if 262144 < 64 * ((sh.regs.map (fun r => burstOf r.hbm)).foldl (· + ·) 0) ∨
      512 < (sh.regs.map (·.share)).foldl (· + ·) 0 then 5
  else if sh.cues.any (fun c => cueHome c.cue != h) ∨ ¬ (sh.cues.map (·.cue)).Nodup then 6
  else if sh.streams.any (fun e => !(v.stream e.context).enabled || (v.stream e.context).shadow != e.shadow ||
      !(sh.jobs.any (fun j => j.ctx == e.jobCtx))) ∨ ¬ (sh.streams.map (·.context)).Nodup then 7
  else if s.twoHalves = false ∧ (sh.twoHalf || sh.streams.any (·.shadow)) = true then 8
  else if (List.range sh.periodFrames).any (fun f => decide (sh.retrainLines f < sh.retrainMin)) then 9
  else if (List.range 96).any (fun g => match sh.groupEntry g with
      | some p => !(sh.jobs.any (fun j => j.ctx / 32 == p))
      | none => false) then 10
  else 0

/-- Jobs that continue at a switch: CTX and QUEUE_PTR equal in both images (R328). -/
def continuing (act deg : Sheet) : List Nat :=
  (deg.jobs.filter (fun j => act.jobs.any (fun i => i.ctx == j.ctx && i.queuePtr == j.queuePtr))).map (·.ctx)

/-- 0x000B and 0x000C: what the degraded image changes under a continuing job. -/
def switchError (act deg : Sheet) : Nat :=
  let keep := continuing act deg
  if (List.range 96).any (fun g => match act.groupEntry g with
      | some p => keep.any (fun c => c / 32 == p) && deg.groupEntry g != some p
      | none => false) then 11
  else if (List.range 256).any (fun b => match act.bankEntry b with
      | some c => keep.contains c && deg.bankEntry b != some c
      | none => false) then 12
  else 0

/-- The first failing check of both images (R326): the active image's, then the degraded image's; 0 where all pass. The
degraded image is ignored on FBZ1200-AN (R350). -/
def State.armCheck (s : State) (h : Half) (v : HznView) (act deg : Nat) : Nat :=
  let e := s.imageError h v act
  if e ≠ 0 then e
  else if deg = 0 ∨ s.twoHalves = false then 0
  else
    let f := s.imageError h v deg
    if f ≠ 0 then f else switchError (s.sheetAt act) (s.sheetAt deg)

/-! ### Taking effect (R327, R328) -/

/-- Step 2 for one bank: a handover by the island where the bank's owner or reservation differs from its present
state. -/
def State.assignBank (s : State) (h : Half) (entry : Option Nat) (b : Nat) : State :=
  let x := s.bank h b
  match entry with
  | none => if x.owned then s.islandHandover h b 0 else s
  | some o =>
    if x.ownedBy o then s
    else s.islandHandover h b (2 ^ 31 + o % 256 + (if x.owned && x.ownerPart == o / 32 then 0 else 2 ^ 29))

/-- A regulator register as it reads back (R171). -/
def normReg (w : BitVec 64) : BitVec 64 :=
  let n := w.toNat
  BitVec.ofNat 64 (max 1 (field n 63 52) * 2 ^ 52 + field n 51 50 * 2 ^ 50 + field n 20 0)
/-- As `normReg`, with PRIO, reserved in REG_CTR, clear. -/
def normCtr (w : BitVec 64) : BitVec 64 :=
  let n := w.toNat
  BitVec.ofNat 64 (max 1 (field n 63 52) * 2 ^ 52 + field n 20 0)

/-- A group takes an entry: at once where ACTIVE reads 0, else when it does (R200, R327). -/
def Group.assign (e : Nat) (g : Group) : Group :=
  if bitOf g.enabled * 128 + g.part = e ∧ g.disabling = false then g
  else if g.active = 0 then Group.take e g
  else { g with disabling := true, next := some e }

/-- Step 3: group map, regulators and credit shares. -/
def State.assignGroups (s : State) (h : Half) (sh : Sheet) (which : Nat → Bool) : State :=
  s.modDolly h (fun d =>
    { d with groups := (List.range 96).foldl (fun t g =>
        if which g then tmod {} t g (Group.assign (sh.groupByte g)) else t) d.groups })

/-- Eight per-partition values, taken from `new` where `which` says so. -/
def pickBy {α : Type} (which : Nat → Bool) (d : α) (old new : List α) : List α :=
  (List.range 8).map (fun p => if which p then new.getD p d else old.getD p d)

/-- Regulator registers and shares of the partitions `which` names (R171, R304), in effect at once: R327 names the boundary
as the instant of the step, and no later slot boundary for these (DESIGN CHOICE, log entry 144). A set that software applied
before and that waits for this boundary keeps its values for the other partitions alone. -/
def State.assignRegs (s : State) (h : Half) (sh : Sheet) (which : Nat → Bool) : State :=
  let one := s.twoHalves
  let hbm := fun (old : List (BitVec 64)) => pickBy which 0 old (sh.regs.map (fun r => normReg r.hbm))
  let ctr := fun (old : List (BitVec 64)) =>
    if one then pickBy which 0 old (sh.regs.map (fun r => normCtr r.ctr)) else List.replicate 8 0
  let share := fun (old : List Nat) =>
    if one then pickBy which 0 old (sh.regs.map (fun r => r.share % 1024)) else List.replicate 8 0
  ((s.modDolly h (fun d =>
    { d with
      regHbm := hbm d.regHbm, stagedHbm := hbm d.regHbm, takeHbm := hbm d.takeHbm
      regCtr := ctr d.regCtr, stagedCtr := ctr d.regCtr, takeCtr := ctr d.takeCtr })).modLink h (fun l =>
    { l with share := share l.share, stagedShare := share l.share, takeShare := share l.takeShare })).sendAllWaiting h

/-- Step 4 for one listed cue (R324). -/
def Cue.arm (e : CueEntry) (c : Cue) : Cue :=
  { c with armed := true, ceiling := e.ceiling, users := e.users, counter := e.init, init := e.init }

/-- An unlisted cue reads 0, has no ceiling and no users (R327). -/
def Cue.disarm (c : Cue) : Cue := { waiters := c.waiters }

/-- Cues of the half take the entries of a list; where `all` says so, every other cue becomes unlisted. -/
def State.assignCues (s : State) (h : Half) (l : List CueEntry) (gone : Nat → Bool) : State :=
  let s1 := s.modDisp h (fun d =>
    let left := d.cues.map (fun p => if gone p.1 then (p.1, p.2.disarm) else p)
    { d with cues := l.foldl (fun t e => tmod {} t (e.cue % 16384) (Cue.arm e)) left })
  l.foldl (fun t e => t.evalCue e.cue) s1

/-- A job context takes its entry; its counters since arming start again (R322). A teardown under way goes on (R346). -/
def Job.arm (e : JobEntry) (j : Job) : Job :=
  { j with
    entry := some e, compl := 0, holds := [], onceDone := false, deferredRelease := false
    status := if j.exec.isSome then j.status else .idle }

/-- Jobs of a list with RELEASE continuous or once are released (R321). -/
def State.releaseNew (s : State) (h : Half) (l : List JobEntry) : State :=
  (l.filter (fun e => e.release == 1 || e.release == 2)).foldl (fun t e => t.release h e.ctx none) s

/-- Several jobs are torn down without a fault (R327, R328). -/
def State.tearAll (s : State) (h : Half) (l : List Nat) : State := l.foldl (fun t c => t.teardown h c 0 0 0) s

/-- Contexts of a half with an entry. -/
def HalfState.entered (x : HalfState) : List Nat := (x.disp.jobs.filter (fun p => p.2.entry.isSome)).map (·.1)

/-- A frame whose result has not printed when its sheet's jobs are torn down; its deadline stays that of its sheet (R327). -/
def Frame.abandon (ns : Option Nat) (f : Frame) : Frame :=
  if f.recorded || f.printed.isSome then f else { f with withheldBy := true, abandonNs := f.abandonNs.or ns }

/-- Every such frame of a half is delivered as WITHHELD at its deadline (R39, R277, R327). -/
def State.abandonFrames (s : State) (h : Half) : State :=
  s.modHzn h (fun z => { z with streams := z.streams.map (fun k =>
    (k.1, { k.2 with frames := k.2.frames.map (Frame.abandon ((s.half h).deadlineNs k.1)) })) })

/-- Every teardown is complete and every changing group has its entry (R327). -/
def HalfState.settled (x : HalfState) : Bool :=
  !(x.disp.jobs.any (fun p => p.2.status == .teardown && p.2.exec.isSome)) && !(x.dolly.groups.any (fun g => g.2.disabling))

/-- A torn-down job of the new sheet is idle until its release. -/
def Job.rest (j : Job) : Job := { j with status := if j.status = .faulted then .idle else j.status }

/-- Steps 4 and 5 of an arming or a switch (R327, R328), once step 3 is done: cues, the releases, and dispatch. -/
def State.finishArming (s : State) (h : Half) : State :=
  match (s.half h).disp.armRest with
  | none => s
  | some r =>
    if !(s.half h).settled then s
    else
      let gone := fun (i : Nat) => if r.arming then !(r.cues.any (fun e => e.cue % 16384 == i)) else r.gone.contains i
      let s1 := (s.assignCues h r.cues gone).modDisp h (fun d =>
        { d with armRest := none, jobs := r.fresh.foldl (fun t e => tmod {} t e.ctx Job.rest) d.jobs })
      s1.releaseNew h r.fresh

/-- Arming at a period boundary (R327): steps 1 to 3, and steps 4 and 5 once every changing group's ACTIVE has read 0. Periodic
jobs of the new sheet may be released meanwhile. Cross-half jobs run again from the first arming after a retraining, so that one
that finds the link still down does not let them (R310; DEDUCED, log entry 167). -/
def State.armSheets (s : State) (h : Half) (act : Sheet) (deg : Option Sheet) : State :=
  let s1 := ((s.tearAll h (s.half h).entered).abandonFrames h).modDisp h (fun d =>
    { d with jobs := d.jobs.map (fun p => (p.1, { p.2 with entry := none, deferredRelease := false, lost := false })) })
  let s2 := (List.range 256).foldl (fun t b => t.assignBank h (act.bankEntry b) b) s1
  let s3 := (s2.assignGroups h act (fun _ => true)).assignRegs h act (fun _ => true)
  let s4 := s3.modDisp h (fun d =>
    { d with
      jobs := act.jobs.foldl (fun t e => tmod {} t e.ctx (Job.arm e)) d.jobs
      sheetState := 1, active := some act, degraded := deg, standby := deg.isSome, armPending := none
      switchPending := false, dirWdg := if act.dirWdg = 0 then 10 else act.dirWdg, deferredPreempt := []
      armRest := some { cues := act.cues, fresh := act.jobs, arming := true } })
  (s4.modLink h (fun l => { l with waitArm := l.waitArm && l.state == 2 })).finishArming h

/-- Disarming at a period boundary (R350): every job is torn down, its frames get their WITHHELD records (R39), and no sheet
runs, so that no cue of the half is listed (R327, R349; log entry 127). -/
def State.disarmSheets (s : State) (h : Half) : State :=
  ((s.tearAll h (s.half h).entered).abandonFrames h).modDisp h (fun d =>
    { d with
      jobs := d.jobs.map (fun p => (p.1, { p.2 with entry := none, deferredRelease := false }))
      cues := d.cues.map (fun p => (p.1, p.2.disarm))
      sheetState := 0, active := none, degraded := none, standby := false, armPending := none, switchPending := false
      dirWdg := 10, deferredPreempt := [], armRest := none })

/-- A switch between the two held sheets at a slot boundary (R328, R380). -/
def State.switchSheets (s : State) (h : Half) (old new : Sheet) (newState : Nat) : State :=
  let keep := continuing old new
  let s1 := s.tearAll h ((s.half h).entered.filter (fun c => !(keep.contains c)))
  let s2 := (List.range 256).foldl (fun t b =>
    if old.bankEntry b = new.bankEntry b then t else t.assignBank h (new.bankEntry b) b) s1
  let s3 := (s2.assignGroups h new (fun g => old.groupByte g != new.groupByte g)).assignRegs h new (fun p =>
    decide (old.regs.getD p {} ≠ new.regs.getD p {}))
  let gone := (old.cues.map (fun e => e.cue % 16384)).filter (fun i => !(new.cues.any (fun e => e.cue % 16384 == i)))
  let s4 := s3.modDisp h (fun d =>
    let left := d.jobs.map (fun p => if keep.contains p.1 then p else (p.1, { p.2 with entry := none }))
    let take := fun (e : JobEntry) (j : Job) => if keep.contains e.ctx then { j with entry := some e } else Job.arm e j
    { d with
      jobs := new.jobs.foldl (fun t e => tmod {} t e.ctx (take e)) left
      sheetState := newState, switchPending := false, dirWdg := if new.dirWdg = 0 then 10 else new.dirWdg
      armRest := some { cues := new.cues.filter (fun e => !(old.cues.contains e)), gone := gone
                        fresh := new.jobs.filter (fun e => !(keep.contains e.ctx)) } })
  s4.finishArming h

end Sys2Proof.Machine
end

