-- ==== Sys2Proof/Machine/Arming.lean ====
section
/-! DEFINITION. The ends of kills (R36), of groups' clears (R200) and of partition resets (R347): each of them may be what an
arming or a switch waits for (R327, R328). -/

namespace Sys2Proof.Machine

open Sys2Proof

/-- KILL_COMPLETE (R36): the kill is over once its notice has reached the partner. The threads and credits are free,
escrow homed in the partner half is back at the latest now, and what the kill named is issued; a teardown that an arming waits
for is complete (R327, R346). -/
def execKillComplete (t : Nat) (h : Half) (ctx : Nat) (s : State) : Host.Outcome State Fault Refusal :=
  .next (onLive (s.advance t) h (fun s =>
    match (s.job h ctx).exec with
    | none => s
    | some e =>
      if e.phase ≠ .killing ∨ s.noticeDue h ctx = true then s
      else
        let s1 := ((s.freeThreads h e).freeCredits h ctx).dropWaiters (otherHalf h) h ctx
        let s2 := if e.retake = .wide then s1 else s1.returnEscrow (otherHalf h) e.escrow
        ((s2.afterKill h ctx e).finishArming h).dispatchBoth))

/-- GROUP_DISABLE_DONE (R200): the last thread of a group whose ENABLED was cleared is free; the clear takes effect, and
the island writes the value that waits (R327). -/
def execGroupDisableDone (t : Nat) (h : Half) (group : Nat) (s : State) : Host.Outcome State Fault Refusal :=
  .next (onLive (s.advance t) h (fun s =>
    let g := (s.half h).dolly.group group
    if g.disabling && g.active == 0 then
      ((s.modDolly h (fun d =>
        { d with groups := tmod {} d.groups group (Group.take (g.next.getD 0)) })).finishArming h).dispatch h
    else s))

/-- PART_RESET (R347): a teardown of a job of the partition has not completed within 10 µs. -/
def execPartReset (t : Nat) (h : Half) (p : Nat) (s : State) : Host.Outcome State Fault Refusal :=
  .next (onLive (s.advance t) h (fun s =>
    if s.teardownOver h p 10000 then
      let s1 := s.log h { code := 0x28, cls := 4, detail := p }
      let s2 := ((s1.half h).jobsOf p).foldl (fun t c => t.forceDown h c) s1
      (((s2.modDolly h (fun d => d.resetGroups p)).modDisp h (fun d => d.resetCues p)).finishArming h).dispatchBoth
    else s))

end Sys2Proof.Machine
end

