-- ==== Sys2Proof/Machine/Results.lean ====
section
/-! DEFINITION. The rows of deadlines (R341), straggler backup (R342), print tokens (R343), withheld frames (R277, R375),
and result rings (R279, R284, R285). -/

namespace Sys2Proof.Machine

open Sys2Proof

/-! ### Deadlines and withheld frames -/

/-- DEADLINE_MISS (R341): the deadline of an unmarked frame of a home stream has passed and its token is not granted. -/
def execDeadlineMiss (t : Nat) (h : Half) (stream frame : Nat) (s : State) : Host.Outcome State Fault Refusal :=
  .next (onLive (s.advance t) h (fun s =>
    match (s.stream h stream).frame? frame with
    | none => s
    | some f =>
      match s.deadline h stream f with
      | none => s
      | some d =>
        if s.now < d ∨ f.deadlinePassed = true then s
        else
          let s1 := s.modFrame h stream frame (fun f => { f with deadlinePassed := true })
          if !f.marked && decide (f.token = .free) then
            s1.log h { code := 0x29, unit := 7, ctx := (((s.half h).streamEntry stream).map (·.jobCtx)).getD 0xFF
                       detail := stream * 2 ^ 32 + frame }
          else s1))

/-- The partner half has the frame in hand (R277): a run of it is under way there, or has printed, and it holds the token, or
may still have it for its unmarked shadow of the frame (R287). -/
def State.partnerHas (s : State) (h : Half) (k : Nat) (f : Frame) : Bool :=
  let p := otherHalf h
  match s.twin h k with
  | none => false
  | some j =>
    let g := (s.stream p j).frame? f.seq
    let mine := decide (f.token = .heldBy p)
    let mayHave := decide (f.token = .free) && s.tokenPath p && !((s.half p).stripes j) && g.any (fun g => !g.marked)
    (mine || mayHave) && (!((s.half p).runsOf j f.seq).isEmpty || g.any (fun g => g.printed.isSome || g.recorded))

/-- The lost partner reported a record of the frame, in HALF_DOWN or in its last heartbeat (R375). -/
def State.reportedDelivered (s : State) (h : Half) (k seq : Nat) : Bool :=
  match s.twin h k with
  | none => false
  | some j =>
    let i := (s.half h).isl
    let last := if i.downFrames.isEmpty then i.partnerLast.getD j 0xFFFFFFFF
      else ((i.downFrames.find? (fun p => p.1 == j)).map (·.2)).getD 0xFFFFFFFF
    last != 0xFFFFFFFF && decide (seq ≤ last)

/-- A frame has no result to come: it is marked, or its run has ended without one (R277, R370). -/
def State.noResult (s : State) (h : Half) (k : Nat) (f : Frame) : Bool :=
  f.marked || (f.runOver && f.printed.isNone && ((s.half h).runsOf k f.seq).isEmpty)

/-- The frame's deadline has passed; a shadow context that knows none takes the row's word for it (log entry 111). -/
def State.pastDeadline (s : State) (h : Half) (k : Nat) (f : Frame) : Bool :=
  match s.frameDeadline h k f with
  | some d => decide (d ≤ s.now)
  | none => (s.stream h k).cfg.shadow

/-- WITHHELD (R277): at its deadline a frame without a result gets a record from its delivering context, after the GAP
record where one is due (R285). A half that holds the partner's tokens first kills a backup that has not printed, and does
nothing for a frame that the partner had delivered (R375). -/
def execWithheld (t : Nat) (h : Half) (stream frame : Nat) (s : State) : Host.Outcome State Fault Refusal :=
  .next (onLive (s.advance t) h (fun s =>
    match (s.stream h stream).frame? frame with
    | none => s
    | some f =>
      let x := s.stream h stream
      if f.recorded || !(s.deliversFrame h stream f) || (s.half h).isl.withholding && !x.cfg.shadow ||
          (s.ring h x.cfg.ring).gapDue || !(s.pastDeadline h stream f) then s
      else if x.cfg.shadow && ((s.half h).isl.holdsTokens || f.kept) then
        if f.printed.isSome || s.reportedDelivered h stream f.seq then s
        else ((s.stopRuns h ((s.half h).runsOf stream frame)).withhold h stream frame).dispatchBoth
      else if s.partnerHas h stream f then s
      else if s.noResult h stream f then s.withhold h stream frame
      else s))

/-! ### Straggler backup (R342, R375) -/

/-- The home half's token of a frame is free, as a probe finds it (R342). -/
def State.probeFree (s : State) (h : Half) (k seq : Nat) : Bool :=
  match s.twin h k with
  | none => false
  | some j =>
    match (s.stream (otherHalf h) j).frame? seq with
    | none => true
    | some g => decide (g.token = .free) && !g.recorded

/-- A frame's BACKUP job is released: with a probe while the partner is paired, without one after a takeover (R342,
R375). A marked frame and a striped frame have no backup (R247, R344). -/
def State.tryBackup (s : State) (h : Half) (k : Nat) (f : Frame) : State :=
  match (s.half h).streamEntry k with
  | none => s
  | some e =>
    if !e.shadow || f.marked || (s.half h).stripes k || f.recorded || !((s.half h).runsOf k f.seq).isEmpty then s
    else if (s.half h).isl.holdsTokens || f.kept then
      if s.reportedDelivered h k f.seq then s else s.release h e.jobCtx (some f.seq)
    else if (s.half h).isl.paired && s.linkUp h && s.probeFree h k f.seq then s.release h e.jobCtx (some f.seq)
    else s

/-- BACKUP_TIME (R342): BACKUP_OFFSET_NS after the frame's last landing on the shadow context. -/
def execBackupTime (t : Nat) (h : Half) (stream frame : Nat) (s : State) : Host.Outcome State Fault Refusal :=
  .next (onLive (s.advance t) h (fun s =>
    match (s.stream h stream).frame? frame, (s.half h).streamEntry stream with
    | some f, some e =>
      match f.lastLanding with
      | none => s
      | some l =>
        if f.backupDue || decide (s.now < l + e.timeNs) || !e.shadow then s
        else
          ((s.modFrame h stream frame (fun f => { f with backupDue := true })).tryBackup h stream f).dispatch h
    | _, _ => s))

/-! ### Print tokens (R343) -/

/-- The command of a job holds its frame's token. -/
def State.holdToken (s : State) (h : Half) (ctx : Nat) : State :=
  s.modJob h ctx (fun j => { j with exec := j.exec.map (fun e => { e with tokenHeld := true }) })

/-- A half holds a frame's token: noted on the frame of a stream context. -/
def State.tokenTo (s : State) (h : Half) (k seq : Nat) (holder : Half) : State :=
  s.modFrame h k seq (fun f => { f with token := .heldBy holder })

/-- A job of a half whose result command of a stream waits for the token of a frame (R343). -/
def State.pendingResult (s : State) (h : Half) (k seq : Nat) : Option Nat :=
  ((s.half h).disp.jobs.find? (fun p => match p.2.exec with
    | none => false
    | some e =>
      e.phase == .written && !e.tokenHeld && (match (s.half h).resultOf ((e.recs).getLastD (parseRec [])) with
        | none => false
        | some q => q.1 == k && ((s.resultFrame h p.1 k q.2).map (·.seq)) == some seq))).map (·.1)

/-- A half ends its runs of a camera's frame, whose token the partner has taken (R343). -/
def State.stopCamera (s : State) (h : Half) (camera seq : Nat) : State :=
  match ((s.half h).contextOf camera false).or ((s.half h).contextOf camera true) with
  | none => s
  | some k => s.stopRuns h ((s.half h).runsOf k seq)

/-- A home half's request for the token of its frame `f` (R343): the grant sends a kill notice to the partner's run. -/
def State.homeRequest (s : State) (h : Half) (ctx k : Nat) (f : Frame) : State :=
  if f.token = .heldBy (otherHalf h) then s.kill h ctx .none
  else
    let s1 := (s.tokenTo h k f.seq h).holdToken h ctx
    if (s.twin h k).isSome then s1.send h (.stopRuns (s.stream h k).cfg.camera f.seq) else s1

/-- The home half `h` answers the request of its partner's command (R343): the token goes to the first request. A home
command that waits for it requested it earlier or in the same cycle, and has it. A grant ends the home runs of the frame. -/
def State.answerToken (s : State) (h : Half) (ctx camera seq : Nat) : State :=
  let p := otherHalf h
  match (s.half h).contextOf camera false with
  | none => s.send h (.tokenAnswer ctx true)
  | some k =>
    match (s.stream h k).frame? seq with
    | none => s.send h (.tokenAnswer ctx true)
    | some f =>
      if f.token = .heldBy h ∨ f.recorded = true then s.send h (.tokenAnswer ctx false)
      else
        match (if f.token = .free ∧ f.marked = false then s.pendingResult h k seq else none) with
        | some c => ((s.tokenTo h k seq h).holdToken h c).send h (.tokenAnswer ctx false)
        | none => ((s.tokenTo h k seq p).send h (.tokenAnswer ctx true)).stopRuns h ((s.half h).runsOf k seq)

/-- The answer to a command of half `h` arrives: a denied command is killed and not retaken (R343). -/
def State.takeAnswer (s : State) (h : Half) (ctx k seq : Nat) (granted : Bool) : State :=
  if granted then (s.tokenTo h k seq h).holdToken h ctx else s.kill h ctx .none

/-- The answer to a request whose command no longer waits for it has no effect (R306, R343). -/
def State.idleAnswer (s : State) (h : Half) (ctx : Nat) : State :=
  match s.nextMessage h with
  | some (.tokenAnswer c _) => if c = ctx then s.dropMessage h else s
  | _ => s

/-- The frame whose token the command of a job waits for: its stream context and the frame; none where it waits for none
(R277, R343). -/
def State.tokenWait (s : State) (h : Half) (ctx : Nat) : Option (Nat × Frame) :=
  match (s.job h ctx).exec with
  | none => none
  | some e =>
    if e.phase ≠ .written ∨ e.tokenHeld = true then none
    else
      match (s.half h).resultOf ((e.recs).getLastD (parseRec [])) with
      | none => none
      | some q =>
        match s.resultFrame h ctx q.1 q.2 with
        | none => none
        | some f => if f.marked || f.recorded then none else some (q.1, f)

/-- PRINT_TOKEN_GRANT (R343): the answer to the token request of a result command. A home half, and a half that delivers
its shadow streams, answers itself. Whether the partner's request arrived in the same cycle (`_tie`) makes no difference: a home command that
waits when that request is taken wins in any case (R41). Otherwise the answer is the partner's next control message; where no request is on its way, it is sent. -/
def execPrintTokenGrant (t : Nat) (h : Half) (ctx : Nat) (_tie : Bool) (s : State) : Host.Outcome State Fault Refusal :=
  .next (onLive (s.advance t) h (fun s =>
    match s.tokenWait h ctx with
    | none => s.idleAnswer h ctx
    | some (k, f) =>
      if !(s.stream h k).cfg.shadow then (s.homeRequest h ctx k f).dispatchBoth
      else if s.deliversFrame h k f then
        if f.token = .heldBy (otherHalf h) then (s.kill h ctx .none).dispatch h
        else (s.tokenTo h k f.seq h).holdToken h ctx
      else if !(s.tokenPath h) then (s.kill h ctx .none).dispatch h
      else
        match s.nextMessage h with
        | some (.tokenAnswer c granted) =>
          if c = ctx then ((s.dropMessage h).takeAnswer h ctx k f.seq granted).dispatchBoth else s
        | _ => s.askToken h ctx k f.seq))

/-! ### Result rings (R279 to R285) -/

/-- The payload of a frame's result (R279). -/
def State.payloadOf (s : State) (h : Half) (k seq : Nat) : List Byte :=
  let c := (s.stream h k).cfg
  let d := s.desc c.resultDesc
  s.readBytes (d.base + seq % 2 * (d.imagePitch * 64)) c.payload

/-- The latest frame of a parity whose last landing has passed and which has no record (R279). -/
def Stream.copyFrame (k : Stream) (parity : Nat) : Option Frame :=
  k.frames.find? (fun f => f.seq % 2 == parity && f.lastLanding.isSome && !f.recorded)

/-- A frame of a parity has printed and its last landing is still to come (R287). -/
def Stream.copyWaits (k : Stream) (parity : Nat) : Bool :=
  k.frames.any (fun f => f.seq % 2 == parity && f.lastLanding.isNone && f.printed.isSome && !f.recorded)

/-- FREE_CUE is signalled by 1 (R279, R283). -/
def State.freeResult (s : State) (h : Half) (c : StreamCfg) : State :=
  if cueHome c.freeCue = h then s.signalCue 0xFF 0 0 c.freeCue 1 else s.send h (.signal c.freeCue 1)

/-- RESULT_COPY (R279): a parity cue has reached 1; Horizon acquires the amount, assigns the result to its frame, writes
the record and signals FREE_CUE. A frame marked meanwhile gets a WITHHELD record, and one that has printed before its last
landing is waited for (R287); a result without a frame is not copied. -/
def execResultCopy (t : Nat) (h : Half) (stream parity : Nat) (s : State) : Host.Outcome State Fault Refusal :=
  .next (onLive (s.advance t) h (fun s =>
    let x := s.stream h stream
    let c := x.cfg
    if !c.enabled || (s.cue (c.resCue parity)).counter == 0 || (s.ring h c.ring).gapDue then s
    else
      let s1 := s.modCue (c.resCue parity) (fun q => { q with counter := q.counter - 1 })
      match x.copyFrame parity with
      | some f =>
        let s2 := if f.marked then s1.withhold h stream f.seq
          else { s1 with free := s1.free + 1 }.deliver h stream (s1.resultInfo h stream f) (s1.payloadOf h stream f.seq)
        (s2.freeResult h c).dispatchBoth
      | none => if x.copyWaits parity then s else (s1.freeResult h c).dispatchBoth))

/-- CONSUMER_READ (R284): Horizon reads CONSUMER while the ring appears full, at most once per µs. -/
def execConsumerRead (t : Nat) (h : Half) (ring consumer : Nat) (s : State) : Host.Outcome State Fault Refusal :=
  .next (onLive (s.advance t) h (fun s =>
    let g := s.ring h ring
    let rested := match g.consumerReadAt with
      | some a => decide (a + 1000 ≤ s.now)
      | none => true
    if g.enable && rested && decide (g.free < 2) then
      (s.modRing h ring (fun g => { g with consumer := consumer % 2 ^ 32, consumerReadAt := some s.now })).putOverflow h ring
    else s))

/-- GAP (R285): after a restart the half reads PRODUCER, NEXT_SEQ and LAST_FRAME from the ring's control block, and writes
one GAP record before any other. On two halves that is at the return boundary (R380). -/
def execGap (t : Nat) (h : Half) (ring producer nextSeq lastFrame : Nat) (s : State) : Host.Outcome State Fault Refusal :=
  .next (onLive (s.advance t) h (fun s =>
    let g := s.ring h ring
    if g.enable && g.gapDue && !(s.half h).isl.withholding && (s.half h).canPost then
      let s1 := s.modRing h ring (fun g =>
        { g with producer := producer % 2 ^ 32, nextSeq := nextSeq % 2 ^ 64, lastFrame := lastFrame % 2 ^ 32 })
      ({ s1 with free := s1.free + 1 }.putRecord h ring (s1.bareInfo h 0x10) (toLe 4 lastFrame ++ toLe 4 0) false).modRing h
        ring (fun g => { g with gapDue := false })
    else s))

end Sys2Proof.Machine
end

