-- ==== Sys2Proof/Machine/Contrail.lean ====
section
/-! DEFINITION. Contrail's rows (R303 to R311): flits, credits, control messages, write-complete acknowledgements, kill
notices, the loss of the link, training, and CTR_APPLY; and PROT_CTL's APPLY (R315). -/

namespace Sys2Proof.Machine

open Sys2Proof

/-! ### Flits (R303 to R305, R309) -/

/-- The next flit of a sender arrives (R303, R304): 128 bytes of its oldest data packet. The packet's last flit brings it
into the receiver's write queue, from where it is written as soon as its banks take it. -/
def State.deliverFlit (s : State) (sender : Half) : State :=
  let r := otherHalf sender
  let s1 := (s.modLink r (fun l => { l with flitSeq := l.flitSeq + 1, naked := false })).ackFlit sender
  let l := (s.half sender).link
  match l.outData with
  | [] => s1
  | p :: rest =>
    if l.flitBytes + 128 < p.bytes.length then s1.modLink sender (fun l => { l with flitBytes := l.flitBytes + 128 })
    else
      ((s1.modLink sender (fun l => { l with outData := rest, flitBytes := 0 })).modLink r (fun l =>
        { l with writeQueue := l.writeQueue ++ [p] })).drain r

/-- FLIT_RECEIVE (R305): half `h` receives its partner's next data flit. Corrected words are counted; a flit with an
uncorrectable word is negatively acknowledged, and nothing is delivered until it has been replayed. -/
def execFlitReceive (t : Nat) (h : Half) (check : FlitCheck) (s : State) : Host.Outcome State Fault Refusal :=
  .next (onLive (s.advance t) h (fun s =>
    if !(s.carries (otherHalf h)) || (s.half h).link.naked then s
    else
      match check with
      | .ok => s.deliverFlit (otherHalf h)
      | .corrected n =>
        (s.modLink h (fun l => { l with corrected := satAdd 0xFFFF l.corrected n })).deliverFlit (otherHalf h)
      | .uncorrectable => s.modLink h (fun l => { l with naked := true })))

/-- FLIT_REPLAY (R305): half `h` replays the flit its partner negatively acknowledged. Each replay is counted; one that
succeeds delivers the flit. -/
def execFlitReplay (t : Nat) (h : Half) (ok : Bool) (s : State) : Host.Outcome State Fault Refusal :=
  .next (onLive (s.advance t) h (fun s =>
    if !(s.carries h) || !(s.half (otherHalf h)).link.naked then s
    else
      let s1 := s.modLink h (fun l =>
        { l with
          replays := satAdd 0xFFFF l.replays 1, failedReplays := if ok then 0 else l.failedReplays + 1
          replayTimes := s.now :: l.replayTimes.filter (fun a => decide (s.now < a + 1000000)) })
      if ok then s1.deliverFlit h else s1))

/-- A job's command of a partition holds a credit whose packet has entered the receiver's write queue. -/
def Link.spent (l : Link) (part : Nat) (p : Nat × Job) : Bool :=
  p.1 / 32 == part && (match p.2.exec with
    | some e => decide ((l.outData.filter (fun q => q.ctx == p.1)).length < e.credits)
    | none => false)

/-- CREDIT_RETURN (R304): a packet of a command of the partition has entered the receiver's write queue, and its credit
is free; the partition's oldest packet that waits takes it at once, where the share in effect admits it. -/
def execCreditReturn (t : Nat) (h : Half) (part : Nat) (s : State) : Host.Outcome State Fault Refusal :=
  .next (onLive (s.advance t) h (fun s =>
    match (s.half h).disp.jobs.find? ((s.half h).link.spent part) with
    | none => s
    | some p =>
      ((s.modJob h p.1 (fun j => { j with exec := j.exec.map (fun e => { e with credits := e.credits - 1 }) })).modLink h
        (fun l => { l with creditsUsed := lmod 0 l.creditsUsed part (fun n => n - 1) })).sendWaiting h part))

/-! ### Control messages (R306, R337) -/

/-- The partner's answer to a parked command: it resumes; a command that no longer waits gives the amount back. -/
def State.granted (s : State) (h : Half) (ctx cue amount : Nat) : State :=
  match (s.job h ctx).exec with
  | some e =>
    if e.phase = .parked ∧ (parseRec e.record).cueIn = cue then s.modJob h ctx (Job.resume s.now cue amount (amount != 0)) else s.raiseCue cue amount
  | none => s.raiseCue cue amount

/-- A waiter of a cue homed in half `h` that belongs to the partner is asked for, and answered where it is met (R337). -/
def State.askRemote (s : State) (h : Half) (ctx cue amount : Nat) (acquire : Bool) : State :=
  let x := s.askCue { half := otherHalf h, ctx := ctx, acquire := acquire, amount := amount } cue
  if x.1 then x.2.send h (.granted ctx cue (if acquire then amount else 0)) else x.2

/-- A cue message or a token request at its receiver (R306). -/
def State.takeMessage (s : State) (h : Half) : CtrMessage → State
  | .signal cue amount => if cueHome cue = h then s.signalCue 0xFF 0 0 cue amount else s
  | .acquire ctx cue amount => s.askRemote h ctx cue amount true
  | .wait ctx cue value => s.askRemote h ctx cue value false
  | .granted ctx cue amount => s.granted h ctx cue amount
  | .tokenAsk ctx camera seq => s.answerToken h ctx camera seq
  | .tokenAnswer _ _ | .killed _ | .stopRuns _ _ | .written _ => s

/-- The message is a cue operation or a token request: the others arrive by rows of their own. -/
def ordinaryMessage : CtrMessage → Bool
  | .signal _ _ | .acquire _ _ _ | .wait _ _ _ | .granted _ _ _ | .tokenAsk _ _ _ => true
  | .tokenAnswer _ _ | .killed _ | .stopRuns _ _ | .written _ => false

/-- CONTROL_MESSAGE (R306): half `h` receives the oldest control message of its partner, where that is a cue operation or a
token request; messages behind a flit that awaits its replay wait as well (R305). -/
def execControlMessage (t : Nat) (h : Half) (s : State) : Host.Outcome State Fault Refusal :=
  .next (onLive (s.advance t) h (fun s =>
    match s.nextMessage h with
    | none => s
    | some m => if ordinaryMessage m then ((s.dropMessage h).takeMessage h m).dispatchBoth else s))

/-- WRITE_COMPLETE (R307): the acknowledgement that a packet of a command of half `h` has been written arrives, in the
order of the control messages. -/
def execWriteComplete (t : Nat) (h : Half) (ctx : Nat) (s : State) : Host.Outcome State Fault Refusal :=
  .next (onLive (s.advance t) h (fun s =>
    if s.nextMessage h = some (.written ctx) then
      ((s.dropMessage h).modJob h ctx (fun j =>
        { j with exec := j.exec.map (fun e => { e with acksDue := e.acksDue - 1 }) })).dispatch h
    else s))

/-- What half `h` has sent to a killed command of its partner and not yet delivered is void: a granted acquisition goes
back to its cue (R308, R337). -/
def State.voidAnswers (s : State) (h : Half) (ctx : Nat) : State :=
  let mine := fun (m : CtrMessage) => match m with
    | .granted c _ _ => c == ctx
    | .written c => c == ctx
    | .tokenAnswer c _ => c == ctx
    | _ => false
  let back := (s.half h).link.outbox.filterMap (fun m => match m with
    | .granted c cue amount => if c = ctx then some (cue, amount) else none
    | _ => none)
  (s.modLink h (fun l => { l with outbox := l.outbox.filter (fun m => !(mine m)) })).returnEscrow h back

/-- The kill notice of a command of the partner's job context (R308): its packets still in the write queue are discarded and
its credits return, and unless a wide variant takes them over (R89), the acquisitions that `h` holds for it are returned
(R337). -/
def State.noteKill (s : State) (h : Half) (ctx : Nat) : State :=
  let src := otherHalf h
  let s1 := (((s.modLink h (fun l => { l with writeQueue := l.writeQueue.filter (fun p => p.ctx != ctx) })).dropWaiters
    h src ctx).voidAnswers h ctx).freeCredits src ctx
  match (s.job src ctx).exec with
  | none => s1
  | some e =>
    if e.retake = .wide then s1
    else
      (s1.modJob src ctx (fun j =>
        { j with exec := j.exec.map (fun e => { e with escrow := e.escrow.filter (fun p => cueHome p.1 != h) }) })).returnEscrow
          h e.escrow

/-- KILL_NOTICE (R308, R343): half `h` learns, in the order of the control messages, that its partner's command of a job
context is killed, or that the token of a frame it computes has been taken, which ends its runs of the frame. -/
def execKillNotice (t : Nat) (h : Half) (ctx : Nat) (s : State) : Host.Outcome State Fault Refusal :=
  .next (onLive (s.advance t) h (fun s =>
    match s.nextMessage h with
    | some (.killed c) => if c = ctx then ((s.dropMessage h).noteKill h ctx).dispatchBoth else s
    | some (.stopRuns camera seq) => ((s.dropMessage h).stopCamera h camera seq).dispatchBoth
    | _ => s))

/-! ### Losing and training the link (R23, R309, R310) -/

/-- The job waits on the partner or names a partner-homed cue, or is in a ceiling hold on one: the loss of the link
faults it (R23, R337); so it does while the kill of its command for the wide variant is under way (R89). -/
def State.lostWithLink (s : State) (h : Half) (j : Job) : Bool :=
  (match j.exec with
   | some e => (e.phase != .killing || decide (e.retake = .wide)) && s.execCrosses h e
   | none => false) ||
  (s.ceilingHolds j).any (fun c => cueHome c.1 != h)

/-- Jobs of a half that the loss of the link faults. -/
def State.lostJobs (s : State) (h : Half) : List Nat :=
  ((s.half h).disp.jobs.filter (fun p => s.lostWithLink h p.2)).map (·.1)

/-- What a half holds in escrow for commands of the other half goes back (R337). -/
def State.returnRemote (s : State) (h : Half) : State :=
  let src := otherHalf h
  (s.half src).disp.jobs.foldl (fun t p =>
    match p.2.exec with
    | some e =>
      ((t.modJob src p.1 (fun j =>
          { j with exec := j.exec.map (fun e => { e with escrow := e.escrow.filter (fun q => cueHome q.1 != h) }) })).returnEscrow
        h e.escrow).dropWaiters h src p.1
    | none => t) s

/-- Acquisitions granted to the partner's commands by messages still on their way (R337). -/
def Link.grantsOut (l : Link) : List (Nat × Nat) :=
  l.outbox.filterMap (fun m => match m with
    | .granted _ cue amount => some (cue, amount)
    | _ => none)

/-- Jobs of a half whose unprinted command waits for a halo of the partner (R244). -/
def HalfState.haloJobs (x : HalfState) : List Nat :=
  (x.disp.jobs.filter (fun p => match p.2.exec with
    | some e => e.phase != .killing && e.halo.isSome
    | none => false)).map (·.1)

/-- A job of a half that computes a striped frame, or waits for a halo (R244, R247): a loss of the partner or the link leaves the
frame without a result. -/
def State.stripeJob (s : State) (h : Half) (ctx : Nat) : Bool :=
  (s.half h).haloJobs.contains ctx ||
    ((s.job h ctx).active && (s.job h ctx).entry.any (fun e => decide (e.stream < 24) && s.striped h e.stream))

/-- The striped frames in hand are not delivered (R247, R252). -/
def State.loseStriped (s : State) (h : Half) : State :=
  (((s.half h).disp.jobs.map (·.1)).filter (s.stripeJob h)).foldl (fun t c => t.loseRun h c) s

/-- The link of a half goes down (R23, R309): its jobs that use the partner are faulted with CTR_LOST, striped frames in hand are
not delivered (R247, R252), and what it has granted to the partner goes back to its cues (R337). A half falls back to its degraded sheet
where it waits for a halo, at the loss or at a later issue (R252; DEDUCED, log entry 163). -/
def State.loseLink (s : State) (h : Half) : State :=
  let jobs := s.lostJobs h
  let waits := !((s.half h).haloJobs.isEmpty)
  let s1 := ((s.loseStriped h).modLink h (fun l =>
    { l with
      state := 2, naked := false, failedReplays := 0, retraining := false, waitArm := true, outbox := [], outData := []
      unsent := [], flitBytes := 0, writeQueue := [] })).returnEscrow h (s.half h).link.grantsOut
  ((jobs.foldl (fun t c => t.teardown h c 0x2D (t.tagOf h c) 0) s1).returnRemote h).modDisp h (Disp.fallBack waits)

/-- The link is down (R309): no acknowledgement has arrived for 10 µs (a flit is sent in every unit interval, R303, so flits
are always outstanding; log entry 110), or one flit has failed 16 consecutive replays. -/
def State.linkFails (s : State) (h : Half) : Bool :=
  decide ((s.half h).link.ackAt + 10000 ≤ s.now) || decide (16 ≤ (s.half h).link.failedReplays)

/-- CTR_DOWN (R309): no acknowledgement for 10 µs, or 16 failed replays of one flit. It is class 6 (R363). -/
def execCtrDown (t : Nat) (h : Half) (s : State) : Host.Outcome State Fault Refusal :=
  .next (onLive (s.advance t) h (fun s =>
    if s.linkUp h && s.linkFails h then ((s.log h { code := 0x0201, cls := 6, unit := 11 }).loseLink h).dispatchBoth else s))

/-- CTR_DEGRADED (R309): more than 64 replays within 1 ms are logged; the link stays up. -/
def execCtrDegraded (t : Nat) (h : Half) (s : State) : Host.Outcome State Fault Refusal :=
  .next (onLive (s.advance t) h (fun s =>
    let l := (s.half h).link.replayTimes.filter (fun a => decide (s.now < a + 1000000))
    if 64 < l.length then
      (s.modLink h (fun x => { x with replayTimes := [] })).log h { code := 0x0202, unit := 11, detail := l.length }
    else s))

/-- One end of the link may train: its island runs, and the link is untrained or is being retrained (R310). -/
def State.mayTrain (s : State) (h : Half) : Bool :=
  s.supplied h && decide (2 ≤ (s.half h).boot.stage) && !(s.half h).boot.failed &&
    ((s.half h).link.state == 0 || ((s.half h).link.state == 2 && (s.half h).link.retraining))

/-- CTR_TRAIN (R310): both ends train the link at power-up, at a restart or after CTR_CTL.RETRAIN. -/
def execCtrTrain (t : Nat) (spares : Nat) (s : State) : Host.Outcome State Fault Refusal :=
  let s1 := s.advance t
  let up := fun (l : Link) =>
    { l with
      state := 1, sparesUsed := min 16 spares, retraining := false, naked := false, failedReplays := 0, ackAt := s1.now }
  .next (
    if s1.twoHalves && (s1.mayTrain .a || (s1.half .a).link.state == 2) && (s1.mayTrain .b || (s1.half .b).link.state == 2) &&
        (s1.mayTrain .a || s1.mayTrain .b) && s1.supplied .a && s1.supplied .b && !s1.a.boot.failed && !s1.b.boot.failed then
      (s1.modLink .a up).modLink .b up
    else s1)

/-- CTR_CTL.RETRAIN is written (R310). -/
def State.ctrRetrain (s : State) (h : Half) (w : World) : State :=
  s.secureOnly h 11 w (fun s => s.modLink h (fun l => if l.state = 2 then { l with retraining := true } else l))

/-- CTR_RETRAIN (R310): CTR_CTL.RETRAIN written while LINK_STATE is 0b10 starts retraining. -/
def execCtrRetrain (t : Nat) (h : Half) (w : World) (s : State) : Host.Outcome State Fault Refusal :=
  .next (onLive (s.advance t) h (fun s => s.ctrRetrain h w))

/-! ### CTR_APPLY and PROT_CTL (R311, R315, R316) -/

/-- CTR_APPLY.APPLY is written (R316). -/
def State.ctrApply (s : State) (h : Half) (w : World) : State :=
  s.secureOnly h 11 w (fun s =>
    s.modLink h (fun l =>
      if 512 < l.stagedShare.foldl (· + ·) 0 then { l with err := true }
      else { l with err := false, applyPending := true, takeShare := l.stagedShare }))

/-- CTR_APPLY (R13, R316): CTR_SHARE as now written takes effect at the next slot boundary; a set whose credits sum to more
than 512 is not applied and sets ERR, and a set accepted before it stays. On FBZ1200-AN the shares ignore writes (R311). -/
def execCtrApply (t : Nat) (h : Half) (w : World) (s : State) : Host.Outcome State Fault Refusal :=
  .next (onLive (s.advance t) h (fun s => s.ctrApply h w))

/-- At the slot boundary CTR_SHARE is in effect, as the APPLY found it. -/
def Link.apply (l : Link) : Link :=
  if l.applyPending then { l with applyPending := false, share := l.takeShare } else l

/-- An enabled descriptor that may stand: LIMIT not below BASE, and inside the half's own HBM or bank pool (R316). -/
def RegionDesc.fits (h : Half) (d : RegionDesc) : Bool :=
  !(flag d.attr.toNat 63) ||
  (decide (d.base ≤ d.limit) &&
    ((decide (hbmBase h ≤ d.base * 4096) && decide ((d.limit + 1) * 4096 ≤ hbmBase h + hbmBytes)) ||
     (decide (poolBase h ≤ d.base * 4096) && decide ((d.limit + 1) * 4096 ≤ poolBase h + poolBytes))))

/-- PROT_CTL is written (R13, R315): LOCK can only be set; APPLY takes the set as now written, or refuses it with ERR, and
a set accepted before it stays. -/
def Prot.write (h : Half) (v : Nat) (p : Prot) : Prot :=
  let q := { p with stagedLock := p.stagedLock || flag v 31, stagedEnforce := flag v 30 }
  if !(flag v 0) then q
  else if q.staged.all (fun d => d.2.fits h) then
    { q with err := false, pending := true, takeLock := q.stagedLock, takeEnforce := q.stagedEnforce, take := q.staged }
  else { q with err := true }

/-- PROT_CTL is written (R315): refused and logged once LOCK is in effect. -/
def State.protCtl (s : State) (h : Half) (value : Nat) (w : World) : State :=
  s.secureOnly h 0xFF w (fun s =>
    if (s.half h).prot.lock then s.logUnlisted h .writeRefused { code := 0, detail := 0x800000 }
    else s.modProt h (Prot.write h value))

/-- PROT_CTL_APPLY (R315): a write of PROT_CTL. -/
def execProtCtlApply (t : Nat) (h : Half) (value : BitVec 32) (w : World) (s : State) :
    Host.Outcome State Fault Refusal :=
  .next (onLive (s.advance t) h (fun s => s.protCtl h value.toNat w))

/-- At the slot boundary the descriptors, ENFORCE and LOCK are in effect together (R315), as the APPLY found them. -/
def Prot.apply (p : Prot) : Prot :=
  if p.pending then { p with pending := false, lock := p.lock || p.takeLock, enforce := p.takeEnforce, regions := p.take }
  else p

end Sys2Proof.Machine
end

