-- ==== Sys2Proof/Machine/Crypto.lean ====
section
/-! DEFINITION. The cryptography of chapter 15: SHA-512 (FIPS 180-4) and Ed25519 (RFC 8032), which R477, R478, R486 and
R487 name (log entry 19). -/

namespace Sys2Proof.Machine

open Sys2Proof

/-! ### SHA-512 -/

/-- A 64-bit word rotated right. -/
def rotr (x n : Nat) : Nat := (x >>> n) ||| ((x <<< (64 - n)) % 2 ^ 64)

/-- The round constants, in four pieces. -/
def shaK0 : List Nat :=
  [0x428A2F98D728AE22, 0x7137449123EF65CD, 0xB5C0FBCFEC4D3B2F, 0xE9B5DBA58189DBBC, 0x3956C25BF348B538,
   0x59F111F1B605D019, 0x923F82A4AF194F9B, 0xAB1C5ED5DA6D8118, 0xD807AA98A3030242, 0x12835B0145706FBE,
   0x243185BE4EE4B28C, 0x550C7DC3D5FFB4E2, 0x72BE5D74F27B896F, 0x80DEB1FE3B1696B1, 0x9BDC06A725C71235,
   0xC19BF174CF692694, 0xE49B69C19EF14AD2, 0xEFBE4786384F25E3, 0x0FC19DC68B8CD5B5, 0x240CA1CC77AC9C65]
def shaK1 : List Nat :=
  [0x2DE92C6F592B0275, 0x4A7484AA6EA6E483, 0x5CB0A9DCBD41FBD4, 0x76F988DA831153B5, 0x983E5152EE66DFAB,
   0xA831C66D2DB43210, 0xB00327C898FB213F, 0xBF597FC7BEEF0EE4, 0xC6E00BF33DA88FC2, 0xD5A79147930AA725,
   0x06CA6351E003826F, 0x142929670A0E6E70, 0x27B70A8546D22FFC, 0x2E1B21385C26C926, 0x4D2C6DFC5AC42AED,
   0x53380D139D95B3DF, 0x650A73548BAF63DE, 0x766A0ABB3C77B2A8, 0x81C2C92E47EDAEE6, 0x92722C851482353B]
def shaK2 : List Nat :=
  [0xA2BFE8A14CF10364, 0xA81A664BBC423001, 0xC24B8B70D0F89791, 0xC76C51A30654BE30, 0xD192E819D6EF5218,
   0xD69906245565A910, 0xF40E35855771202A, 0x106AA07032BBD1B8, 0x19A4C116B8D2D0C8, 0x1E376C085141AB53,
   0x2748774CDF8EEB99, 0x34B0BCB5E19B48A8, 0x391C0CB3C5C95A63, 0x4ED8AA4AE3418ACB, 0x5B9CCA4F7763E373,
   0x682E6FF3D6B2B8A3, 0x748F82EE5DEFB2FC, 0x78A5636F43172F60, 0x84C87814A1F0AB72, 0x8CC702081A6439EC]
def shaK3 : List Nat :=
  [0x90BEFFFA23631E28, 0xA4506CEBDE82BDE9, 0xBEF9A3F7B2C67915, 0xC67178F2E372532B, 0xCA273ECEEA26619C,
   0xD186B8C721C0C207, 0xEADA7DD6CDE0EB1E, 0xF57D4F7FEE6ED178, 0x06F067AA72176FBA, 0x0A637DC5A2C898A6,
   0x113F9804BEF90DAE, 0x1B710B35131C471B, 0x28DB77F523047D84, 0x32CAAB7B40C72493, 0x3C9EBE0A15C9BEBC,
   0x431D67C49C100D4C, 0x4CC5D4BECB3E42B6, 0x597F299CFC657E2A, 0x5FCB6FAB3AD6FAEC, 0x6C44198C4A475817]
def shaK : List Nat := shaK0 ++ shaK1 ++ shaK2 ++ shaK3

/-- The initial hash value. -/
def shaInit : List Nat :=
  [0x6A09E667F3BCC908, 0xBB67AE8584CAA73B, 0x3C6EF372FE94F82B, 0xA54FF53A5F1D36F1, 0x510E527FADE682D1,
   0x9B05688C2B3E6C1F, 0x1F83D9ABFB41BD6B, 0x5BE0CD19137E2179]

/-- The big-endian number bytes spell. -/
def beNat (l : List Byte) : Nat := l.foldl (fun a b => a * 256 + b.toNat) 0
/-- The `k` big-endian bytes of a number. -/
def toBe (k n : Nat) : List Byte := (toLe k n).reverse

/-- The message with its padding: 0x80, zeros, and the length in bits over 16 bytes. -/
def shaPad (m : List Byte) : List Byte :=
  m ++ [0x80] ++ List.replicate ((111 + 128 - m.length % 128) % 128) 0 ++ toBe 16 (8 * m.length)

/-- The message schedule, newest word first: `n` words are appended. -/
def shaSchedule : Nat → List Nat → List Nat
  | 0, w => w
  | n + 1, w =>
    let a := w.getD 1 0
    let b := w.getD 14 0
    let s1 := rotr a 19 ^^^ rotr a 61 ^^^ (a >>> 6)
    let s0 := rotr b 1 ^^^ rotr b 8 ^^^ (b >>> 7)
    shaSchedule n (((s1 + w.getD 6 0 + s0 + w.getD 15 0) % 2 ^ 64) :: w)

/-- One round over the working variables a to h. -/
def shaRound (v : List Nat) (kw : Nat) : List Nat :=
  match v with
  | [a, b, c, d, e, f, g, h] =>
    let t1 := h + (rotr e 14 ^^^ rotr e 18 ^^^ rotr e 41) + ((e &&& f) ^^^ ((2 ^ 64 - 1 - e) &&& g)) + kw
    let t2 := (rotr a 28 ^^^ rotr a 34 ^^^ rotr a 39) + ((a &&& b) ^^^ (a &&& c) ^^^ (b &&& c))
    [(t1 + t2) % 2 ^ 64, a, b, c, (d + t1) % 2 ^ 64, e, f, g]
  | l => l

/-- The sixteen words of a block. -/
def shaWords (block : List Byte) : List Nat := (List.range 16).map (fun i => beNat ((block.drop (8 * i)).take 8))

/-- One block. -/
def shaBlock (v : List Nat) (block : List Byte) : List Nat :=
  let w := (shaSchedule 64 (shaWords block).reverse).reverse
  List.zipWith (fun x y => (x + y) % 2 ^ 64) v ((List.zipWith (· + ·) shaK w).foldl shaRound v)

/-- `n` blocks of a padded message. -/
def shaBlocks : Nat → List Nat → List Byte → List Nat
  | 0, v, _ => v
  | n + 1, v, m => shaBlocks n (shaBlock v (m.take 128)) (m.drop 128)

/-- SHA-512 of a byte string: 64 bytes. -/
def sha512 (m : List Byte) : List Byte :=
  let p := shaPad m
  (shaBlocks (p.length / 128) shaInit p).flatMap (toBe 8)

/-! ### Ed25519 -/

/-- The field's prime, the group's order and the curve's constant. -/
def edP : Nat := 2 ^ 255 - 19
def edL : Nat := 2 ^ 252 + 27742317777372353535851937790883648493
def edD : Nat := 37095705934669439343138083508754565189542113879843219016388785533085940283555
/-- A square root of −1. -/
def edI : Nat := 19681161376707505956807079304988542015446066515923890162744021073123829784752

/-- The bits of a number, most significant first, over `n` positions. -/
def bitsOf (n x : Nat) : List Bool := ((List.range n).map (fun i => x.testBit i)).reverse

/-- A power in the field. -/
def edPow (b e : Nat) : Nat :=
  (bitsOf 256 e).foldl (fun a t => if t then a * a % edP * b % edP else a * a % edP) 1

/-- A point in extended coordinates. -/
structure EdPoint where
  x : Nat
  y : Nat
  z : Nat
  t : Nat
deriving DecidableEq, Repr

/-- A difference in the field. -/
def edSub (a b : Nat) : Nat := (a + edP - b % edP) % edP

/-- The sum of two points. -/
def edAdd (p q : EdPoint) : EdPoint :=
  let a := edSub p.y p.x * edSub q.y q.x % edP
  let b := (p.y + p.x) * (q.y + q.x) % edP
  let c := 2 * p.t * q.t * edD % edP
  let d := 2 * p.z * q.z % edP
  let e := edSub b a
  let f := edSub d c
  let g := (d + c) % edP
  let h := (b + a) % edP
  { x := e * f % edP, y := g * h % edP, z := f * g % edP, t := e * h % edP }

/-- A multiple of a point. -/
def edMul (k : Nat) (p : EdPoint) : EdPoint :=
  (bitsOf 256 k).foldl (fun a t => let b := edAdd a a; if t then edAdd b p else b) { x := 0, y := 1, z := 1, t := 0 }

/-- The base point. -/
def edBase : EdPoint :=
  let x := 15112221349535400772501151409588531511454012693041857206046113283949847762202
  let y := 46316835694926478169428394003475163141307993866256225615783033603165251855960
  { x := x, y := y, z := 1, t := x * y % edP }

/-- Two points are equal. -/
def edEq (p q : EdPoint) : Bool := p.x * q.z % edP == q.x * p.z % edP && p.y * q.z % edP == q.y * p.z % edP

/-- A point as 32 bytes. -/
def edEncode (p : EdPoint) : List Byte :=
  let i := edPow p.z (edP - 2)
  toLe 32 (p.y * i % edP + p.x * i % edP % 2 * 2 ^ 255)

/-- The point 32 bytes name; none where they name none. -/
def edDecode (l : List Byte) : Option EdPoint :=
  let n := leNat l
  let y := n % 2 ^ 255
  if edP ≤ y ∨ l.length ≠ 32 then none
  else
    let u := edSub (y * y) 1
    let v := (edD * y * y + 1) % edP
    let c := u * edPow v 3 % edP * edPow (u * edPow v 7 % edP) ((edP - 5) / 8) % edP
    let w := v * c * c % edP
    let x := if w = u then some c else if w = edSub 0 u then some (c * edI % edP) else none
    match x with
    | none => none
    | some x =>
      if x = 0 ∧ flag n 255 = true then none
      else
        let x' := if decide (x % 2 = 1) == flag n 255 then x else edP - x
        some { x := x', y := y, z := 1, t := x' * y % edP }

/-- Ed25519 verification (RFC 8032, without the cofactor; log entry 19). -/
def edVerify (key msg sig : List Byte) : Bool :=
  let r := sig.take 32
  let s := leNat (sig.drop 32)
  if sig.length ≠ 64 ∨ edL ≤ s then false
  else
    match edDecode key, edDecode r with
    | some a, some p =>
      edEq (edMul s edBase) (edAdd p (edMul (leNat (sha512 (r ++ key ++ msg)) % edL) a))
    | _, _ => false

/-- The secret scalar of a seed. -/
def edScalar (seed : List Byte) : Nat :=
  let a := leNat ((sha512 seed).take 32)
  a % 2 ^ 254 / 8 * 8 + 2 ^ 254

/-- The public key of a seed. -/
def edPublic (seed : List Byte) : List Byte := edEncode (edMul (edScalar seed) edBase)

/-- The signature of a message under a seed. -/
def edSign (seed msg : List Byte) : List Byte :=
  let key := edPublic seed
  let r := leNat (sha512 ((sha512 seed).drop 32 ++ msg)) % edL
  let p := edEncode (edMul r edBase)
  let k := leNat (sha512 (p ++ key ++ msg)) % edL
  p ++ toLe 32 ((r + k * edScalar seed) % edL)

end Sys2Proof.Machine
end

