-- ==== Sys2Proof/Machine/Zenith.lean ====
section
/-! DEFINITION. Zenith's rows (chapter 13): supplies and clocks, sensors, forecast and throttling, cooling, ageing, and
built-in test. -/

namespace Sys2Proof.Machine

open Sys2Proof

/-! ### Degraded (R400, R401) -/

/-- A condition of Degraded holds: COOL_DEGRADED or SUPPLY_RANGE. -/
def Zen.degradedCond (z : Zen) : Bool := flag z.coolStatus 1 || z.supplyBad

/-- The instant since which every condition of Degraded has been clear. -/
def Zen.trackClear (now : Nat) (z : Zen) : Zen :=
  { z with degradedClear := if z.degradedCond then none else some (z.degradedClear.getD now) }

/-- A half in Run enters Degraded where a condition holds (R400). -/
def Zen.enterDegraded (code : Nat) (z : Zen) : Zen :=
  if z.degradedCond && decide (z.power = .run) then { z with power := .degraded, degradedCause := code } else z

/-- The emergency message of an entry into Degraded or of an exit from it, which carries the cause (R401). -/
def State.sendCause (s : State) (h : Half) (entry : Bool) : State :=
  let e : Event := { code := (s.half h).zen.degradedCause, unit := 13 }
  s.modCan h (queueEmcy (halfNum h) e entry (s.logEntry h e))

/-- DEGRADED_EXIT (R400, R401): every condition has been clear for 10 s; the exit is sent as an emergency message that
carries the cause. -/
def execDegradedExit (t : Nat) (h : Half) (s : State) : Host.Outcome State Fault Refusal :=
  .next (onHalf (s.advance t) h (fun s =>
    let z := (s.half h).zen
    match z.degradedClear with
    | none => s
    | some a =>
      if z.power = .degraded ∧ a + 10000000000 ≤ s.now then (s.modZen h (fun z => { z with power := .run })).sendCause h false
      else s))

/-! ### Supplies and clocks (R402 to R406) -/

/-- SUPPLY_RANGE (R405): VIN_CORE averaged over 1 ms leaves its range of 1.71 V to 1.89 V, or is back in it. -/
def execSupplyRange (t : Nat) (h : Half) (mv : Nat) (s : State) : Host.Outcome State Fault Refusal :=
  .next (onHalf (s.advance t) h (fun s =>
    let bad := decide (mv < 1710) || decide (1890 < mv)
    let was := (s.half h).zen.supplyBad
    let s1 := s.modZen h (fun z =>
      Zen.trackClear s.now (Zen.enterDegraded 0x060E { z with vinMv := mv, supplyBad := bad }))
    if bad && !was then s1.log h { code := 0x060E, unit := 13, detail := mv } else s1))

/-- REG_FAULT (R405): a regulator's output has stayed more than 5 % from its setpoint for 10 µs. -/
def execRegFault (t : Nat) (h : Half) (rail mv : Nat) (s : State) : Host.Outcome State Fault Refusal :=
  .next (onHalf (s.advance t) h (fun s =>
    let r := (s.half h).zen.rails.getD rail {}
    if r.setpoint < 20 * ((mv : Int) - (r.setpoint : Int)).natAbs then
      (s.modZen h (fun z => { z with rails := lmod {} z.rails rail (fun r => { r with measured := mv }) })).halfFault h
        { code := 0x0605, unit := 13, detail := rail * 2 ^ 32 + mv }
    else s))

/-- CLOCK_FAULT (R406): the reference has stopped for 1 µs or departed by more than 1,000 ppm. -/
def execClockFault (t : Nat) (h : Half) (s : State) : Host.Outcome State Fault Refusal :=
  .next (onHalf (s.advance t) h (fun s =>
    (s.modZen h (fun z => { z with refOk := false })).halfFault h { code := 0x0606, unit := 13 }))

/-! ### Temperatures (R409) -/

/-- The throttle units (R407). -/
def throttleUnits : List Nat := [0, 1, 2, 3, 4, 5, 6, 7, 10, 11]

/-- The units whose temperature a log entry reports (R361, R390): the throttle units, the island, Zenith and PCIe; the post
unit and the outlier side lane lie in the array's region. -/
def sensedUnits : List Nat := throttleUnits ++ [12, 13, 14]

/-- The hottest sensor of a unit's region; the stack's reading for HBM (R409). -/
def hottestOf (readings : List Int) (stack : Nat) (old : Int) (u : Nat) : Int :=
  if u = 10 then (stack : Int) * 16
  else
    match ((List.range readings.length).filter (fun i => Config.sensorUnit i == u)).map (fun i => readings.getD i 0) with
    | [] => old
    | x :: r => r.foldl max x

/-- The throttle onset of a unit, 1/16 °C (R409). -/
def Zen.onsetOf (z : Zen) (u : Nat) : Int := 16 * ((if u = 10 then z.hbmOnset else z.onset : Nat) : Int)

/-- Sensors at 115 °C or more, each with the instant since which it has been (R416). -/
def trackHigh (now : Nat) (old : List (Nat × Nat)) (readings : List Int) : List (Nat × Nat) :=
  ((List.range readings.length).filter (fun i => decide (115 * 16 ≤ readings.getD i 0))).map (fun i =>
    (i, ((old.find? (fun p => p.1 == i)).map (·.2)).getD now))

/-! ### Cooling (R417, R418) -/

/-- The temperature of an NTC of resistance `ohm`, 1/16 °C; none above 500 kΩ or below 100 Ω (R417, R418). -/
def ntcTemp (r25 b ohm : Nat) : Option Int :=
  if ohm < 100 ∨ 500000 < ohm then none
  else
    let inv : Rat := mkRat 100 29815 + logApprox (mkRat ohm (max 1 r25)) / (max 1 b : Nat)
    some (roundRat ((1 / inv - mkRat 27315 100) * 16))

/-- Local flow in L/min: the pulses of the last 1 s over FLOW_K (R417). -/
def Zen.localFlow (now : Nat) (z : Zen) : Rat :=
  mkRat (60 * (z.flowPulses.filter (fun a => decide (now < a + 1000000000))).length) (max 1 z.flowK)

/-- Inlet, outlet and flow as the half uses them: its own, or its partner's from the heartbeat path (R417). -/
def State.coolOf (s : State) (h : Half) : Option Int × Option Int × Rat :=
  let z := (s.half h).zen
  if z.coolSrc = 1 then
    match (s.half h).isl.partnerCool with
    | some (i, o, f) => if (s.half h).isl.partnerLost then (none, none, 0) else (some i, some o, mkRat f 100)
    | none => (none, none, 0)
  else (z.coolIn16, z.coolOut16, z.localFlow s.now)

/-- A half's power in W as Zenith averages it over 10 s (R8, R429): the mean of its readings; before the first, the present
value. -/
def Zen.meanPower (now : Nat) (z : Zen) : Rat :=
  match (z.powerHist.filter (fun p => decide (now < p.1 + 10000000000))).map (·.2) with
  | [] => mkRat z.power16 16
  | l => mkRat ((l.foldl (· + ·) 0 : Nat) : Int) (16 * l.length)

/-- Package power in W (R8, R429): the sum of the halves' power, averaged over 10 s, plus 5 W. -/
def State.packagePower (s : State) : Rat :=
  (if s.supplied .a then s.a.zen.meanPower s.now else 0) + (if s.supplied .b then s.b.zen.meanPower s.now else 0) + 5

/-- The heat removed, in W (R418). -/
def State.heatOf (s : State) (h : Half) : Rat :=
  let c := s.coolOf h
  let cp := (Fmt.fp32.decode (s.half h).zen.cpVol.toNat).val.getD 0
  match c.1, c.2.1 with
  | some i, some o => c.2.2 / 60 * cp * mkRat (o - i) 16
  | _, _ => 0

/-- No flow pulse has arrived for 2 s, counted at the earliest from this power-on or restart (R418). -/
def Zen.flowDead (now : Nat) (z : Zen) : Bool :=
  match z.lastFlow with
  | some a => decide (a + 2000000000 ≤ now)
  | none => decide (z.startedAt + 2000000000 ≤ now)

/-- The condition of a status bit, with its hysteresis where the bit is set (R418). -/
def State.coolCond (s : State) (h : Half) (bit : Nat) (set : Bool) : Bool :=
  let c := s.coolOf h
  let dt : Int := if set then 32 else 0
  let df : Rat := if set then mkRat 1 10 else 0
  let z := (s.half h).zen
  let above := fun (x : Option Int) (limit : Int) => match x with
    | some v => decide (16 * limit - dt < v)
    | none => false
  let sensor := c.1.isNone || c.2.1.isNone || (z.coolSrc == 0 && z.flowDead s.now)
  let rise := match c.1, c.2.1 with
    | some i, some o => some (o - i)
    | _, _ => none
  if bit = 0 then above c.1 60 || decide (c.2.2 < 2 + df)
  else if bit = 1 then
    above c.1 65 || decide (c.2.2 < mkRat 3 2 + df) || above rise 10 ||
      (decide (100 < s.packagePower) && decide (s.heatOf h < mkRat 6 10 * s.packagePower)) || flag z.coolStatus 2
  else sensor

/-- The instants since which each bit's condition differs from the bit (R418). -/
def State.trackCool (s : State) (h : Half) : State :=
  s.modZen h (fun z =>
    { z with coolTimers := (List.range 3).map (fun b =>
        if s.coolCond h b (flag z.coolStatus b) = flag z.coolStatus b then none
        else some ((z.coolTimers.getD b none).getD s.now)) })

/-- Set or clear one bit of a status byte. -/
def setBit (n b : Nat) (v : Bool) : Nat := if flag n b then (if v then n else n - 2 ^ b) else (if v then n + 2 ^ b else n)

/-- A change of a cooling status bit is logged and sent as an emergency message (R418). -/
def State.changeCool (s : State) (h : Half) (bit : Nat) (v : Bool) : State :=
  let s1 := s.modZen h (fun z =>
    { z with coolStatus := setBit z.coolStatus bit v, coolTimers := lset z.coolTimers bit none })
  let e : Event := { code := 0x0607 + bit, unit := 13, detail := bitOf v }
  (s1.logWith h e v).modZen h (fun z => Zen.trackClear s.now (Zen.enterDegraded 0x0608 z))

/-- COOL_STATUS_CHANGE (R418): the condition of a bit has held, or been absent, for 10 s. COOL_SENSOR sets
COOL_DEGRADED as well. -/
def execCoolStatusChange (t : Nat) (h : Half) (bit : Nat) (s : State) : Host.Outcome State Fault Refusal :=
  .next (onHalf (s.advance t) h (fun s =>
    match (s.half h).zen.coolTimers.getD bit none with
    | none => s
    | some a =>
      if s.now < a + 10000000000 ∨ 3 ≤ bit then s
      else
        let v := !(flag (s.half h).zen.coolStatus bit)
        let s1 := s.changeCool h bit v
        let s2 := if bit = 2 ∧ v = true ∧ flag (s1.half h).zen.coolStatus 1 = false then s1.changeCool h 1 true else s1
        s2.trackCool h))

/-- FLOW_PULSE (R417). -/
def execFlowPulse (t : Nat) (h : Half) (s : State) : Host.Outcome State Fault Refusal :=
  .next (onHalf (s.advance t) h (fun s =>
    s.modZen h (fun z =>
      { z with
        flowPulses := s.now :: z.flowPulses.filter (fun a => decide (s.now < a + 1000000000)), lastFlow := some s.now })))

/-! ### Forecast (R410 to R412) -/

/-- c(L): the highest ENERGY_CLASS of a slot that covers the present line or one of the HOLD_MAX lines before it; 7 where
no sheet gives it (R410). -/
def HalfState.forecastClass (x : HalfState) : Nat :=
  match x.sheet with
  | none => 7
  | some sh =>
    let n := max 1 sh.periodLines
    let l := x.periodLine sh
    (sh.slots.filter (fun e => (List.range (sh.holdMax + 1)).any (fun i => e.covers n ((l + n - i % n) % n)))).foldl
      (fun a e => max a e.energy) 0

/-- The upper power bound of a class in W, with 160 W for class 7 (R104, R412). -/
def classPower (c : Nat) : Nat :=
  if c = 0 then 20 else if c = 1 then 40 else if c = 2 then 60 else if c = 3 then 80 else if c = 4 then 100
  else if c = 5 then 120 else if c = 6 then 145 else 160

/-- T̂ − Δ: the model's junction temperature in °C (R412). -/
def State.modelTemp (s : State) (h : Half) (c : Nat) : Rat :=
  let tin : Rat := match (s.coolOf h).1 with
    | some i => mkRat i 16
    | none => 65
  tin + mkRat 9 100 * ((if s.twoHalves then mkRat 22 10 else mkRat 11 10) * (classPower c : Nat) + 5)

/-- The armed sheet's floor of a unit; none where it has no floor (R318, R412). -/
def Sheet.floorOf (sh : Sheet) (u : Nat) : Nat :=
  if u = 0 then sh.floorArray else if u = 1 then sh.floorDolly else if 2 ≤ u ∧ u ≤ 5 then sh.floorBank
  else if u = 6 then sh.floorDir else 0

/-- The base setpoint of VDD_ARRAY for a class, in mV (R411). -/
def arrayBase (c : Nat) : Nat := if c ≤ 2 then 700 else if c ≤ 5 then 715 else 730

/-- The forecast at the start of a sheet line: VDD_ARRAY's setpoint, whose ramp is complete, and the forecast steps
(R410 to R412). DESIGN CHOICE (log entry 146): a setpoint whose guard is an odd number of 0.5 mV is cut down to whole mV. -/
def State.forecastLine (s : State) (h : Half) : State :=
  let x := s.half h
  let c := x.forecastClass
  let hot := decide (((x.zen.onset : Nat) : Rat) - 3 ≤ s.modelTemp h c + mkRat x.zen.deltaModel 16)
  s.modZen h (fun z =>
    { z with
      forecastClass := c
      rails := lmod {} z.rails 0 (fun r =>
        { r with setpoint := arrayBase c + r.guard / 2, measured := arrayBase c + r.guard / 2 })
      units := throttleUnits.foldl (fun l u => tmod {} l u (fun x' =>
        { x' with forecast := match x.sheet with
            | some sh => if hot then sh.floorOf u else 0
            | none => 0 })) z.units })

/-- The hottest sensor minus the model of the present line, in 1/16 °C (R412). -/
def State.modelError (s : State) (h : Half) (readings : List Int) : Int :=
  match readings with
  | [] => 0
  | x :: r => r.foldl max x - (16 * s.modelTemp h (s.half h).zen.forecastClass).floor

/-- Δ of R412: the filter over 1 s is not given, so it is a free value between the least and the greatest of the differences
of the last 1 s, and never below 0 (log entry 38). -/
def filtered (free : Nat) (l : List Int) : Int :=
  match l with
  | [] => 0
  | x :: r =>
    let lo := r.foldl min x
    let hi := r.foldl max x
    max 0 (lo + ((free % ((hi - lo).toNat + 1) : Nat) : Int))

/-- SENSOR_READ (R409): every sensor's reading in 1/16 °C, the half's power in 1/16 W (R404), and the resistances of the
two NTCs in Ω (R417). -/
def execSensorRead (t : Nat) (h : Half) (readings : List Int) (power16 inNtc outNtc : Nat) (s : State) :
    Host.Outcome State Fault Refusal :=
  .next (onHalf (s.advance t) h (fun s =>
    let stack := (s.half h).hbm.stackTemp
    let hist : List (Nat × Int) := (s.now, s.modelError h readings) :: (s.half h).zen.deltaHist.filter (fun p => decide (s.now < p.1 + 1000000000))
    let s1 := { s with free := s.free + 1 }.modZen h (fun z =>
      { z with
        sensors := (List.range readings.length).foldl (fun l i => tput l i (readings.getD i 0)) z.sensors
        power16 := power16
        powerHist := (s.now, power16) :: z.powerHist.filter (fun p => decide (s.now < p.1 + 10000000000))
        units := sensedUnits.foldl (fun l u => tmod {} l u (fun x =>
          { x with temp16 := hottestOf readings stack x.temp16 u })) z.units
        sensorHigh := trackHigh s.now z.sensorHigh readings
        coolSince := if readings.all (fun r => decide (r < 95 * 16)) then some (z.coolSince.getD s.now) else none
        coolIn16 := ntcTemp z.ntcR25 z.ntcB inNtc, coolOut16 := ntcTemp z.ntcR25 z.ntcB outNtc
        deltaHist := hist, deltaModel := filtered s.freeWord.toNat (hist.map Prod.snd) })
    s1.trackCool h))

/-! ### Throttling (R413 to R416) -/

/-- A derate of R392 applies to a unit in its present band (R413). -/
def HalfState.derateOf (x : HalfState) (u : Nat) : Nat :=
  if u ≤ 7 ∧ flag x.isl.derate (8 * u + tjBand (tget ({} : Unit) x.zen.units u).temp16) = true then 2 else 0

/-- t(u) − onset(u). -/
def Zen.margin (z : Zen) (u : Nat) : Int := (tget ({} : Unit) z.units u).temp16 - z.onsetOf u

/-- The unit with the largest margin; the lowest number of equals (R413). -/
def Zen.hot (z : Zen) : Nat := throttleUnits.foldl (fun a u => if z.margin a < z.margin u then u else a) 0

/-- The unit with the largest react; the highest number of equals (R413). -/
def Zen.coolest (z : Zen) : Nat :=
  throttleUnits.foldl (fun a u =>
    if (tget ({} : Unit) z.units a).react ≤ (tget ({} : Unit) z.units u).react then u else a) 0

/-- t(u) has fallen by 0.5 °C over the last 1 ms. -/
def Zen.fallen (now u : Nat) (z : Zen) : Bool :=
  match (z.hotHistory.filter (fun p => p.2.1 == u && decide (p.1 + 1000000 ≤ now))).head? with
  | some p => decide ((tget ({} : Unit) z.units u).temp16 + 8 ≤ p.2.2)
  | none => false

/-- The half's power limit in 1/32 W (R415). -/
def State.limit32 (s : State) : Nat := (s.pkgLimit - 5) * (if s.twoHalves then 16 else 32)
/-- pw > lim, and pw < 0.95 × lim. -/
def State.overLimit (s : State) (h : Half) : Bool := decide (s.limit32 < 2 * (s.half h).zen.power16)
def State.underLimit (s : State) (h : Half) : Bool := decide (200 * (s.half h).zen.power16 < 95 * s.limit32)

/-- An instant of a past event lies at least `ns` ago, or there was none. -/
def rested (now ns : Nat) : Option Nat → Bool
  | some a => decide (a + ns ≤ now)
  | none => true

/-- The reactive part of R413: whether a step was added, and Zenith after it. -/
def State.react (s : State) (h : Half) : Bool × Zen :=
  let z := (s.half h).zen
  let u := z.hot
  if decide (0 ≤ z.margin u) || s.overLimit h then
    if rested s.now 1000000 z.lastAdd && !(z.fallen s.now u) then
      let r := (tget ({} : Unit) z.units u).react
      (decide (r < 15),
        { z with
          units := tmod {} z.units u (fun x => { x with react := min (x.react + 1) 15 })
          lastAdd := if r < 15 then some s.now else z.lastAdd })
    else (false, z)
  else if throttleUnits.all (fun u => decide (z.margin u < -48)) && s.underLimit h then
    if rested s.now 10000000 z.lastRemove then
      let v := z.coolest
      if (tget ({} : Unit) z.units v).react = 0 then (false, z)
      else
        (false,
          { z with units := tmod {} z.units v (fun x => { x with react := x.react - 1 }), lastRemove := some s.now })
    else (false, z)
  else (false, z)

/-- The steps of every unit (R413, R420). HBM's command slots up to now are used with the steps in force till now (R408). -/
def HalfState.takeSteps (now : Nat) (x0 : HalfState) : HalfState :=
  let x := x0.runQueues now
  { x with zen := { x.zen with units := throttleUnits.foldl (fun l u => tmod {} l u (fun y =>
      { y with
        derateSteps := x.derateOf u
        steps := max (max (x.derateOf u) y.ageStep) (min 15 (y.forecast + y.react)) })) x.zen.units } }

/-- The floor above which a unit's steps are reported: 0 for HBM, Contrail and Horizon, whatever sheet is armed; any other
unit's stands in the armed sheet (R414). -/
def HalfState.floorOf (x : HalfState) (u : Nat) : Option Nat :=
  if u = 7 ∨ u = 10 ∨ u = 11 then some 0 else x.sheet.map (fun sh => sh.floorOf u)

/-- BEYOND_FLOOR for one unit, at most once in a sheet frame (R414). -/
def State.beyondFloor (s : State) (h : Half) (u : Nat) : State :=
  match (s.half h).floorOf u with
  | none => s
  | some n =>
    let f := (s.half h).hzn.sheetFrame
    if n < (s.unit h u).steps ∧ (s.half h).isl.beyondFloor.contains (u, f) = false then
      (s.modIsl h (fun i => { i with beyondFloor := (u, f) :: i.beyondFloor.filter (fun p => p.1 != u) })).log h
        { code := 0x0602, unit := u, detail := (s.unit h u).steps }
    else s

/-- POWER_LIMIT, where a half's power exceeds its limit, once in a second (R415). -/
def State.limitLog (s : State) (h : Half) : State :=
  if s.overLimit h && rested s.now 1000000000 (s.half h).zen.limitLoggedAt then
    (s.modZen h (fun z => { z with limitLoggedAt := some s.now })).log h
      { code := 0x0603, unit := 13, detail := (s.half h).zen.power16 }
  else s

/-- THROTTLE_UPDATE (R413 to R415): every 100 µs. -/
def execThrottleUpdate (t : Nat) (h : Half) (s : State) : Host.Outcome State Fault Refusal :=
  .next (onHalf (s.advance t) h (fun s =>
    let u := (s.half h).zen.hot
    let r := s.react h
    let s1 := s.modHalf h (fun x => ({ x with zen :=
      { r.2 with hotHistory := (throttleUnits.map (fun v => (s.now, v, (tget ({} : Unit) r.2.units v).temp16)) ++
          r.2.hotHistory).filter (fun p => decide (s.now < p.1 + 1100000)) } }).takeSteps s.now)
    let s2 := if r.1 && rested s.now 1000000000 (s.half h).zen.onsetLoggedAt then
        (s1.modZen h (fun z => { z with onsetLoggedAt := some s.now })).log h
          { code := 0x0601, unit := u, detail := (s1.unit h u).steps }
      else s1
    throttleUnits.foldl (fun t u => t.beyondFloor h u) (s2.limitLog h)))

/-- A thermal trip: the half is fenced and its compute-die regulators are switched off (R416). -/
def State.trip (s : State) (h : Half) (detail : Nat) : State :=
  (s.halfFault h { code := 0x0604, unit := 13, detail := detail }).modZen h (fun z =>
    { z with tripped := true, regsOn := false, coolSince := none })

/-- THERMAL_TRIP (R416): a sensor has read 115 °C or more for 1 ms. -/
def execThermalTrip (t : Nat) (h : Half) (s : State) : Host.Outcome State Fault Refusal :=
  .next (onHalf (s.advance t) h (fun s =>
    match (s.half h).zen.sensorHigh.find? (fun p => decide (p.2 + 1000000 ≤ s.now)) with
    | some p => if (s.half h).zen.tripped then s else s.trip h p.1
    | none => s))

/-- THERMAL_TRIP_HW (R416): the hardware comparator of the island die trips at 125 °C without firmware. -/
def execThermalTripHw (t : Nat) (h : Half) (s : State) : Host.Outcome State Fault Refusal :=
  .next (onHalf (s.advance t) h (fun s => if (s.half h).zen.tripped then s else s.trip h 0xFF))

/-! ### Ageing (R419, R420) -/

/-- The rail of a throttle unit. -/
def unitsOfRail (r : Nat) : List Nat := throttleUnits.filter (fun u => railOfUnit u == r)

/-- The guard a slowdown asks for, in 0.5 mV: 2.5 mV for every 25 parts per 10,000 (R420). -/
def guardOf (slowdown : Nat) : Nat := slowdown / 25 * 5

/-- A rail takes the guard of its worst unit, up to 20 mV (R420); its output follows the setpoint (R404). -/
def Rail.age (worst : Nat) (r : Rail) : Rail :=
  let g := min 40 (guardOf worst)
  let v := r.setpoint - r.guard / 2 + g / 2
  { r with guard := g, setpoint := v, measured := if v = r.setpoint then r.measured else v }

/-- A unit that a guard of 20 mV no longer serves keeps 1 step (R420). -/
def wornOut (slowdown : Nat) : Bool := decide (40 < guardOf slowdown)

/-- The ageing values go to the repair record once an hour (R420). -/
def Isl.keepAge (z : Zen) (i : Isl) : Isl :=
  { i with repair := { i.repair with
      age := z.age, guards := z.rails.map (·.guard), poweredHours := z.poweredHours, ageTemp := z.ageTemp } }

/-- AGE_MEASURE (R419, R420): once a powered hour has passed, the monitors are measured at a Tj within 5 °C of the previous
measurement. -/
def execAgeMeasure (t : Nat) (h : Half) (temp : Int) (slowdowns : List Nat) (s : State) :
    Host.Outcome State Fault Refusal :=
  .next (onHalf (s.advance t) h (fun s =>
    let z := (s.half h).zen
    let hour := 3600000000000
    let z1 := { z with poweredHours := (z.poweredHours + 1) % 2 ^ 32, hourAt := z.hourAt + hour }
    let measured := z.poweredHours == 0 || decide ((temp - z.ageTemp).natAbs ≤ 80)
    let z2 := if measured then
        { z1 with
          age := (List.range 12).map (fun u => if throttleUnits.contains u then slowdowns.getD u 0 % 65536 else 0), ageTemp := temp
          rails := (List.range 5).map (fun r =>
            (z.rails.getD r {}).age ((unitsOfRail r).foldl (fun a u => max a (slowdowns.getD u 0 % 65536)) 0)) }
      else z1
    let worn := if measured then throttleUnits.filter (fun u => wornOut (z2.age.getD u 0)) else []
    let fresh := worn.filter (fun u => (s.unit h u).ageStep == 0)
    if s.now < z.hourAt + hour then s else
    let s1 := s.modHalf h (fun x =>
      { x with zen := { z2 with units := worn.foldl (fun l u => tmod {} l u (fun y => { y with ageStep := 1 })) z2.units }
               isl := x.isl.keepAge z2 })
    fresh.foldl (fun t u => t.log h { code := 0x060A, unit := u, detail := z2.age.getD u 0 }) s1))

/-! ### Fuse rows (R425) -/

/-- Even parity over bits 31:1 stands in bit 0. -/
def rowParityOk (w : Nat) : Bool := ((List.range 32).foldl (fun a i => a + bitOf (flag w i)) 0) % 2 == 0
/-- A programmed row that counts. -/
def rowValid (w : Nat) : Bool := flag w 31 && rowParityOk w
/-- A row not used: never programmed. -/
def rowFree (w : Nat) : Bool := w == 0
/-- A field fuse row. -/
def fuseRow (type bank sub spare column : Nat) : Nat :=
  let w := 2 ^ 31 + type * 2 ^ 29 + bank * 2 ^ 21 + sub * 2 ^ 19 + spare * 2 ^ 17 + column * 2 ^ 7
  if rowParityOk w then w else w + 1
/-- Row `i` of a half. -/
def Zen.row (z : Zen) (i : Nat) : Nat := (tget (0#32) z.fuseRows i).toNat
/-- FUSE_ROWS_FREE (R429). -/
def Zen.rowsFree (z : Zen) : Nat := ((List.range 64).filter (fun i => rowFree (z.row i))).length
/-- Valid rows of a type and bank. -/
def Zen.rowsOf (z : Zen) (type bank : Nat) : List Nat :=
  ((List.range 64).map z.row).filter (fun w => rowValid w && field w 30 29 == type && field w 28 21 == bank)
/-- Program the first free row. -/
def Zen.program (w : Nat) (z : Zen) : Zen :=
  match (List.range 64).find? (fun i => rowFree (z.row i)) with
  | some i => { z with fuseRows := tput z.fuseRows i (BitVec.ofNat 32 w) }
  | none => z

/-- Spare columns in use in a sub-array: the factory's and the field's (R179). -/
def Zen.sparesIn (z : Zen) (b : Bank) (bank sub : Nat) : Nat :=
  b.factory.getD sub 0 + ((z.rowsOf 0 bank).filter (fun w => field w 20 19 == sub)).length

/-- What the fuses say of a bank, as Boot senses them (R179, R180, R425). -/
def Bank.sense (z : Zen) (bank : Nat) (b : Bank) : Bank :=
  { b with
    sparesUsed := ((List.range 4).map (z.sparesIn b bank)).foldl (· + ·) 0
    retired := b.retired || !(z.rowsOf 1 bank).isEmpty }

/-! ### Shutdown BIST (R422 to R426) -/

/-- The outcome of one failing column: 0 repaired, 1 bank retired, 2 unrepaired, 3 already repaired; and Zenith after the
fuse row it takes (R424). -/
def Zen.repairColumn (z : Zen) (b : Bank) (c : BistColumn) : Nat × Zen :=
  let sub := c.line / 2048
  let used := z.sparesIn b c.bank sub
  if (z.rowsOf 0 c.bank).any (fun w => field w 20 19 == sub && field w 16 7 == c.bit) then (3, z)
  else if !(z.rowsOf 1 c.bank).isEmpty then (1, z)
  else if used < 4 ∧ 4 < z.rowsFree then (0, z.program (fuseRow 0 c.bank sub used c.bit))
  else if 0 < z.rowsFree then (1, z.program (fuseRow 1 c.bank 0 0 0))
  else (2, z)

/-- A BIST_RESULT entry (R426). -/
def bistEntry (c : BistColumn) (outcome : Nat) : BitVec 64 :=
  BitVec.ofNat 64 (c.bank % 256 * 2 ^ 56 + c.line % 8192 * 2 ^ 43 + c.bit % 1024 * 2 ^ 33 + c.phase % 8 * 2 ^ 30 +
    min 16383 c.failCount * 2 ^ 16 + outcome * 2 ^ 14)

/-- Every failing column in turn (R424): the outcomes, newest last. -/
def State.repairAll (s : State) (h : Half) : List BistColumn → State × List Nat
  | [] => (s, [])
  | c :: r =>
    let b := s.bank h c.bank
    let x := (s.half h).zen.repairColumn b c
    let s1 := s.modZen h (fun _ =>
      if x.2.bistResult.length < 1024 then { x.2 with bistResult := x.2.bistResult ++ [bistEntry c x.1] }
      else { x.2 with failOverflow := satAdd 0xFFFFFFFF x.2.failOverflow 1 })
    let s2 := if x.1 = 2 then s1.log h { code := 0x060D, unit := 13, detail := c.bank * 2 ^ 32 + c.line * 2 ^ 16 + c.bit }
      else if x.1 = 1 ∧ (s.half h).zen.rowsFree ≠ x.2.rowsFree then
        s1.log h { code := 0x0404, unit := 2 + c.bank / 64, detail := c.bank }
      else s1
    let y := State.repairAll s2 h r
    (y.1, x.1 :: y.2)

/-- Slab row and column as a DETAIL. -/
def slabDetail (k : Nat) : Nat := k / 17 * 256 + k % 17

/-- One slab's verdict (R388, R424): an active slab that fails is noted in the repair record for retirement; a retired one
counts its consecutive passes, and returns as its row's spare at the third. -/
def State.slabVerdict (s : State) (h : Half) (fails : List Nat) (k : Nat) : State :=
  let b := s.slab h k
  match b.state with
  | .active =>
    if fails.contains k then
      s.modIsl h (fun i => { i with repair := { i.repair with pendingSlabs := i.repair.pendingSlabs ++ [k] } })
    else s
  | .spare => s
  | .retired =>
    if fails.contains k then s.modSlab h k (fun b => { b with passCount := 0 })
    else if b.passCount < 2 then s.modSlab h k (fun b => { b with passCount := b.passCount + 1 })
    else (s.modSlab h k (fun b => { b with state := .spare, score := 0, passCount := 0 })).log h
      { code := 0x050E, unit := 0, detail := slabDetail k }

/-- LAST_BIST of a completed test: pass, repaired, or unrepaired failures (R429). -/
def bistVerdict (outcomes slabs : List Nat) (units : List (Nat × Nat)) : Nat :=
  if outcomes.contains 2 || !units.isEmpty then 3 else if outcomes.isEmpty && slabs.isEmpty then 1 else 2

/-- The repair record takes the slabs, LAST_BIST and the ageing values (R388, R389, R423). -/
def HalfState.writeRepair (x : HalfState) : HalfState :=
  { x with isl := { (x.isl.keepAge x.zen) with
      repair := { (x.isl.keepAge x.zen).repair with slabs := x.isl.slabs, lastBist := x.zen.lastBist } } }

/-- BIST_FAIL: a unit and its failing element (R424, R426). -/
def State.logBistFail (s : State) (h : Half) (u : Nat × Nat) : State :=
  s.log h { code := 0x060C, unit := u.1, detail := u.1 % 256 * 2 ^ 32 + u.2 % 2 ^ 32 }

/-- The compute-die regulators of a half go off: its bank pool loses its contents (R423). -/
def State.regsOff (s : State) (h : Half) : State :=
  (s.modZen h (fun z => { z with regsOn := false })).markUndef { base := poolBase h, len := poolBytes }

/-- BIST_DONE (R423 to R426): the failing bit columns, slabs and other units, each with its failing element, of a half that was
testing; the repairs are chosen, the fuse rows programmed, the repair record written and the compute-die regulators off. The
march has overwritten the bank pool. -/
def execBistDone (t : Nat) (h : Half) (columns : List BistColumn) (slabs : List Nat) (units : List (Nat × Nat)) (s : State) :
    Host.Outcome State Fault Refusal :=
  .next (onHalf (s.advance t) h (fun s =>
    if (s.half h).zen.bistRunning = false ∨ (s.half h).zen.power ≠ .testing then s
    else
      let x := s.repairAll h columns
      let s1 := (List.range 272).foldl (fun t k => t.slabVerdict h slabs k) x.1
      let s2 := units.foldl (fun t u => t.logBistFail h u) s1
      ((s2.modZen h (fun z =>
        { z with power := .testDone, bistRunning := false, lastBist := bistVerdict x.2 slabs units })).modHalf h (fun x =>
          { x.writeRepair with isl := { x.writeRepair.isl with
              repair := { x.writeRepair.isl.repair with failedUnits := units } } })).regsOff h))

end Sys2Proof.Machine
end

