-- ==== Sys2Proof/Machine/Island.lean ====
section
/-! DEFINITION. The continuity island's rows: lockstep and debug (R352 to R357), the heartbeat path and pairing (R358 to
R360), the loss of a half and its takeover (R374 to R376), restart and return (R378 to R383), watchdogs (R347, R348),
and the limits of R371 and R373. -/

namespace Sys2Proof.Machine

open Sys2Proof

/-! ### ISL_FAULT_N (R397) -/

/-- ISL_FAULT_N: high only in a half in service or degraded that is neither fenced nor halted (R355, R397). -/
def HalfState.faultLevel (x : HalfState) : Bool :=
  (x.isl.halfState == 2 || x.isl.halfState == 3) && !x.isl.fenced && !(x.isl.pairs.any (·.halted))

/-- The output follows its conditions. -/
def State.faultPin (s : State) (h : Half) : State :=
  s.modHalf h (fun x => { x with isl := { x.isl with faultN := x.faultLevel } })

/-! ### Lockstep (R352, R353, R357) -/

/-- Pair `p` of a half: Director 0 and 1, island 2. -/
def State.pair (s : State) (h : Half) (p : Nat) : Pair := (s.half h).isl.pairs.getD p {}
/-- Change a pair. -/
def State.modPair (s : State) (h : Half) (p : Nat) (f : Pair → Pair) : State :=
  s.modIsl h (fun i => { i with pairs := lmod {} i.pairs p f })
/-- The unit of a pair (R361). -/
def pairUnit (p : Nat) : Nat := if p = 2 then 12 else 6

/-- LOCKSTEP_MISMATCH (R357): the half is fenced and the pair's core self-test starts. -/
def execLockstepMismatch (t : Nat) (h : Half) (pair : Nat) (s : State) : Host.Outcome State Fault Refusal :=
  .next (onLive (s.advance t) h (fun s =>
    if (s.pair h pair).halted || !(s.pair h pair).comparing then s
    else
      (s.modPair h pair (fun p => { p with testing := true, entryAt := (s.half h).isl.logCount % 256 })).halfFault h
        { code := if pair = 2 then 0x0504 else 0x0503, unit := pairUnit pair }))

/-- The code of a verdict (R357). -/
def verdictCode : Verdict → Nat
  | .mainFail => 1
  | .checkerFail => 2
  | .bothPass => 3
  | .bothFail => 4

/-- A fault-log entry with another DETAIL; the entry's first 24 bytes stand (R361). -/
def withDetail (entry : List Byte) (detail : Nat) : List Byte := (entry ++ List.replicate 24 0).take 24 ++ toLe 8 detail

/-- CORE_SELFTEST (R357): the verdict becomes the DETAIL of the mismatch's log entry and goes to the repair record; a
transient mismatch of the Director counts for derating (R391). -/
def execCoreSelftest (t : Nat) (h : Half) (pair : Nat) (verdict : Verdict) (s : State) :
    Host.Outcome State Fault Refusal :=
  .next (onHalf (s.advance t) h (fun s =>
    if !(s.pair h pair).testing then s
    else
      let v := verdictCode verdict
      let at' := (s.pair h pair).entryAt
      let s1 := s.modPair h pair (fun p => { p with testing := false, verdict := v })
      let s2 := s1.modIsl h (fun i =>
        { i with
          log := tput i.log at' (withDetail (tget [] i.log at') v)
          coreFailed := if v = 3 then 0 else v
          repair := { i.repair with verdicts := i.repair.verdicts ++ [v] } })
      if v = 3 ∧ pair ≠ 2 then s2.countDerate h 6 else s2))

/-- LOCKSTEP_INPUT (R353): the synchronised values of an input have differed for 16 cycles. -/
def execLockstepInput (t : Nat) (h : Half) (pair : Nat) (s : State) : Host.Outcome State Fault Refusal :=
  .next (onLive (s.advance t) h (fun s => s.halfFault h { code := 0x0505, unit := pairUnit pair }))

/-! ### Debug (R355, R356) -/

/-- DEBUG_HALT (R355): accepted in development mode only; halting the island pair halts the Director pairs as well. -/
def execDebugHalt (t : Nat) (h : Half) (pair : Nat) (s : State) : Host.Outcome State Fault Refusal :=
  .next (onHalf (s.advance t) h (fun s =>
    if (s.half h).isl.safetyMode ≠ 1 then s.logUnlisted h .debugRefused { code := 0, unit := pairUnit pair }
    else
      let stop := fun (p : Pair) => { p with halted := true, comparing := false }
      ((if pair = 2 then s.modIsl h (fun i => { i with pairs := i.pairs.map stop }) else s.modPair h pair stop)).faultPin h))

/-- A debugger's memory write, made once through the pair's shared port (R356): an access of secure firmware acting for no
job, or of the island, under the map (R288), the region descriptors (R313) and bank ownership (R182). -/
def State.debugStore (s : State) (h : Half) (pair addr : Nat) (bytes : List Byte) : State :=
  let r : Region := { base := addr, len := bytes.length }
  let who : Agent := if pair = 2 then .island else .firmware
  let hbm := s.targetOf r == .hbm h
  let bank := match s.targetOf r with
    | .bankPool _ => true
    | _ => false
  if !(hbm && (s.half h).hbmServed || s.targetOf r == .bankPool h) then
    s.log h { code := 0x0112, unit := pairUnit pair, ctx := 0xFF, detail := addr }
  else if !((s.half h).admits who true true addr bytes.length) then s
  else if bank && decide (pair ≠ 2) then
    s.log h { code := 0x0402, unit := 2 + bankAt h addr / 64, ctx := 0xFF, detail := bankDetail h 0xFF addr }
  else if hbm then
    let p : HbmPort := if pair = 2 then .island else .director none
    if s.portOpen h p r then (s.portUse h p r).writeBytes addr bytes else s
  else s.writeBytes addr bytes

/-- DEBUG_WRITE (R356): a write to the main copy's registers or private state, replayed into the checker copy or not, or to
memory. -/
def execDebugWrite (t : Nat) (h : Half) (pair : Nat) (what : DebugTarget) (bytes : List Byte) (replayed : Bool) (s : State) :
    Host.Outcome State Fault Refusal :=
  .next (onHalf (s.advance t) h (fun s =>
    if !(s.pair h pair).halted then s
    else
      match what with
      | .memory addr => s.debugStore h pair addr bytes
      | .copy reg =>
        let value := leNat bytes
        s.modPair h pair (fun p =>
          { p with
            main := tput p.main reg value, checker := if replayed then tput p.checker reg value else p.checker
            diverged := p.diverged || !replayed })))

/-- DEBUG_RESUME (R356): comparison is re-armed; an action that was not replayed is then a mismatch. -/
def execDebugResume (t : Nat) (h : Half) (pair : Nat) (s : State) : Host.Outcome State Fault Refusal :=
  .next (onHalf (s.advance t) h (fun s =>
    if !(s.pair h pair).halted then s
    else
      let s1 := (s.modPair h pair (fun p => { p with halted := false, comparing := true, diverged := false })).faultPin h
      if (s.pair h pair).diverged then
        (s1.modPair h pair (fun p => { p with testing := true, entryAt := (s.half h).isl.logCount % 256 })).halfFault h
          { code := if pair = 2 then 0x0504 else 0x0503, unit := pairUnit pair }
      else s1))

/-! ### Heartbeats (R358) -/

/-- LAST_FRAME of a context: none for a shadow or disabled context, or before its first record. -/
def Stream.lastFrame (k : Stream) : Nat :=
  if k.cfg.enabled && !k.cfg.shadow then k.lastRecord.getD 0xFFFFFFFF else 0xFFFFFFFF

/-- Bytes 0x00 to 0x7B of a heartbeat (R358). -/
def State.heartbeatBody (s : State) (h : Half) (seq : Nat) : List Byte :=
  let x := s.half h
  let valid := x.zen.coolSrc == 0 && x.zen.coolIn16.isSome && x.zen.coolOut16.isSome
  let temp := fun (o : Option Int) => match o with
    | some v => unsignedOf 16 v
    | none => 0
  toLe 4 seq ++ toLe 1 x.isl.halfState ++ toLe 1 (bitOf (s.linkUp h) + 2 * bitOf valid) ++ toLe 2 0 ++
  toLe 4 x.hzn.sheetFrame ++ toLe 4 0 ++
  (List.range 24).flatMap (fun k => toLe 4 (s.stream h k).lastFrame) ++
  toLe 2 (temp x.zen.coolIn16) ++ toLe 2 (temp x.zen.coolOut16) ++ toLe 2 (min 65535 (100 * x.zen.localFlow s.now).floor.toNat) ++ toLe 6 0

/-- A whole heartbeat. -/
def State.heartbeat (s : State) (h : Half) (seq : Nat) : List Byte :=
  let b := s.heartbeatBody h seq
  b ++ toLe 4 (crc32c b)

/-- HEARTBEAT_SEND (R358): each lane sends its next heartbeat; the island runs from the second stage of the boot chain. -/
def execHeartbeatSend (t : Nat) (h : Half) (s : State) : Host.Outcome State Fault Refusal :=
  .next (onHalf (s.advance t) h (fun s =>
    if s.twoHalves && decide (2 ≤ (s.half h).boot.stage) then
      s.modIsl h (fun i => { i with lanes := i.lanes.map (fun l =>
        { l with sent := s.heartbeat h l.txSeq, txSeq := (l.txSeq + 1) % 2 ^ 32 }) })
    else s))

/-- A good heartbeat on a lane: since when good ones in service have arrived without a gap above 12 µs (R360). -/
def HbLane.take (now seq state : Nat) (l : HbLane) : HbLane :=
  let fresh := match l.lastAt with
    | some a => decide (now ≤ a + 12000)
    | none => false
  { l with
    lastSeq := some seq, lastAt := some now, silent := false
    goodSince := if state = 2 ∨ state = 3 then some (if fresh then l.goodSince.getD now else now) else none }

/-- HEARTBEAT_RECEIVE (R358): one whose HB_CRC fails is discarded. -/
def execHeartbeatReceive (t : Nat) (h : Half) (lane : Nat) (bytes : List Byte) (s : State) :
    Host.Outcome State Fault Refusal :=
  .next (onHalf (s.advance t) h (fun s =>
    if !s.twoHalves || bytes.length != 128 || leAt bytes 0x7C 4 != crc32c (bytes.take 0x7C) then s
    else
      s.modIsl h (fun i =>
        { i with
          lanes := lmod {} i.lanes lane (HbLane.take s.now (leAt bytes 0 4) (leAt bytes 4 1))
          partnerState := leAt bytes 4 1, partnerFrame := leAt bytes 8 4
          partnerLast := (List.range 24).map (fun k => leAt bytes (0x10 + 4 * k) 4)
          partnerCool := if flag (leAt bytes 5 1) 1 then
              some (signedOf 16 (leAt bytes 0x70 2), signedOf 16 (leAt bytes 0x72 2), leAt bytes 0x74 2)
            else none })))

/-- A lane has been silent for 12 µs (R358, R359). -/
def HbLane.quiet (now : Nat) (l : HbLane) : Bool :=
  match l.lastAt with
  | some a => decide (a + 12000 ≤ now)
  | none => true

/-- HB_LANE (R358): one lane falls silent while the other continues; it is logged and nothing follows. -/
def execHbLane (t : Nat) (h : Half) (lane : Nat) (s : State) : Host.Outcome State Fault Refusal :=
  .next (onLive (s.advance t) h (fun s =>
    let l := (s.half h).isl.lanes
    let me := l.getD lane {}
    if s.twoHalves && me.lastAt.isSome && me.quiet s.now && !me.silent && !((l.getD (1 - lane) {}).quiet s.now) then
      (s.modIsl h (fun i => { i with lanes := lmod {} i.lanes lane (fun l => { l with silent := true }) })).log h
        { code := 0x0509, unit := 12, detail := lane }
    else s))

/-! ### Losing the partner (R359, R360, R374 to R376) -/

/-- Several frames of a stream whose backup time has passed are backed up at once (R375). -/
def State.backupDue (s : State) (h : Half) (k : Nat) : State :=
  (s.stream h k).frames.foldl (fun t f =>
    if f.backupDue && !f.recorded && f.printed.isNone then t.tryBackup h k f else t) s

/-- The partner is lost during a striped frame: the commands that wait for its halo are killed and their jobs faulted with
CTR_LOST, and the frame is not delivered (R23, R247). -/
def State.loseHalos (s : State) (h : Half) : State :=
  (s.half h).haloJobs.foldl (fun t c => t.teardown h c 0x2D (t.tagOf h c) 0) (s.loseStriped h)

/-- The frames of the partner's shadowed streams that it reported delivered: nothing is done for them (R375). -/
def State.noteDelivered (s : State) (h : Half) : State :=
  s.modHzn h (fun z => { z with streams := z.streams.map (fun k =>
    (k.1, if k.2.cfg.enabled && k.2.cfg.shadow then
        { k.2 with frames := k.2.frames.map (fun f => if s.reportedDelivered h k.1 f.seq then { f with recorded := true } else f) }
      else k.2)) })

/-- The survivor holds the tokens of the partner's shadowed streams, releases the backups that are due, and switches to
its degraded sheet, where it holds one, at its next slot boundary (R375, R376). -/
def State.takeover (s : State) (h : Half) : State :=
  let s1 := s.modIsl h (fun i => { i with paired := false, partnerLost := true, holdsTokens := true })
  let s2 := (((s1.log h { code := 0x0508, unit := 12 }).log h { code := 0x0514, unit := 12 }).loseHalos h).noteDelivered h
  let shadows := ((s2.half h).hzn.streams.filter (fun p => p.2.cfg.enabled && p.2.cfg.shadow)).map (·.1)
  ((shadows.foldl (fun t k => t.backupDue h k) s2).modDisp h (fun d =>
    { d with switchPending := decide (d.sheetState = 1) && d.degraded.isSome })).dispatch h

/-- An unpaired half gives its partner up (R360): PARTNER_LOST is logged, and the partner's shadow streams are served. -/
def State.giveUp (s : State) (h : Half) : State :=
  ((s.modIsl h (fun i => { i with partnerLost := true, partnerReported := true, holdsTokens := true })).log h
    { code := 0x0508, unit := 12 }).modDisp h (fun d =>
      { d with switchPending := decide (d.sheetState = 1) && d.degraded.isSome })

/-- The half has reported service-ready and is in service. -/
def HalfState.inService (x : HalfState) : Bool := x.isl.halfState == 2 || x.isl.halfState == 3

/-- PARTNER_LOST (R359, R360): a paired partner's lanes are both silent for 12 µs, its heartbeat reports a state other than
in service or degraded, or its pairs are halted (R355); an unpaired one reports held out, failed or retired. On the silence of
both lanes the half also asserts RESTART_REQ. -/
def execPartnerLost (t : Nat) (h : Half) (s : State) : Host.Outcome State Fault Refusal :=
  .next (onLive (s.advance t) h (fun s =>
    let i := (s.half h).isl
    if !s.twoHalves then s
    else if i.paired then
      if i.lanes.all (fun l => l.quiet s.now) then (s.modIsl h (fun i => { i with restartReq := true })).takeover h
      else if !(i.partnerState == 2 || i.partnerState == 3) || (s.half (otherHalf h)).isl.pairs.any (·.halted) then s.takeover h
      else s
    else if (s.half h).inService && !i.partnerLost && !i.partnerReported && !i.withholding && decide (5 ≤ i.partnerState) &&
        decide (i.partnerState ≤ 7) then s.giveUp h
    else s))

/-- PAIRING_TIMEOUT (R360): the partner has not paired within 1 s of the half's own service-ready. -/
def execPairingTimeout (t : Nat) (h : Half) (s : State) : Host.Outcome State Fault Refusal :=
  .next (onLive (s.advance t) h (fun s =>
    let i := (s.half h).isl
    match i.readyAt with
    | none => s
    | some a =>
      if s.twoHalves && !i.paired && !i.partnerReported && !i.partnerLost && !i.withholding && (s.half h).inService &&
          decide (a + 1000000000 ≤ s.now) then s.giveUp h
      else s))

/-- HALF_DOWN (R374, R375): the message of the fenced partner reaches half `h`, carrying the frames the partner formed it of; one
that carries others is none of its messages. -/
def execHalfDown (t : Nat) (h : Half) (frames : List (Nat × Nat)) (s : State) : Host.Outcome State Fault Refusal :=
  .next (onLive (s.advance t) h (fun s =>
    let p := (s.half (otherHalf h)).isl
    let i := (s.half h).isl
    let s1 := s.modIsl h (fun i => { i with downFrames := frames })
    if !s.twoHalves || !p.fenced || !(frames == p.downMessage) then s
    else if i.paired then s1.takeover h
    else if i.partnerLost && !i.partnerReported then s1.noteDelivered h
    else s))

/-! ### Pairing and the return boundary (R360, R380) -/

/-- The return boundary after an instant: the first SHEET_FRAME that begins at least one full sheet frame later and is a
multiple of both active sheets' PERIOD_FRAMES (R380). -/
def State.chooseReturn (s : State) (h : Half) : Nat :=
  let x := s.half h
  let first := x.hzn.sheetFrame + (if x.hzn.lineNo = 0 ∧ x.hzn.lineStart = s.now then 1 else 2)
  let p := fun (y : HalfState) => match y.disp.active with
    | some sh => max 1 sh.periodFrames
    | none => 1
  let a := p x
  let b := p (s.half (otherHalf h))
  (((List.range 13).map (fun i => (first + i) % 2 ^ 32)).find? (fun f => f % a == 0 && f % b == 0)).getD first

/-- Both halves are to act at a return boundary that half `h` chooses. -/
def State.setReturn (s : State) (h : Half) : State :=
  let f := s.chooseReturn h
  (s.modIsl h (fun i => { i with returnFrame := some f })).modIsl (otherHalf h) (fun i => { i with returnFrame := some f })

/-- Both lanes have carried good heartbeats in service for 1 ms without a gap (R360). -/
def Isl.goodFor1ms (now : Nat) (i : Isl) : Bool :=
  i.lanes.all (fun l => !(l.quiet now) && (match l.goodSince with
    | some a => decide (a + 1000000 ≤ now)
    | none => false))

/-- PAIRING (R360): a half in service pairs; one that has meanwhile given its partner up, or taken it over, returns with it
at a common boundary (R380). -/
def execPairing (t : Nat) (h : Half) (s : State) : Host.Outcome State Fault Refusal :=
  .next (onLive (s.advance t) h (fun s =>
    let i := (s.half h).isl
    if s.twoHalves && !i.paired && !i.withholding && (s.half h).inService && i.goodFor1ms s.now then
      if i.holdsTokens then
        if i.returnFrame.isSome || !(s.live (otherHalf h)) || !(s.half (otherHalf h)).inService then s else s.setReturn h
      else s.modIsl h (fun i => { i with paired := true, partnerLost := false, partnerReported := false })
    else s))

/-- A job faulted under R23 that no release has started again, whatever sheet has run meanwhile; a BACKUP job, which no
tensor-parallel work holds, is released at its backup time alone. -/
def Job.lostLink (j : Job) : Bool := j.lost && !j.active && j.entry.any (fun e => !e.backup)

/-- The jobs faulted under R23 are released again, whatever their RELEASE (R381). -/
def State.releaseLost (s : State) (h : Half) : State :=
  ((s.half h).disp.jobs.filter (fun p => p.2.lostLink)).foldl (fun t p => t.release h p.1 none) s

/-- Frames that began before the return boundary are finished by the survivor: it keeps its shadow streams' frames, and the
half that returns treats those of its home streams as having their record elsewhere (R380). -/
def Stream.atReturn (survivor : Bool) (k : Stream) : Stream :=
  { k with frames := k.frames.map (fun f =>
      if survivor && k.cfg.shadow then { f with kept := true }
      else if !survivor && !k.cfg.shadow then { f with recorded := true }
      else f) }

/-- The return boundary in one half (R380): tokens return to the home halves, a withheld half delivers again, and the
halves pair. A survivor under its degraded sheet switches back at this line 0. -/
def State.returnHalf (s : State) (h : Half) : State :=
  let s1 := (s.modIsl h (fun i =>
    { i with
      returnFrame := none, paired := true, partnerLost := false, partnerReported := false, holdsTokens := false
      withholding := false, downFrames := [] })).modLink h (fun l => { l with waitArm := false })
  let survivor := (s.half h).isl.holdsTokens
  let s2 := if survivor || (s.half h).isl.withholding then
      s1.modHzn h (fun z => { z with streams := z.streams.map (fun k => (k.1, k.2.atReturn survivor)) })
    else s1
  s2.releaseLost h

/-! ### Restart (R378 to R383) -/

/-- RESTART_REQ (R358, R359): the line that the partner's island has asserted reaches this half's Zenith, which forces its
restart: it is fenced, and HALF_RESTART follows. The path is absent on FBZ1200-AN. -/
def execRestartReq (t : Nat) (h : Half) (s : State) : Host.Outcome State Fault Refusal :=
  .next (onLive (s.advance t) h (fun s =>
    if s.twoHalves && (s.half (otherHalf h)).isl.restartReq then
      (s.modIsl (otherHalf h) (fun i => { i with restartReq := false })).modHalf h (HalfState.fence s.now)
    else s))

/-- Every block of the half is reset but for what R378 names: the HBM controller's refresh and training, the Zenith
regulators with their supply state, the snapshot, the repair record; and what the manual counts since power-up. Fuses,
boot flash and key state are not blocks that a reset clears. DESIGN CHOICE (log entry 145): slab scores and the retirements
that are due stay too. A half that the fault manager holds out stays held out, whatever its snapshot (R399). -/
def HalfState.restarted (h : Half) (two snapshotOk : Bool) (now : Nat) (x : HalfState) : HalfState :=
  let fresh : HalfState := if h = .b then HalfState.resetB else {}
  let good := snapshotOk && x.isl.snapshot.good
  let held := x.isl.halfState == 5 && !x.isl.unconfigured
  { fresh with
    dolly := { fresh.dolly with
      refilledAt := now
      banks := x.dolly.banks.map (fun b =>
        (b.1, { sparesUsed := b.2.sparesUsed, factory := b.2.factory, retired := b.2.retired })) }
    hbm := { fresh.hbm with
      stackTemp := x.hbm.stackTemp, train := x.hbm.train, refresh2x := x.hbm.refresh2x
      lanesRepaired := x.hbm.lanesRepaired, passTemp := x.hbm.passTemp, passAt := x.hbm.passAt }
    hzn := { fresh.hzn with lineStart := now, adopt := two }
    isl := { fresh.isl with
      log := x.isl.log, logCount := x.isl.logCount
      halfState := if good && !held then 4 else 5
      unconfigured := !good && !held, restarts := satAdd 0xFFFF x.isl.restarts 1, lastHalfFault := x.isl.lastHalfFault
      restartTimes := now :: x.isl.restartTimes, slabs := x.isl.slabs, retirements := x.isl.retirements
      retireDue := x.isl.retireDue, derate := x.isl.derate, derateEvents := x.isl.derateEvents
      snapshot := { x.isl.snapshot with good := good }, repair := x.isl.repair, lastClass5 := x.isl.lastClass5
      lanes := x.isl.lanes.map (fun l => { txSeq := l.txSeq }), withholding := true }
    zen := Zen.trackClear now { fresh.zen with
      startedAt := now, units := throttleUnits.foldl (fun l u =>
        let a := (tget ({} : Unit) x.zen.units u).ageStep
        if a = 0 then l else tput l u { ageStep := a, steps := a }) fresh.zen.units
      power := x.zen.power, vinMv := x.zen.vinMv, power16 := x.zen.power16, rails := x.zen.rails
      fuseRows := x.zen.fuseRows, powerEvents := x.zen.powerEvents, supplyBad := x.zen.supplyBad
      degradedCause := x.zen.degradedCause, degradedClear := x.zen.degradedClear, age := x.zen.age
      ageTemp := x.zen.ageTemp, poweredHours := x.zen.poweredHours, hourAt := x.zen.hourAt, lastBist := x.zen.lastBist
      bistResult := x.zen.bistResult, failOverflow := x.zen.failOverflow }
    can := { fresh.can with emcySeq := x.can.emcySeq, emcyLost := x.can.emcyLost, emcyQueue := x.can.emcyQueue
                            lostFlag := x.can.lostFlag, onBus := x.can.onBus }
    pcie := { perstN := x.pcie.perstN }
    boot := { fresh.boot with
      flashA := x.boot.flashA, flashB := x.boot.flashB, vendorHash := x.boot.vendorHash, custHash := x.boot.custHash
      custProgrammed := x.boot.custProgrammed, custRevoked := x.boot.custRevoked, keysAtBoot := x.boot.keysAtBoot
      rollback := x.boot.rollback, uds := x.boot.uds, cert := x.boot.cert, hbmCode := x.boot.hbmCode, fusesSensed := x.boot.fusesSensed
      vioOk := x.boot.vioOk, updating := x.boot.updating, updateStatus := x.boot.updateStatus
      dictLevel := x.boot.dictLevel, sdioLevel := x.boot.sdioLevel, phase := 5, powerOnAt := now } }

/-- A half that stays in reset (R357, R382): HALF_FAILED, ISL_FAULT_N low. -/
def State.failHalf (s : State) (h : Half) : State :=
  ((s.log h { code := 0x050B, unit := 12 }).modIsl h (fun i => { i with halfState := 6, fenced := true })).faultPin h

/-- A thermal trip still holds the restart: some sensor has not read below 95 °C for 1 s (R416). -/
def Zen.tripHolds (now : Nat) (z : Zen) : Bool :=
  z.tripped && !(match z.coolSince with
    | some a => decide (a + 1000000000 ≤ now)
    | none => false)

/-- HALF_RESTART (R378, R379): the reset of a fenced half. `snapshotOk` is the CRC of the snapshot, `coreOk` the outcome of
the mask ROM's repeated core self-test (R357). The third restart within 1,000 s leaves the half failed (R382). -/
def execHalfRestart (t : Nat) (h : Half) (snapshotOk coreOk : Bool) (s : State) : Host.Outcome State Fault Refusal :=
  .next (onHalf (s.advance t) h (fun s =>
    let i := (s.half h).isl
    if !i.fenced || i.halfState == 6 || i.halfState == 7 || i.pairs.any (·.testing) || (s.half h).zen.tripHolds s.now then s
    else if i.coreFailed = 4 ∨ ((i.coreFailed = 1 ∨ i.coreFailed = 2) ∧ coreOk = false) then s.failHalf h
    else if 2 ≤ (i.restartTimes.filter (fun a => decide (s.now < a + 1000000000000))).length then s.failHalf h
    else
      let s1 := (s.returnRemote (otherHalf h)).log h { code := 0x050A, unit := 12 }
      let s2 := s1.modHalf h (HalfState.restarted h s.twoHalves snapshotOk s.now)
      ((s2.markUndef { base := poolBase h, len := poolBytes }).faultPin h).dispatch (otherHalf h)))

/-- The snapshot is restored in a restarted half (R379): Horizon's registers, HBM_PORT_CTL, CTR_SHARE, the region
descriptors with ENFORCE and LOCK, SAFETY_MODE, and the arming of its images. -/
def HalfState.restore (now : Nat) (x : HalfState) : HalfState :=
  let p := x.isl.snapshot
  if !p.good then x
  else
    { x with
      hzn := { x.hzn with
        lineStaged := some p.line
        fsync := p.fsync.map (fun f =>
          (f.1, { f.2 with driven := false, linesLeft := 0, faulted := false, edgeFrame := 0, edgeAt := none }))
        ports := p.ports, streams := p.streams.map (fun k => (k.1, { cfg := k.2 }))
        rings := p.rings.map (fun r => (r.1, { r.2 with gapDue := r.2.enable })) }
      hbm := { x.hbm with
        hznPrio := field p.portCtl 7 6, dirPrio := field p.portCtl 5 4, pciePrio := field p.portCtl 3 2
        stagedPort := p.portCtl, retrainDue := true, dueSince := some (x.hbm.dueSince.getD now) }
      link := { x.link with share := p.share, stagedShare := p.share }
      prot := { x.prot with
        regions := p.regions, staged := p.regions, enforce := p.enforce, stagedEnforce := p.enforce, lock := p.lock
        stagedLock := p.lock }
      isl := { x.isl with safetyMode := p.safetyMode }
      disp := { x.disp with
        activeImage := p.activeImage, degradedImage := p.degradedImage, armPending := if p.arm then some 1 else none } }

/-- SERVICE_READY (R469): the active sheet is in effect and, in locked mode, the timer is locked. A restarted half then
waits for the return boundary its survivor chooses (R380); one that has booted late, where the partner has given it up and
serves its streams, delivers from the boundary that its pairing brings about (R360); one held out stays so. -/
def execServiceReady (t : Nat) (h : Half) (s : State) : Host.Outcome State Fault Refusal :=
  .next (onLive (s.advance t) h (fun s =>
    let x := s.half h
    let heldOut := x.isl.halfState == 5 && !x.isl.unconfigured
    let due := x.isl.halfState == 1 || x.isl.halfState == 4 || x.isl.halfState == 5
    if !due || x.disp.sheetState == 0 || (x.hzn.line.locked && decide (x.hzn.lockState ≠ .locked)) || x.hbm.train == 3 then s
    else
      let survivor := s.live (otherHalf h) && (s.half (otherHalf h)).isl.holdsTokens
      let s1 := s.modHalf h (fun x =>
        { x with
          boot := { x.boot with phase := 4 }
          isl := { x.isl with
            halfState := if heldOut then 5 else 2, readyAt := some s.now, unconfigured := false
            withholding := heldOut || survivor }
          zen := Zen.enterDegraded (if x.zen.supplyBad then 0x060E else 0x0608)
            (if x.zen.power = .boot then { x.zen with power := .run } else x.zen) })
      let s1 := if (s1.half h).zen.power = .degraded && decide (x.zen.power ≠ .degraded) then s1.sendCause h true else s1
      let s2 := if !heldOut && x.isl.withholding && survivor then s1.setReturn (otherHalf h) else s1
      s2.faultPin h))

/-! ### Watchdogs (R347, R348) -/

/-- DIR_WATCHDOG (R348): the Director watchdog of a half that no debugger halts has expired. -/
def execDirWatchdog (t : Nat) (h : Half) (s : State) : Host.Outcome State Fault Refusal :=
  .next (onLive (s.advance t) h (fun s =>
    if (s.half h).suspended then s else s.halfFault h { code := 0x0506, unit := 6, detail := (s.half h).disp.dirWdg }))

/-- ISL_WATCHDOG (R348): Zenith and the partner island restart the half. -/
def execIslWatchdog (t : Nat) (h : Half) (s : State) : Host.Outcome State Fault Refusal :=
  .next (onLive (s.advance t) h (fun s =>
    if (s.half h).suspended then s else s.halfFault h { code := 0x0507, unit := 12 }))

/-- PART_RESET_OVERRUN (R347): a partition reset has not completed within 40 µs of the fault. -/
def execPartResetOverrun (t : Nat) (h : Half) (part : Nat) (s : State) : Host.Outcome State Fault Refusal :=
  .next (onLive (s.advance t) h (fun s =>
    if s.teardownOver h part 40000 then s.halfFault h { code := 0x0516, unit := 6, detail := part } else s))

/-! ### Disagreements (R371 to R373) -/

/-- HEALTH_WATCH: the unit's slices passed and no slab is attributed (R372). -/
def State.healthWatch (s : State) (h : Half) (unit : Nat) : State :=
  s.log h { code := 0x0512, unit := unit, detail := unit }

/-- DISAGREEMENT_LIMIT (R371): three disagreements of a unit in 1,000 sheet frames; its slices are due, and its count
starts again. Horizon has no slice, so its health path ends at once. -/
def execDisagreementLimit (t : Nat) (h : Half) (unit : Nat) (s : State) : Host.Outcome State Fault Refusal :=
  .next (onLive (s.advance t) h (fun s =>
    if (s.half h).isl.disagree.getD unit 0 < 3 then s
    else
      let s1 := s.modIsl h (fun i =>
        { i with
          disagree := i.disagree.set unit 0, disagreeAt := i.disagreeAt.set unit []
          slicesDue := if unit = 7 ∨ i.slicesDue.contains unit then i.slicesDue else i.slicesDue ++ [unit] })
      if unit = 7 then s1.healthWatch h 7 else s1))

/-- LEADER_REPEAT (R373): LEADER_FAIL on one stream in 8 consecutive frames is reported. -/
def execLeaderRepeat (t : Nat) (h : Half) (stream : Nat) (s : State) : Host.Outcome State Fault Refusal :=
  .next (onLive (s.advance t) h (fun s =>
    if (s.stream h stream).leaderFails < 8 then s
    else
      (s.modStream h stream (fun k => { k with leaderFails := 0 })).log h { code := 0x0515, unit := 7, detail := stream }))

end Sys2Proof.Machine
end

