-- ==== Sys2Proof/Machine/Slabs.lean ====
section
/-! DEFINITION. Slab health (R385 to R389), derating (R391 to R393), and the self-test slices (R394, R395) with the
health path they end (R372). -/

namespace Sys2Proof.Machine

open Sys2Proof

/-! ### Room for a slice (R395) -/

/-- The time left in the SELFTEST slot that covers the present line, in ns; none outside such a slot (R395). -/
def HalfState.selftestLeft (x : HalfState) (now : Nat) : Option Nat :=
  match x.sheet with
  | none => none
  | some sh =>
    let n := max 1 sh.periodLines
    match sh.slots.find? (fun e => e.selftest && e.covers n (x.periodLine sh)) with
    | none => none
    | some e =>
      some ((e.lengthM1 + 1 - (x.periodLine sh + n - e.startLine % n) % n) * (x.hzn.line.lineNs - 16) -
        (now - x.hzn.lineStart))

/-- The bound L of a kind of slice, in ns (R394). -/
def SliceKind.bound : SliceKind → Nat
  | .localise => 60000
  | .postFp => 25000
  | .outlier => 15000
  | .thread _ => 8000
  | .bankMarch _ => 33000

/-- A slice may run: it fits what is left of the slot (R395), and it has the disabled thread group or the unowned bank that
R394 gives it. -/
def State.sliceFits (s : State) (h : Half) (k : SliceKind) : Bool :=
  (match (s.half h).selftestLeft s.now with
    | none => false
    | some left => decide (k.bound ≤ left)) &&
  (match k with
    | .thread g => !(tget ({} : Group) (s.half h).dolly.groups g).enabled
    | .bankMarch b => !(s.bank h b).owned
    | _ => true)

/-- The ns from now to the start of a slot that is not the present line's. -/
def HalfState.untilSlot (x : HalfState) (sh : Sheet) (now : Nat) (e : SlotEntry) : Nat :=
  let n := max 1 sh.periodLines
  let d := (e.startLine % n + n - x.periodLine sh % n) % n
  (if d = 0 then n else d) * x.hzn.line.lineNs - (now - x.hzn.lineStart)

/-- The slot is more critical than those of SELFTEST_PART: its partition has a lower number (R318, R329). -/
def Sheet.moreCritical (sh : Sheet) (e : SlotEntry) : Bool := decide (e.part < sh.selftestPart)

/-- A more critical slot begins within the bound of a slice that starts now (R395). -/
def State.cutShort (s : State) (h : Half) (k : SliceKind) : Bool :=
  match (s.half h).sheet with
  | none => false
  | some sh => sh.slots.any (fun e => sh.moreCritical e && decide ((s.half h).untilSlot sh s.now e < k.bound))

/-- A slice starts: a march over the 8,192 lines of its bank leaves the bank's contents undefined, whether or not it ends. -/
def State.startSlice (s : State) (h : Half) : SliceKind → State
  | .bankMarch b => s.loseBank h b
  | _ => s

/-- A retake of the slice is no longer due. -/
def State.retaken (s : State) (h : Half) (k : SliceKind) : State :=
  s.modIsl h (fun i => { i with slicesCut := i.slicesCut.filter (· != k) })

/-- A slice's row (R395): one that may not run is not started; one that runs to its end has the effect `f` of its result; one
that a more critical slot is going to cut short is in progress until that slot begins, and its row's result is not its own. A
slice ends within its bound at an instant that the spec does not give, here that of its row (DESIGN CHOICE, log entry 148). -/
def onSlice (s : State) (h : Half) (k : SliceKind) (f : State → State) : State :=
  onLive s h (fun s =>
    if !(s.sliceFits h k) then s
    else
      let s1 := s.startSlice h k
      if s.cutShort h k then s1.modIsl h (fun i => { i with slices := k :: i.slices.filter (· != k) })
      else f (s1.retaken h k))

/-- The slices in progress are killed where a more critical slot begins, and where no SELFTEST slot covers the line any
longer; their retakes are due (R36, R37, R395). -/
def State.cutSlices (s : State) (h : Half) : State :=
  let x := s.half h
  let begins := match x.sheet with
    | none => false
    | some sh => sh.slots.any (fun e => sh.moreCritical e && e.startLine == x.periodLine sh)
  if begins || (x.selftestLeft s.now).isNone then
    s.modIsl h (fun i => { i with slices := [], slicesCut := i.slices ++ i.slicesCut.filter (fun k => !(i.slices.contains k)) })
  else s

/-! ### The health path (R371, R372) -/

/-- A unit's slices are due (R371). -/
def State.sliceDue (s : State) (h : Half) (unit : Nat) : Bool := (s.half h).isl.slicesDue.contains unit

/-- The unit's slices have run. -/
def State.clearDue (s : State) (h : Half) (unit : Nat) : State :=
  s.modIsl h (fun i => { i with slicesDue := i.slicesDue.filter (· != unit) })

/-- The health path of a unit whose slice passed or failed (R372); nothing where none was due. -/
def State.healthPath (s : State) (h : Half) (unit : Nat) (pass : Bool) : State :=
  if !(s.sliceDue h unit) then s
  else if pass then (s.clearDue h unit).healthWatch h unit
  else (s.clearDue h unit).halfFault h { code := 0x0511, unit := unit, detail := unit }

/-! ### Scores (R385) -/

/-- The score falls by 1 for each full 10 s without an event (R385). -/
def Slab.settle (now : Nat) (b : Slab) : Slab :=
  let n := (now - b.lastEvent) / 10000000000
  { b with score := b.score - n, lastEvent := b.lastEvent + n * 10000000000 }

/-- An attributed event adds 32, up to 255 (R385). -/
def Slab.hit (now : Nat) (b : Slab) : Slab := { b.settle now with score := min 255 ((b.settle now).score + 32), lastEvent := now }

/-- SLAB_SCORE_DECAY (R385). -/
def execSlabScoreDecay (t : Nat) (h : Half) (slab : Nat) (s : State) : Host.Outcome State Fault Refusal :=
  .next (onHalf (s.advance t) h (fun s => s.modSlab h slab (Slab.settle s.now)))

/-- The active slab that serves column `c` of slab row `r`. -/
def State.slabServing (s : State) (h : Half) (r c : Nat) : Option Nat :=
  ((List.range 17).map (fun i => 17 * r + i)).find? (fun k => decide ((s.slab h k).state = .active) && (s.slab h k).col == c)

/-- A slab's score has an event; at 128 or more it is due for retirement (R385, R386). -/
def State.slabEvent (s : State) (h : Half) (k : Nat) : State :=
  let s1 := s.modSlab h k (Slab.hit s.now)
  if 128 ≤ (s1.slab h k).score ∧ ((s.half h).isl.retireDue.map (·.1)).contains k = false then
    s1.modIsl h (fun i => { i with retireDue := i.retireDue ++ [(k, (s.half h).hzn.sheetFrame)] })
  else s1

/-! ### Retirement (R386, R387) -/

/-- The array runs no command: a command boundary (R386). -/
def State.arrayFree (s : State) (h : Half) : Bool :=
  match (s.half h).disp.running with
  | none => true
  | some c => (s.job h c).exec.isNone

/-- The unused spare of a slab's row. -/
def State.spareOf (s : State) (h : Half) (k : Nat) : Option Nat :=
  ((List.range 17).map (fun i => k / 17 * 17 + i)).find? (fun j => decide ((s.slab h j).state = .spare))

/-- The repair record takes the retirement map and the pass counts, and keeps the scores it has (R389). -/
def Isl.keepMap (i : Isl) : Isl :=
  { i with repair := { i.repair with slabs := i.slabs.map (fun p =>
      (p.1, { p.2 with score := (tget (slabReset p.1) i.repair.slabs p.1).score })) } }

/-- A slab is retired to its row's spare. -/
def State.retireSlab (s : State) (h : Half) (k j : Nat) : State :=
  (((s.modSlab h j (fun b => { b with state := .active, col := (s.slab h k).col })).modSlab h k (fun b =>
    { b with state := .retired, passCount := 0 })).modIsl h (fun i =>
      Isl.keepMap { i with retirements := i.retirements + 1 })).log h { code := 0x050C, unit := 0, detail := slabDetail k }

/-- A slab whose retirement is due and whose sheet line 0 has passed is retired at a command boundary (R386). With two
retirements in this power cycle, or no spare left in the row, SLAB_ADVISORY is logged instead (R387). -/
def State.retireNow (s : State) (h : Half) (slab : Nat) : State :=
  match (s.half h).isl.retireDue.find? (fun p => p.1 == slab) with
  | none => s
  | some p =>
    if p.2 = (s.half h).hzn.sheetFrame ∨ s.arrayFree h = false ∨ (s.slab h slab).state ≠ .active then s
    else
      let s1 := s.modIsl h (fun i => { i with retireDue := i.retireDue.filter (fun p => p.1 != slab) })
      match (if (s.half h).isl.retirements < 2 then s.spareOf h slab else none) with
      | some j => s1.retireSlab h slab j
      | none => s1.log h { code := 0x050D, unit := 0, detail := slabDetail slab }

/-- Every retirement that is due takes place. -/
def State.retireAll (s : State) (h : Half) : State :=
  ((s.half h).isl.retireDue.map (·.1)).foldl (fun t k => t.retireNow h k) s

/-- SLAB_RETIRED (R386, R387): the first command boundary after a sheet line 0 that follows the score's reaching 128. -/
def execSlabRetired (t : Nat) (h : Half) (slab : Nat) (s : State) : Host.Outcome State Fault Refusal :=
  .next (onLive (s.advance t) h (fun s => s.retireNow h slab))

/-! ### Slices (R394) -/

/-- LOCALISE (R394): the segments whose CRC failed, each by slab row and slab column. Exactly one attributes an event to
one slab (R385); in the health path of the array none failing is HEALTH_WATCH and several are UNIT_SELFTEST_FAIL. It runs on
the map that the retirements due leave (R399). -/
def execLocalise (t : Nat) (h : Half) (fails : List (Nat × Nat)) (s : State) : Host.Outcome State Fault Refusal :=
  .next (onSlice (s.advance t) h .localise (fun s =>
    let s1 := (s.retireAll h).clearDue h 16
    match fails.eraseDups with
    | [(r, c)] =>
      match s1.slabServing h r c with
      | some k => (s1.clearDue h 0).slabEvent h k
      | none => s1
    | l => s1.healthPath h 0 l.isEmpty))

/-- POST_FP (R394): a failed slice is a disagreement of the post unit (R371). -/
def execPostFp (t : Nat) (h : Half) (pass : Bool) (s : State) : Host.Outcome State Fault Refusal :=
  .next (onSlice (s.advance t) h .postFp (fun s => (if pass then s else s.disagree h 8).healthPath h 8 pass))

/-- OUTLIER (R394): a failed slice is a disagreement of the outlier side lane (R371). -/
def execOutlierSlice (t : Nat) (h : Half) (pass : Bool) (s : State) : Host.Outcome State Fault Refusal :=
  .next (onSlice (s.advance t) h .outlier (fun s => (if pass then s else s.disagree h 9).healthPath h 9 pass))

/-- THREAD (R394): it runs on one disabled thread group; a failed one counts for Dolly's derating (R391). -/
def execThreadSlice (t : Nat) (h : Half) (group : Nat) (pass : Bool) (s : State) : Host.Outcome State Fault Refusal :=
  .next (onSlice (s.advance t) h (.thread group) (fun s =>
    (if pass then s else s.countDerate h 1).healthPath h 1 pass))

/-- BANK_MARCH (R394): a march over the 8,192 lines of one unowned bank, whose contents are then undefined. -/
def execBankMarch (t : Nat) (h : Half) (bank : Nat) (pass : Bool) (s : State) : Host.Outcome State Fault Refusal :=
  .next (onSlice (s.advance t) h (.bankMarch bank) (fun s => s.healthPath h (2 + bank / 64) pass))

/-! ### Derating (R391 to R393) -/

/-- Derate-counted events of a unit in a band within the last 100 powered hours (R392). -/
def HalfState.derateCount (x : HalfState) (unit band : Nat) : Nat :=
  (x.isl.derateEvents.filter (fun e =>
    e.1 == unit && e.2.1 == band && decide (x.zen.poweredHours < e.2.2 + 100))).length

/-- A derate of 2 steps above the armed sheet's floor is reported (R393). -/
def State.derateBelowFloor (s : State) (h : Half) (unit : Nat) : State :=
  match (s.half h).sheet with
  | none => s
  | some sh => if sh.floorOf unit < 2 then s.log h { code := 0x0510, unit := unit, detail := unit } else s

/-- DERATE (R392, R393): three derate-counted events of a unit of 0 to 7 in one band; also in a half fenced by the third of
them (R399). -/
def execDerate (t : Nat) (h : Half) (unit band : Nat) (s : State) : Host.Outcome State Fault Refusal :=
  .next (onHalf (s.advance t) h (fun s =>
    if 7 < unit ∨ 7 < band ∨ (s.half h).derateCount unit band < 3 ∨ flag (s.half h).isl.derate (8 * unit + band) = true then s
    else
      ((s.modIsl h (fun i => Isl.keepDerate { i with derate := setBit i.derate (8 * unit + band) true })).log h
        { code := 0x050F, unit := unit, detail := 8 * unit + band }).derateBelowFloor h unit))

end Sys2Proof.Machine
end

