-- ==== Sys2Proof/Machine/Registers.lean ====
section
/-! DEFINITION. The register windows (R11): reads of every register as its chapter lays it out (R199, R286, R316, R349,
R428), and REGISTER_WRITE. -/

namespace Sys2Proof.Machine

open Sys2Proof

/-- Two 32-bit registers that share an aligned 64-bit word. -/
def pairWord (lo hi : Nat) : Nat := lo % 2 ^ 32 + hi % 2 ^ 32 * 2 ^ 32

/-! ### Dolly (R171, R181, R199 to R201) -/

/-- GROUP_CTL (R200). -/
def Group.word (g : Group) : Nat := bitOf g.enabled * 2 ^ 31 + g.active % 512 * 2 ^ 16 + g.part % 8
/-- BANK_CTL (R181). -/
def Bank.ctlWord (b : Bank) : Nat :=
  bitOf b.owned * 2 ^ 31 + bitOf b.hostWr * 2 ^ 30 + bitOf b.scrubbing * 2 ^ 28 + b.ownerPart % 8 * 2 ^ 5 + b.ownerRole % 32
/-- BANK_STAT (R201). -/
def Bank.statWord (b : Bank) : Nat :=
  b.ceCount % 65536 * 2 ^ 48 + b.ueCount % 256 * 2 ^ 40 + b.sparesUsed % 32 * 2 ^ 35 + bitOf b.retired * 2 ^ 34 +
    b.syndrome % 128

/-- Dolly's block at an aligned offset; REG_CTR reads 0 on FBZ1200-AN (R172). -/
def Dolly.word (two : Bool) (d : Dolly) (o : Nat) : Nat :=
  let ctl := fun (b : Nat) => (tget ({} : Bank) d.banks b).ctlWord
  if o = 0 then bitOf d.applyPending * 2
  else if 0x100 ≤ o ∧ o < 0x140 then (d.regHbm.getD ((o - 0x100) / 8) 0).toNat
  else if 0x200 ≤ o ∧ o < 0x240 then (if two then (d.regCtr.getD ((o - 0x200) / 8) 0).toNat else 0)
  else if 0x400 ≤ o ∧ o < 0x580 then
    pairWord (d.group ((o - 0x400) / 4)).word (d.group ((o - 0x400) / 4 + 1)).word
  else if 0x1000 ≤ o ∧ o < 0x1400 then pairWord (ctl ((o - 0x1000) / 4)) (ctl ((o - 0x1000) / 4 + 1))
  else if 0x2000 ≤ o ∧ o < 0x2800 then (tget ({} : Bank) d.banks ((o - 0x2000) / 8)).statWord
  else if 0x100000 ≤ o ∧ o < 0x100000 + 32 * 24576 then
    let t := tget ({} : Thread) d.threads ((o - 0x100000) / 32)
    let w := (o - 0x100000) / 8 % 4
    if !t.busy then 0
    else (if w = 0 then t.desc0 else if w = 1 then t.desc1 else if w = 2 then t.desc2 else t.desc3).toNat
  else 0

/-! ### Horizon (R263, R266, R280, R286) -/

/-- LOCK_STATE's code (R263). -/
def lockCode : LockState → Nat
  | .freeRun => 0
  | .acquiring => 1
  | .locked => 2
  | .holdover => 3

/-- LINE_CTL's writable fields (R263). -/
def LineCfg.word (c : LineCfg) : Nat :=
  bitOf c.locked * 2 ^ 62 + c.master % 32 * 2 ^ 57 + c.altMaster % 32 * 2 ^ 52 + bitOf c.altEn * 2 ^ 51 +
    c.frameLines % 4096 * 2 ^ 37 + c.lineNs % 2 ^ 17 * 2 ^ 20 + c.lockTol % 4096 * 2 ^ 8

/-- LINE_CTL as written (R263). -/
def lineCfgOf (w : Nat) : LineCfg :=
  { locked := flag w 62, reservedMode := flag w 63, master := field w 61 57, altMaster := field w 56 52, altEn := flag w 51
    frameLines := field w 48 37, lineNs := field w 36 20, lockTol := field w 19 8 }

/-- FSYNC_CTL (R266). -/
def Fsync.word (f : Fsync) : Nat :=
  bitOf f.enable * 2 ^ 31 + bitOf f.activeLow * 2 ^ 30 + bitOf f.sense * 2 ^ 29 + f.widthM1 % 16 * 2 ^ 24 + f.offset % 4096

/-- PORT_CTL (R286). -/
def Port.word (p : Port) : Nat :=
  p.ctl.toNat / 2 ^ 48 * 2 ^ 48 + p.corrected % 65536 * 2 ^ 16 + p.discarded % 65536

/-- STREAM_STAT (R286). -/
def Stream.statWord (k : Stream) : Nat :=
  k.discarded % 65536 * 2 ^ 48 + k.marked % 65536 * 2 ^ 32 + k.landed % 65536 * 2 ^ 16 + k.lastMark % 65536

/-- An address register with its low 6 bits and its bits above 39 reserved. -/
def lineAddr (w : Nat) : Nat := field w 39 6 * 64

/-- One configuration word of a stream context by its offset within the context (R286). -/
def StreamCfg.word (c : StreamCfg) (o : Nat) : Nat :=
  if o = 0x00 then c.ctl.toNat
  else if o = 0x08 then c.geom0.toNat
  else if o = 0x10 then c.geom1.toNat
  else if o = 0x18 then lineAddr c.landDesc
  else if o = 0x20 then lineAddr c.leaderPtr
  else if o = 0x28 then c.leaderLine % 4096
  else if o = 0x30 then lineAddr c.resultDesc
  else if o = 0x38 then c.res.toNat
  else if 0x40 ≤ o ∧ o < 0x60 then (c.norm.getD ((o - 0x40) / 8) 0).toNat
  else if 0x80 ≤ o ∧ o < 0xC0 then pairWord (c.leaderCrc.getD ((o - 0x80) / 4) 0) (c.leaderCrc.getD ((o - 0x80) / 4 + 1) 0)
  else 0

/-- A stream context's configuration with one register written; reserved bits ignore writes (R12, R258, R259, R279,
R286). LEADER_CRC registers are 32 bits wide. -/
def StreamCfg.put (o v : Nat) (c : StreamCfg) : StreamCfg :=
  if o = 0x00 then { c with ctl := BitVec.ofNat 64 v }
  else if o = 0x08 then { c with geom0 := BitVec.ofNat 64 (v / 2 ^ 25 * 2 ^ 25) }
  else if o = 0x10 then { c with geom1 := BitVec.ofNat 64 (v / 2 ^ 28 * 2 ^ 28) }
  else if o = 0x18 then { c with landDesc := lineAddr v }
  else if o = 0x20 then { c with leaderPtr := lineAddr v }
  else if o = 0x28 then { c with leaderLine := v % 4096 }
  else if o = 0x30 then { c with resultDesc := lineAddr v }
  else if o = 0x38 then { c with res := BitVec.ofNat 64 (v / 2 ^ 9 * 2 ^ 9) }
  else if 0x40 ≤ o ∧ o < 0x60 then { c with norm := lset c.norm ((o - 0x40) / 8) (BitVec.ofNat 64 v) }
  else if 0x80 ≤ o ∧ o < 0xC0 then { c with leaderCrc := lset c.leaderCrc ((o - 0x80) / 4) (v % 2 ^ 32) }
  else c

/-- RING_CTL (R280). -/
def Ring.ctlWord (r : Ring) : Nat :=
  bitOf r.enable * 2 ^ 31 + r.slotsLog2 % 32 * 2 ^ 26 + r.slotLog2 % 32 * 2 ^ 21 + r.msix % 32 * 2 ^ 16

/-- Horizon's block at an aligned offset. `time` is SHEET_TIME. -/
def Hzn.word (time : Nat) (z : Hzn) (o : Nat) : Nat :=
  let fs := fun (n : Nat) => (tget ({} : Fsync) z.fsync n).word
  if o = 0x00 then bitOf z.err * 4 + bitOf z.waiting * 2
  else if o = 0x08 then z.line.word + lockCode z.lockState * 2 ^ 49 + bitOf z.onAlt * 2 ^ 7
  else if o = 0x10 then time
  else if o = 0x18 then pairWord (unsignedOf 32 z.delta) (unsignedOf 32 z.lastE)
  else if o = 0x20 then pairWord (fs 0) (fs 1)
  else if o = 0x28 then pairWord (fs 2) (fs 3)
  else if 0x40 ≤ o ∧ o < 0x70 then (tget ({} : Port) z.ports ((o - 0x40) / 8)).word
  else if 0x100 ≤ o ∧ o < 0x100 + 0x100 * 24 then
    let k := tget ({} : Stream) z.streams ((o - 0x100) / 0x100)
    let w := o % 0x100
    if w = 0x60 then k.statWord else k.cfg.word w
  else if 0x2000 ≤ o ∧ o < 0x2100 then
    let r := tget ({} : Ring) z.rings ((o - 0x2000) / 0x40)
    let w := o % 0x40
    if w = 0 then r.base else if w = 8 then r.cb else if w = 0x10 then r.ctlWord else 0
  else 0

/-! ### HBM, Contrail and protection (R301, R316) -/

/-- HBM_PORT_CTL in effect (R316). -/
def Hbm.portWord (m : Hbm) : Nat := m.hznPrio % 4 * 64 + m.dirPrio % 4 * 16 + m.pciePrio % 4 * 4
/-- HBM_STAT (R316). -/
def Hbm.statWord (m : Hbm) : Nat :=
  m.stackTemp % 256 * 2 ^ 56 + m.train % 4 * 2 ^ 54 + bitOf m.refresh2x * 2 ^ 53 + bitOf m.retrainDue * 2 ^ 52 +
    bitOf m.retrainLate * 2 ^ 51 + m.lanesRepaired % 64 * 2 ^ 45 + m.passes % 2 ^ 32
/-- HBM_PC_ERR (R316). -/
def HbmErr.word (e : HbmErr) : Nat := e.ce % 65536 * 2 ^ 48 + e.ue % 256 * 2 ^ 40 + e.parity % 256 * 2 ^ 32

/-- The HBM block at an aligned offset. -/
def Hbm.word (m : Hbm) (o : Nat) : Nat :=
  if o = 0 then bitOf m.applyPending * 2
  else if o = 8 then m.portWord
  else if o = 0x10 then m.statWord
  else if 0x100 ≤ o ∧ o < 0x200 then (tget ({} : HbmErr) m.pcErr ((o - 0x100) / 8)).word
  else if 0x400 ≤ o ∧ o < 0xC00 then leAt (tget [] m.log ((o - 0x400) / 32)) (o % 32) 8
  else if o = 0xC00 then m.logHead % 64
  else 0

/-- CTR_STAT (R316): LINK_STATE reads 0b11 on FBZ1200-AN (R311). -/
def Link.statWord (two : Bool) (l : Link) : Nat :=
  (if two then l.state % 4 else 3) * 2 ^ 62 + l.sparesUsed % 32 * 2 ^ 56 + l.replays % 65536 * 2 ^ 32 +
    l.corrected % 65536 * 2 ^ 16

/-- The Contrail block at an aligned offset; every CTR_SHARE reads 0 on FBZ1200-AN (R311). -/
def Link.word (two : Bool) (l : Link) (o : Nat) : Nat :=
  if o = 0 then bitOf l.err * 4 + bitOf l.applyPending * 2
  else if o = 0x10 then l.statWord two
  else if 0x100 ≤ o ∧ o < 0x120 then
    if two then pairWord (l.share.getD ((o - 0x100) / 4) 0 % 1024) (l.share.getD ((o - 0x100) / 4 + 1) 0 % 1024) else 0
  else 0

/-- The bits of REGION_ATTR that are no reserved bits (R316). -/
def attrBits (v : Nat) : Nat := field v 63 57 * 2 ^ 57 + field v 47 40 * 2 ^ 40

/-- One register of a region descriptor: BASE, LIMIT or ATTR (R316). -/
def RegionDesc.word (d : RegionDesc) (o : Nat) : Nat :=
  if o = 0 then d.base % 2 ^ 28 * 4096 else if o = 8 then d.limit % 2 ^ 28 * 4096
  else if o = 16 then attrBits d.attr.toNat else 0

/-- A region descriptor with one register written. -/
def RegionDesc.put (o v : Nat) (d : RegionDesc) : RegionDesc :=
  if o = 0 then { d with base := field v 39 12 }
  else if o = 8 then { d with limit := field v 39 12 }
  else if o = 16 then { d with attr := BitVec.ofNat 64 (attrBits v) }
  else d

/-- PROT_CTL (R316). -/
def Prot.ctlWord (p : Prot) : Nat :=
  bitOf p.lock * 2 ^ 31 + bitOf p.enforce * 2 ^ 30 + bitOf p.err * 4 + bitOf p.pending * 2

/-- The protection block at an aligned offset. -/
def Prot.word (p : Prot) (o : Nat) : Nat :=
  if o = 0 then p.ctlWord
  else if 0x100 ≤ o ∧ o < 0x900 then (tget ({} : RegionDesc) p.regions ((o - 0x100) / 32)).word (o % 32)
  else 0

/-! ### Dispatch (R349) -/

/-- JOB_STAT.STATE's code (R349). -/
def statusCode : JobStatus → Nat
  | .idle => 0
  | .released => 1
  | .running => 2
  | .parked => 3
  | .faulted => 4
  | .teardown => 5

/-- JOB_STAT (R349). -/
def Job.statWord (j : Job) : Nat :=
  statusCode j.status * 2 ^ 61 + j.kills % 256 * 2 ^ 53 + j.fault % 65536 * 2 ^ 37 + j.queueIndex % 65536 * 2 ^ 21

/-- CUE_STATE (R349); an unlisted cue reads 0 (R327). -/
def Cue.word (c : Cue) : Nat :=
  bitOf c.armed * 2 ^ 63 + c.ceiling % 16 * 2 ^ 56 + c.users % 256 * 2 ^ 48 + min 0xFFFF c.waiters.length * 2 ^ 32 +
    (if c.armed then c.counter % 2 ^ 32 else 0)

/-- SHEET_ID of the running sheet; 0 with none (R349). -/
def HalfState.sheetId (x : HalfState) : Nat :=
  match x.sheet with
  | some sh => sh.sheetId
  | none => 0

/-- SHEET_STAT (R349). -/
def HalfState.sheetStat (x : HalfState) : Nat :=
  x.disp.sheetState % 4 * 2 ^ 62 + bitOf x.disp.standby * 2 ^ 61 + x.disp.armError % 65536 * 2 ^ 32 + x.sheetId % 2 ^ 32

/-- The dispatch block at an aligned offset. -/
def HalfState.dispWord (x : HalfState) (o : Nat) : Nat :=
  if o = 0 then x.sheetStat
  else if 0x1000 ≤ o ∧ o < 0x2000 then
    let j := tget ({} : Job) x.disp.jobs ((o - 0x1000) / 16)
    if o % 16 = 0 then j.statWord else j.compl % 2 ^ 64
  else if 0x100000 ≤ o ∧ o < 0x100000 + 8 * 16384 then (tget ({} : Cue) x.disp.cues ((o - 0x100000) / 8)).word
  else 0

/-! ### Zenith (R428) -/

/-- POWER_STATE's code (R400). -/
def powerCode : PowerState → Nat
  | .off => 0
  | .boot => 1
  | .run => 2
  | .degraded => 3
  | .testing => 4
  | .testDone => 5

/-- ZEN_UNIT (R428): units 8 and 9 read 0. -/
def Zen.unitWord (z : Zen) (u : Nat) : Nat :=
  let x := tget ({} : Unit) z.units u
  if u = 8 ∨ u = 9 then 0
  else
    x.steps % 16 * 2 ^ 60 + x.react % 16 * 2 ^ 56 + x.forecast % 16 * 2 ^ 52 + x.derateSteps % 16 * 2 ^ 48 +
      unsignedOf 16 x.temp16 * 2 ^ 32

/-- ZEN_RAIL (R428). -/
def Rail.word (r : Rail) : Nat := r.setpoint % 4096 * 2 ^ 52 + r.measured % 4096 * 2 ^ 40 + r.guard % 256 * 2 ^ 32

/-- Zenith's block at an aligned offset. -/
def Zen.word (z : Zen) (o : Nat) : Nat :=
  let sensor := fun (i : Nat) => unsignedOf 16 (tget 0 z.sensors i)
  if o = 0 then powerCode z.power * 2 ^ 61 + z.vinMv % 2 ^ 13 * 2 ^ 48 + z.power16 % 65536 * 2 ^ 32
  else if 0x10 ≤ o ∧ o < 0x70 then z.unitWord ((o - 0x10) / 8)
  else if 0x100 ≤ o ∧ o < 0x190 then
    let i := (o - 0x100) / 2
    sensor i + sensor (i + 1) * 2 ^ 16 + sensor (i + 2) * 2 ^ 32 + sensor (i + 3) * 2 ^ 48
  else if 0x200 ≤ o ∧ o < 0x228 then (z.rails.getD ((o - 0x200) / 8) {}).word
  else if 0x300 ≤ o ∧ o < 0x400 then pairWord (z.row ((o - 0x300) / 4)) (z.row ((o - 0x300) / 4 + 1))
  else 0

/-! ### The window -/

/-- The aligned 64-bit word of a half's register window at an offset; an offset that holds no register reads 0 (R12). -/
def State.regWord (s : State) (h : Half) (o : Nat) : Nat :=
  let x := s.half h
  let two := s.twoHalves
  if 0x100000 ≤ o ∧ o < 0x300000 then x.dolly.word two (o - 0x100000)
  else if 0x400000 ≤ o ∧ o < 0x403000 then x.hzn.word (s.sheetTime h) (o - 0x400000)
  else if 0x600000 ≤ o ∧ o < 0x601000 then x.hbm.word (o - 0x600000)
  else if 0x700000 ≤ o ∧ o < 0x701000 then x.link.word two (o - 0x700000)
  else if 0x800000 ≤ o ∧ o < 0x801000 then x.prot.word (o - 0x800000)
  else if 0x900000 ≤ o ∧ o < 0xB00000 then x.dispWord (o - 0x900000)
  else if 0xC00000 ≤ o ∧ o < 0xC01000 then x.zen.word (o - 0xC00000)
  else 0

/-- `n` bytes of a half's register window (R10). -/
def State.regBytes (s : State) (h : Half) (o n : Nat) : List Byte :=
  (List.range n).map (fun i =>
    BitVec.ofNat 8 (s.regWord h ((o + i) / 8 * 8) / 2 ^ (8 * ((o + i) % 8)) % 256))

/-! ### Writes (R12, R13) -/

/-- A refused write is logged (R13). -/
def State.refuseWrite (s : State) (h : Half) (unit o : Nat) : State :=
  s.logUnlisted h .writeRefused { code := 0, unit := unit, detail := o }

/-- RING_CTL as written. Setting ENABLE starts the ring's counters again, as software zeroes its control block (R280).
DESIGN CHOICE (log entry 52): a write that clears ENABLE on an enabled ring takes SLOTS_LOG2, SLOT_LOG2 and MSIX with it. -/
def Ring.control (v : Nat) (r : Ring) : Ring :=
  let q := { r with
    enable := flag v 31, slotsLog2 := field v 30 26, slotLog2 := field v 25 21, msix := field v 20 16 }
  if flag v 31 && !r.enable then
    { q with
      producer := 0, nextSeq := 0, lastFrame := 0, consumer := 0, consumerReadAt := none, dropped := 0, gapDue := false }
  else q

/-- A ring register is written (R13, R280): an enabled ring refuses every write but one that clears ENABLE (R453). -/
def State.ringWrite (s : State) (h : Half) (r w v : Nat) : State :=
  if (s.ring h r).enable && !(w == 0x10 && !(flag v 31)) then s.refuseWrite h 7 (0x402000 + 0x40 * r + w)
  else if w = 0 then s.modRing h r (fun g => { g with base := v % 2 ^ 64 })
  else if w = 8 then s.modRing h r (fun g => { g with cb := v % 2 ^ 64 })
  else if w = 0x10 then s.modRing h r (Ring.control v)
  else s

/-- A write into Horizon's block from the secure world. -/
def State.hznWrite (s : State) (h : Half) (o v : Nat) : State :=
  if o = 0 then (if flag v 0 then s.hznApply h .secure else s)
  else if o = 8 then s.modHzn h (fun z => { z with lineWritten := some (lineCfgOf v) })
  else if 0x20 ≤ o ∧ o < 0x30 ∧ o % 4 = 0 then
    s.modHzn h (fun z => { z with fsyncWritten := tput z.fsyncWritten ((o - 0x20) / 4) (BitVec.ofNat 32 v) })
  else if 0x40 ≤ o ∧ o < 0x70 ∧ o % 8 = 0 then
    s.modPort h ((o - 0x40) / 8) (fun p => { p with written := some (BitVec.ofNat 64 (v / 2 ^ 48 * 2 ^ 48)) })
  else if 0x100 ≤ o ∧ o < 0x100 + 0x100 * 24 then
    let w := o % 0x100
    if w % 8 = 0 ∧ w < 0x60 ∨ (0x80 ≤ w ∧ w < 0xC0 ∧ w % 4 = 0) then
      s.modStream h ((o - 0x100) / 0x100) (fun k => { k with written := some (k.next.put w v) })
    else s
  else if 0x2000 ≤ o ∧ o < 0x2100 then s.ringWrite h ((o - 0x2000) / 0x40) (o % 0x40) v
  else s

/-- A write into Dolly's block from the secure world. BANK_CTL acts as for firmware that works for no job. -/
def State.dollyWrite (s : State) (h : Half) (o v : Nat) : State :=
  if o = 0 then (if flag v 0 then s.dollyApply h .secure else s)
  else if 0x100 ≤ o ∧ o < 0x140 ∧ o % 8 = 0 then
    s.modDolly h (fun d => { d with stagedHbm := lset d.stagedHbm ((o - 0x100) / 8) (normReg (BitVec.ofNat 64 v)) })
  else if 0x200 ≤ o ∧ o < 0x240 ∧ o % 8 = 0 then
    if s.twoHalves then
      s.modDolly h (fun d => { d with stagedCtr := lset d.stagedCtr ((o - 0x200) / 8) (normCtr (BitVec.ofNat 64 v)) })
    else s
  else if 0x400 ≤ o ∧ o < 0x580 ∧ o % 4 = 0 then s.groupCtl h ((o - 0x400) / 4) v .secure
  else if 0x1000 ≤ o ∧ o < 0x1400 ∧ o % 4 = 0 then s.bankCtl h ((o - 0x1000) / 4) v .firmware
  else s

/-- A write into the Contrail block from the secure world. -/
def State.linkWrite (s : State) (h : Half) (o v : Nat) : State :=
  if o = 0 then (if flag v 0 then s.ctrApply h .secure else s)
  else if o = 8 then (if flag v 31 then s.ctrRetrain h .secure else s)
  else if 0x100 ≤ o ∧ o < 0x120 ∧ o % 4 = 0 ∧ s.twoHalves = true then
    s.modLink h (fun l => { l with stagedShare := lset l.stagedShare ((o - 0x100) / 4) (v % 1024) })
  else s

/-- A write into the protection block from the secure world; REGION registers refuse writes once LOCK is in effect
(R315). -/
def State.protWrite (s : State) (h : Half) (o v : Nat) : State :=
  if o = 0 then s.protCtl h v .secure
  else if 0x100 ≤ o ∧ o < 0x900 ∧ o % 8 = 0 then
    if (s.half h).prot.lock then s.refuseWrite h 0xFF (0x800000 + o)
    else s.modProt h (fun p => { p with staged := tmod {} p.staged ((o - 0x100) / 32) (RegionDesc.put (o % 32) v) })
  else s

/-- A write into the HBM block from the secure world. -/
def State.hbmRegWrite (s : State) (h : Half) (o v : Nat) : State :=
  if o = 0 then (if flag v 0 then s.hbmApply h .secure else s)
  else if o = 8 then s.modHbm h (fun m => { m with stagedPort := field v 7 2 * 4 })
  else s

/-- The unit of the block that an offset lies in, for the log (R361). -/
def unitOfOffset (o : Nat) : Nat :=
  if o < 0x400000 then 1 else if o < 0x600000 then 7 else if o < 0x700000 then 10 else if o < 0x800000 then 11
  else if o < 0x900000 then 0xFF else if o < 0xC00000 then 6 else 13

/-- A register is written from the secure world; read-only registers, and offsets that hold no register, ignore it (R12,
R349, R428). -/
def State.regWrite (s : State) (h : Half) (o v : Nat) : State :=
  if 0x100000 ≤ o ∧ o < 0x300000 then s.dollyWrite h (o - 0x100000) v
  else if 0x400000 ≤ o ∧ o < 0x403000 then s.hznWrite h (o - 0x400000) v
  else if 0x600000 ≤ o ∧ o < 0x601000 then s.hbmRegWrite h (o - 0x600000) v
  else if 0x700000 ≤ o ∧ o < 0x701000 then s.linkWrite h (o - 0x700000) v
  else if 0x800000 ≤ o ∧ o < 0x801000 then s.protWrite h (o - 0x800000) v
  else s

/-- REGISTER_WRITE (R472): register blocks accept writes from the secure world only. -/
def execRegisterWrite (t : Nat) (h : Half) (offset : Nat) (value : BitVec 64) (w : World) (s : State) :
    Host.Outcome State Fault Refusal :=
  .next (onLive (s.advance t) h (fun s => s.secureOnly h (unitOfOffset offset) w (fun s => s.regWrite h offset value.toNat)))

end Sys2Proof.Machine
end

