-- ==== Sys2Proof/Machine/Boot.lean ====
section
/-! DEFINITION. Power-up and the boot chain (R400 to R402, R467, R473 to R481, R508): supplies, fuses, verified images and
what each stage brings. -/

namespace Sys2Proof.Machine

open Sys2Proof

/-! ### Images (R476, R477) -/

/-- The part's bit of PARTS (R477). -/
def partBit : Part → Nat
  | .fbz2400AT => 0
  | .fbz2400AN => 1
  | .fbz1200AN => 2

/-- Fields of an image header (R477). -/
def imgType (i : List Byte) : Nat := leAt i 6 1
def imgSigner (i : List Byte) : Nat := leAt i 7 1
def imgVersion (i : List Byte) : Nat := leAt i 8 4
def imgRollback (i : List Byte) : Nat := leAt i 0xC 1
def imgBodyLen (i : List Byte) : Nat := leAt i 0x18 4
def imgDigest (i : List Byte) : List Byte := (i.drop 0x20).take 64
def imgKey (i : List Byte) : List Byte := (i.drop 0x60).take 32
def imgSignature (i : List Byte) : List Byte := (i.drop 0x80).take 64
def imgBody (i : List Byte) : List Byte := (i.drop 0xC0).take (imgBodyLen i)
/-- Major, minor and patch of a VERSION, as one rising number (R477). -/
def imgOrder (i : List Byte) : Nat := imgRollback i * 2 ^ 32 + imgVersion i

/-- The header fits its type and the part (R476 to R479). -/
def headerOk (p : Part) (t : Nat) (i : List Byte) : Bool :=
  leAt i 0 4 == 0x4D495A42 && leAt i 4 2 == 1 && imgType i == t && imgBodyLen i % 64 == 0 && decide (64 ≤ imgBodyLen i) &&
    decide (imgBodyLen i ≤ 2 ^ 23) && flag (leAt i 0xD 1) (partBit p) && decide (imgRollback i ≤ 64) &&
    (t != 1 || decide (imgBodyLen i ≤ 2 ^ 18)) && (t != 5 || decide (imgBodyLen i ≤ 2 ^ 16))

/-- The signer R476 permits for a type. -/
def signerOk (t signer : Nat) : Bool := if t ≤ 5 then signer == 0 else if t ≤ 7 then signer == 1 || signer == 2 else signer == 3

/-- The fused hash of a signer as the half sensed it at its boot; none where the slot is blank or revoked (R478, R482). -/
def Boot.keyHash (b : Boot) (signer : Nat) : Option (List Byte) :=
  if signer = 0 then some b.vendorHash
  else
    match b.keysAtBoot.getD (signer - 1) ([], false, false) with
    | (hash, true, false) => some hash
    | _ => none

/-- The first check of R478 that an image fails: 0 none, 1 header, 2 signer, 3 key, 4 signature, 5 rollback, 6 body. -/
def imageCheck (p : Part) (key : Nat → Option (List Byte)) (counter t : Nat) (i : List Byte) : Nat :=
  if !(headerOk p t i) then 1
  else if !(signerOk t (imgSigner i)) then 2
  else if key (imgSigner i) ≠ some (sha512 (imgKey i)) then 3
  else if !(edVerify (imgKey i) (sha512 (i.take 0x80)) (imgSignature i)) then 4
  else if imgRollback i < counter then 5
  else if (imgBody i).length ≠ imgBodyLen i ∨ sha512 (imgBody i) ≠ imgDigest i then 6
  else 0

/-- The check of an image of type `t` by a half. -/
def State.verify (s : State) (h : Half) (t : Nat) (i : List Byte) : Nat :=
  let b := (s.half h).boot
  imageCheck s.part b.keyHash (b.rollback.getD (t - 1) 0) t i

/-! ### The flash (R475) -/

/-- Bytes of one copy region; the repair record (R389) lies between the two, and the flash holds 32 MiB in all. -/
def copyBytes : Nat := 0xF00000

/-- OFFSET of the first directory entry of a type (log entry 152). -/
def FlashCopy.offset (f : FlashCopy) (t : Nat) : Option Nat := (f.dir.find? (fun e => e.1 == t)).map (·.2)

/-- The image at an offset: 64-byte aligned, behind the directory, and cut off by the region's end; where a damaged directory
names another offset, there is none, which fails its verification. -/
def FlashCopy.imageAt (f : FlashCopy) (o : Nat) : List Byte :=
  if o % 64 = 0 ∧ 128 ≤ o then (tget [] f.images o).take (copyBytes - o) else []

/-- Copy 0 or 1 of a half's flash. -/
def Boot.region (b : Boot) (c : Nat) : FlashCopy := if c = 0 then b.flashA else b.flashB

/-- Copy 0 or 1 of a type in a half's flash; [] where its directory names none. -/
def Boot.copy (b : Boot) (t c : Nat) : List Byte :=
  match (b.region c).offset t with
  | some o => (b.region c).imageAt o
  | none => []

/-- An image of `n` bytes of a type at an offset lies within the region and touches no image of another type. -/
def FlashCopy.fits (f : FlashCopy) (t n o : Nat) : Bool :=
  o % 64 == 0 && decide (128 ≤ o) && decide (o + n ≤ copyBytes) && f.dir.all (fun e =>
    e.1 == 0 || e.1 == t || decide (e.2 + (f.imageAt e.2).length ≤ o) || decide (o + n ≤ e.2))

/-- Where an image of a type goes (log entry 152): to its type's former offset, behind the directory, or behind another image,
the first of these where it fits. -/
def FlashCopy.place (f : FlashCopy) (t n : Nat) : Option Nat :=
  ((f.offset t).toList ++ 128 :: f.dir.map (fun e => (e.2 + (f.imageAt e.2).length + 63) / 64 * 64)).find? (f.fits t n)

/-- The directory names an image of a type at an offset: in the type's entry, else in the first unused one. -/
def dirPut (t o : Nat) (l : List (Nat × Nat)) : List (Nat × Nat) :=
  let old := if l.any (fun e => e.1 == t) then t else 0
  match l.findIdx? (fun e => e.1 == old) with
  | some i => l.set i (t, o)
  | none => l

/-- An image is written at an offset. -/
def FlashCopy.put (t o : Nat) (i : List Byte) (f : FlashCopy) : FlashCopy :=
  { dir := dirPut t o f.dir, images := tput f.images o i }

/-! ### Verification (R478) -/

/-- The order in which the copies are tried (R478): by rollback, then version, higher first; copy A on equality. -/
def Boot.order (b : Boot) (t : Nat) : List Nat := if imgOrder (b.copy t 0) < imgOrder (b.copy t 1) then [1, 0] else [0, 1]

/-- BOOT_STATUS with a type's two bits set, and the cause of the first failure (R499). -/
def setStatus (old t v cause : Nat) : Nat :=
  let cleared := old - field old (2 * t - 1) (2 * t - 2) * 2 ^ (2 * t - 2)
  cleared + v * 2 ^ (2 * t - 2) + (if v = 3 ∧ field old 31 24 = 0 then cause % 256 * 2 ^ 24 else 0)

/-- A verified copy's measurement (R485). -/
def measureOf (c : Nat) (i : List Byte) : Measure :=
  { type := imgType i, copy := c, signer := imgSigner i, version := imgVersion i, rollback := imgRollback i, digest := imgDigest i }

/-- Try the copies in order; `alsoOk` is a further check of the body (R479). Each rollback rejection is logged. -/
def State.tryCopies (s : State) (h : Half) (t : Nat) (alsoOk : List Byte → Bool) : List Nat → State × Option Nat × Nat
  | [] => (s, none, 0)
  | c :: r =>
    let i := (s.half h).boot.copy t c
    let e := s.verify h t i
    let s1 := if e = 5 then s.log h { code := 0x0903, unit := 13, detail := t } else s
    if e = 0 ∧ alsoOk (imgBody i) = true then (s1, some c, 0)
    else
      let x := State.tryCopies s1 h t alsoOk r
      (x.1, x.2.1, if e = 0 then 7 else e)

/-- An image of a type is loaded (R478): the half's BOOT_STATUS, measurements and events; and the body loaded. A BOOT_CFG
that neither copy's directory names is not loaded and no failure (R473). -/
def State.load (s : State) (h : Half) (t : Nat) (alsoOk : List Byte → Bool) : State × Option (List Byte) :=
  let b := (s.half h).boot
  if t = 7 ∧ (b.region 0).offset 7 = none ∧ (b.region 1).offset 7 = none then (s, none)
  else
    let x := s.tryCopies h t alsoOk (b.order t)
    match x.2.1 with
    | some c =>
      let i := b.copy t c
      let s1 := x.1.modBoot h (fun b =>
        { b with
          status := setStatus b.status t (c + 1) 0
          measures := (b.measures.filter (fun m => m.type != t)) ++ [measureOf c i] })
      (if b.order t = [c, 1 - c] then s1 else s1.log h { code := 0x0902, unit := 13, detail := t }, some (imgBody i))
    | none =>
      ((x.1.modBoot h (fun b =>
          { b with
            status := setStatus b.status t 3 (Config.bootCause t x.2.2), measures := b.measures.filter (fun m => m.type != t) })).log h
        { code := 0x0901, unit := 13, detail := t }, none)

/-! ### Power (R400, R402, R433, R508) -/

/-- A half at the start of Boot (R400): what fuses, flash and repair record hold survives; every entry has its default
(R433), and no other state survives (R402). -/
def HalfState.coldStart (h : Half) (now : Nat) (x : HalfState) : HalfState :=
  let fresh : HalfState := if h = .b then HalfState.resetB else {}
  let r := x.isl.repair
  let due := r.pendingSlabs
  { fresh with
    dolly := { fresh.dolly with
      refilledAt := now
      banks := x.dolly.banks.map (fun b =>
        (b.1, { sparesUsed := b.2.sparesUsed, factory := b.2.factory, retired := b.2.retired })) }
    hzn := { fresh.hzn with lineStart := now }
    isl := { fresh.isl with
      slabs := due.foldl (fun l k => tput l k { (tget (slabReset k) l k) with score := 128 })
        (r.slabs.map (fun p => (p.1, { p.2 with lastEvent := now })))
      retireDue := due.map (fun k => (k, fresh.hzn.sheetFrame))
      derate := r.derate, derateEvents := r.derateEvents, repair := { r with pendingSlabs := [] } }
    zen := { fresh.zen with
      fuseRows := x.zen.fuseRows, powerEvents := x.zen.powerEvents, age := r.age, ageTemp := r.ageTemp, poweredHours := r.poweredHours
      hourAt := now, startedAt := now
      units := (throttleUnits.filter (fun u => wornOut (r.age.getD u 0))).foldl (fun l u =>
        tput l u { ageStep := 1, steps := 1 }) fresh.zen.units
      lastBist := r.lastBist
      rails := fresh.zen.rails.mapIdx (fun i q =>
        { q with guard := r.guards.getD i 0, setpoint := q.setpoint + r.guards.getD i 0 / 2
                 measured := q.setpoint + r.guards.getD i 0 / 2 }) }
    boot := { fresh.boot with
      flashA := x.boot.flashA, flashB := x.boot.flashB, vendorHash := x.boot.vendorHash, custHash := x.boot.custHash
      custProgrammed := x.boot.custProgrammed, custRevoked := x.boot.custRevoked, rollback := x.boot.rollback
      uds := x.boot.uds, cert := x.boot.cert, hbmCode := x.boot.hbmCode, powerOnAt := now } }

/-- The half's HBM and bank pool lose their contents. -/
def State.loseMemory (s : State) (h : Half) : State :=
  s.markUndefs [{ base := hbmBase h, len := hbmBytes }, { base := poolBase h, len := poolBytes }]

/-- PKG_POWER_LIMIT's default (R429). -/
def defaultLimit : Part → Nat
  | .fbz1200AN => 195
  | _ => 380

/-- A half enters Boot from Off or by a restart from Shutdown-test. What the two halves share starts with Half A. The units
that the last BIST found failing are reported (R424). -/
def State.enterBoot (s : State) (h : Half) : State :=
  let s0 := (s.loseMemory h).modHalf h (HalfState.coldStart h s.now)
  let s1 := (s.half h).isl.repair.failedUnits.foldl (fun t u => t.logBistFail h u) s0
  if h = .a then
    { s1 with sdio := {}, sdioWorld := false, canAWorld := false, canBWorld := false, pkgLimit := defaultLimit s.part }
  else s1

/-- POWER_ON (R400): VIN_CORE exceeds 1.71 V and an unsupplied half enters Boot. -/
def execPowerOn (t : Nat) (h : Half) (s : State) : Host.Outcome State Fault Refusal :=
  let s := s.advance t
  .next (if s.hasHalf h && !(s.half h).powered then s.enterBoot h else s)

/-- The fuse row that a removal of the supply interrupts (R425, R430): where the free word `w` fails its parity, the first free
row holds it, else none was being programmed (log entry 149). -/
def Zen.cutRow (w : BitVec 32) (z : Zen) : Zen :=
  match (List.range 64).find? (fun i => rowFree (z.row i)) with
  | some i => if rowParityOk w.toNat then z else { z with fuseRows := tput z.fuseRows i w }
  | none => z

/-- The fuses that a removal of the supply finds half programmed (R501): programming takes a time that no rule gives (log entry
131). A slot then has some bits of its hash set and PROGRAMMED clear, and a counter the bits programmed so far. -/
def Boot.cutFuses (now seed : Nat) (b : Boot) : Boot :=
  let during := fun (start : Nat) => decide (now < start + Config.fuseTime)
  let b1 := match b.keyBurnt with
    | some (slot, start) =>
      let whole := b.custHash.getD slot []
      let part := whole.mapIdx (fun i x => x &&& Config.freeByte seed i)
      if during start then
        { b with
          custProgrammed := lset b.custProgrammed slot false
          custHash := lset b.custHash slot (if part.all (· == 0) then whole else part) }
      else b
    | none => b
  match b1.rollBurnt with
  | some (t, start, old) =>
    let new := b1.rollback.getD (t - 1) 0
    if during start then
      { b1 with rollback := lset b1.rollback (t - 1) (old + (Config.freeByte seed 64).toNat % (new - old + 1)) }
    else b1
  | none => b1

/-- A half without supply: only fuses, flash and the repair record are left, and what POWER_EVENTS and LAST_BIST will
read. -/
def HalfState.lose (h : Half) (now : Nat) (x : HalfState) : HalfState :=
  let last := if x.zen.bistRunning then 7 else x.isl.repair.lastBist
  let y := HalfState.coldStart h now { x with isl := { x.isl with repair := { x.isl.repair with lastBist := last } } }
  { y with
    isl := { y.isl with repair := { x.isl.repair with lastBist := last } }
    zen := { y.zen with power := .off, powerEvents := if x.zen.power = .testDone then 0 else 1 } }

/-- A supplied half loses its supply: a fuse row, a key slot or a counter may be half programmed (R430, R501). -/
def State.loseSupply (s : State) (h : Half) : State :=
  if s.supplied h then
    let s1 := if (s.half h).zen.bistRunning then { s with free := s.free + 1 }.modZen h (Zen.cutRow s.freeWord) else s
    let s2 := { s1 with free := s1.free + 1 }.modBoot h (Boot.cutFuses s.now s1.free)
    (s2.loseMemory h).modHalf h (HalfState.lose h s.now)
  else s

/-- BROWN_OUT (R402): VIN_CORE has been below 1.62 V for 2 µs; both halves are reset and off. A supply removed once
POWER_STATE reads 0x05 is no brown-out (R421). -/
def execBrownOut (t : Nat) (s : State) : Host.Outcome State Fault Refusal :=
  .next { (((s.advance t).loseSupply .a).loseSupply .b) with sdio := {} }

/-- The half senses its fuses (R180, R425, R482). -/
def HalfState.senseFuses (x : HalfState) : HalfState :=
  { x with
    dolly := { x.dolly with banks := (List.range 256).foldl (fun l b =>
        if (tget ({} : Bank) l b).sense x.zen b = tget ({} : Bank) l b then l else tmod {} l b (Bank.sense x.zen b)) x.dolly.banks }
    boot := { x.boot with
      fusesSensed := true, vioOk := true
      keysAtBoot := (List.range 2).map (fun i =>
        (x.boot.custHash.getD i [], x.boot.custProgrammed.getD i false, x.boot.custRevoked.getD i false)) } }

/-- FUSE_SENSE (R508): the mask ROM waits while a VIO rail is out of range; the power-up times run from the wait's end.
HBM training begins with it (DESIGN CHOICE, log entry 117). -/
def execFuseSense (t : Nat) (h : Half) (vioOk : Bool) (s : State) : Host.Outcome State Fault Refusal :=
  .next (onHalf (s.advance t) h (fun s =>
    if (s.half h).boot.fusesSensed then s
    else if vioOk then
      (s.modHbm h (fun m => { m with train := max 1 m.train })).modHalf h (fun x =>
        (HalfState.senseFuses { x with boot := { x.boot with
          powerOnAt := if x.boot.vioOk then x.boot.powerOnAt else s.now } }))
    else s.modBoot h (fun b => { b with vioOk := false })))

/-! ### The form of a slate body (R479) -/

/-- A fill entry: ADDR, LEN, SEED and FILL_CRC. -/
structure Fill where
  addr : Nat
  len : Nat
  seed : Nat
  crc : Nat
deriving DecidableEq, Repr

/-- The fill table of a slate body. -/
def slateFills (body : List Byte) : List Fill :=
  (List.range (leAt body 0 2)).map (fun i =>
    let o := 64 + 32 * i
    { addr := leAt body o 8, len := leAt body (o + 8) 8, seed := leAt body (o + 16) 8, crc := leAt body (o + 24) 4 })

/-- The body has 1 to 16 fill entries, whose table it holds, each 64-byte aligned with a length that is a multiple of 64 and at
most 64 MiB. -/
def slateForm (body : List Byte) : Bool :=
  decide (1 ≤ leAt body 0 2) && decide (leAt body 0 2 ≤ 16) && decide (64 + 32 * leAt body 0 2 ≤ body.length) &&
    (slateFills body).all (fun f => f.addr % 64 == 0 && f.len % 64 == 0 && decide (f.len ≤ 2 ^ 26))

/-! ### The boot chain (R467, R473, R474, R480, R481) -/

/-- A required image failed: the half stays in Boot, and its partner reports its HALF_STATE as 0x06; its CAN FD
answers every request with abort 0xA301 (R481). A link already trained goes down, so that the partner runs without the
two-half functions (R310). -/
def State.bootFails (s : State) (h : Half) : State :=
  let p := otherHalf h
  (if s.linkUp p then (s.loseLink p).dispatch p else s).modHalf h (fun x =>
    { x with
      boot := { x.boot with failed := true }, isl := { x.isl with halfState := 6 }, can := { x.can with onBus := true }
      link := { x.link with state := 0 } })

/-- Stage `n` of the chain is complete, and the dictionary and the SDIO port have reached at least these rows of R467.
BOOT_PHASE follows at power-up only: a restarting half reports 0x05 until it is service-ready (R451). -/
def HalfState.reach (stage dict sdio phase : Nat) (x : HalfState) : HalfState :=
  { x with
    boot := { x.boot with
      stage := stage, dictLevel := max x.boot.dictLevel dict, sdioLevel := max x.boot.sdioLevel sdio
      phase := if x.isl.halfState = 1 then max x.boot.phase phase else x.boot.phase }
    can := { x.can with onBus := true } }

/-- A half runs: it is supplied, its boot chain has not failed, and it is not down (R438). -/
def State.running (s : State) (h : Half) : Bool := s.supplied h && !(s.half h).down && !(s.half h).boot.failed

/-- BOOT_CFG is applied (R473): absent or failed, every field reads 0. The transport worlds are the device's: Half A's
image gives them, or Half B's as long as Half A does not serve the identity entries itself (R467). -/
def State.bootCfg (s : State) (h : Half) (body : List Byte) : State :=
  let f := leAt body 3 1
  let s1 := s.modBoot h (fun b =>
    { b with bootCfg := body.take 64, lockWorlds := flag f 0, lockRegions := flag f 1, nsFw := flag f 2 })
  if h = .a ∨ (s.running .a && decide (2 ≤ s.a.boot.dictLevel)) = false then
    { s1 with sdioWorld := leAt body 0 1 != 0, canAWorld := leAt body 1 1 != 0, canBWorld := leAt body 2 1 != 0 }
  else s1

/-- The boot region set (R474): only descriptors for secure firmware, and ENFORCE. -/
def Prot.bootSet (h : Half) (p : Prot) : Prot :=
  let ds := (Config.bootRegions (halfNum h)).take 64
  let t : Table RegionDesc := (List.range ds.length).foldl (fun l i =>
    let d := ds.getD i (0, 0, 0)
    tput l i { base := d.1, limit := d.2.1, attr := BitVec.ofNat 64 (2 ^ 63 + d.2.2 % 8 * 2 ^ 60 + 2 ^ 57) }) []
  { p with regions := t, staged := t, enforce := true, stagedEnforce := true }

/-- DIR_S runs: a restarted half's snapshot is restored (R379). A half without a good one, which has its first boot, was
fenced before DIR_S ran, or found its snapshot's CRC bad, gets the boot region set (R474). Against LOCK in effect neither
writes the protection block (R315). -/
def HalfState.directorRuns (h : Half) (now : Nat) (x : HalfState) : HalfState :=
  let again := decide (x.isl.halfState = 4) || (decide (x.isl.halfState = 5) && !x.isl.unconfigured)
  let y := if again then x.restore now else x
  { y with
    prot :=
      if x.prot.lock then x.prot
      else if again && x.isl.snapshot.taken && x.isl.snapshot.good then y.prot else y.prot.bootSet h }

/-- A required image is loaded, and the half then reaches its stage. -/
def State.required (s : State) (h : Half) (t : Nat) (f : State → State) : State :=
  match s.load h t (fun _ => true) with
  | (s1, some _) => f s1
  | (s1, none) => s1.bootFails h

/-- One stage of the boot chain, which follows the stage before it (R480). -/
def State.bootStage (s : State) (h : Half) : BootStage → State
  | .fs =>
    if (s.half h).boot.stage = 0 ∧ (s.half h).boot.fusesSensed = true then
      s.required h 1 (fun s => s.modHalf h (HalfState.reach 1 1 0 1))
    else s
  | .isl =>
    if (s.half h).boot.stage = 1 then s.required h 2 (fun s => s.modHalf h (HalfState.reach 2 1 1 1)) else s
  | .zen =>
    if (s.half h).boot.stage = 2 then
      s.required h 3 (fun s =>
        let x := s.load h 7 (fun _ => true)
        (x.1.bootCfg h (x.2.getD [])).modHalf h (HalfState.reach 3 2 2 1))
    else s
  | .dirS =>
    if (s.half h).boot.stage = 3 then
      s.required h 4 (fun s => (s.modHalf h (HalfState.reach 4 2 2 1)).modHalf h (HalfState.directorRuns h s.now))
    else s
  | .dirNs =>
    if (s.half h).boot.stage = 4 ∧ (s.half h).boot.nsFw = true ∧ (s.half h).boot.nsRunning = false then
      match s.load h 6 (fun _ => true) with
      | (s1, some _) => s1.modBoot h (fun b => { b with nsRunning := true })
      | (s1, none) => s1
    else s
  | .slate =>
    if (s.half h).boot.stage = 4 ∧ (s.half h).hbm.train = 2 ∧ (s.half h).boot.slateVerified = false then
      match s.load h 5 slateForm with
      | (s1, some _) => s1.modBoot h (fun b => { b with slateVerified := true })
      | (s1, none) => s1
    else s
  | .services => if (s.half h).boot.stage = 4 then s.modHalf h (HalfState.reach 4 4 2 3) else s

/-- BOOT_STAGE_DONE (R480): at power-up and at a restart (R379). -/
def execBootStageDone (t : Nat) (h : Half) (stage : BootStage) (s : State) : Host.Outcome State Fault Refusal :=
  .next (onLive (s.advance t) h (fun s => if (s.half h).boot.failed then s else s.bootStage h stage))

/-! ### The slate image (R479) -/

/-- The generator's bytes: `n` words from a state. -/
def slateBytes : Nat → Nat → List Byte
  | 0, _ => []
  | n + 1, x =>
    let y := (x * 6364136223846793005 + 1442695040888963407) % 2 ^ 64
    toLe 4 (y / 2 ^ 32) ++ slateBytes n y

/-- The body has its form, and every region's bytes have the CRC the image states. -/
def slateOk (body : List Byte) : Bool := slateForm body && (slateFills body).all (fun f => crc32c (slateBytes (f.len / 4) f.seed) == f.crc)

/-- The records, descriptors, post blocks and signatures go to LOAD_ADDR, and each region is filled. -/
def State.fillSlate (s : State) (h : Half) (loadAddr : Nat) (body : List Byte) : State :=
  let rest := body.drop (64 + 32 * leAt body 0 2)
  (slateFills body).foldl (fun t f => t.writeBytes (hbmBase h + f.addr) (slateBytes (f.len / 4) f.seed))
    (s.writeBytes loadAddr rest)

/-- SLATE_FILL (R479): the slate data are generated in HBM and checked; a copy whose data differ has failed its
verification, and the other copy is tried. -/
def execSlateFill (t : Nat) (h : Half) (s : State) : Host.Outcome State Fault Refusal :=
  .next (onLive (s.advance t) h (fun s =>
    if !(s.half h).boot.slateVerified || (s.half h).boot.slateReady || decide ((s.half h).hbm.train ≠ 2) then s
    else
      let x := s.tryCopies h 5 slateOk ((s.half h).boot.order 5)
      match x.2.1 with
      | some c =>
        let i := (s.half h).boot.copy 5 c
        let s1 := ((x.1.fillSlate h (leAt i 0x10 8) (imgBody i)).modBoot h (fun b =>
          { b with
            slateReady := true, status := setStatus b.status 5 (c + 1) 0
            measures := (b.measures.filter (fun m => m.type != 5)) ++ [measureOf c i] })).modDisp h (fun d =>
              { d with slateSigs := Config.slateSigs (imgBody i) })
        if (s.half h).boot.measures.any (fun m => m.type == 5 && m.copy == c) || (s.half h).boot.order 5 == [c, 1 - c] then s1
        else s1.log h { code := 0x0902, unit := 13, detail := 5 }
      | none => (s.load h 5 slateOk).1.modBoot h (fun b => { b with slateVerified := false })))

end Sys2Proof.Machine
end

