-- ==== Sys2Proof/Machine/Security.lean ====
section
/-! DEFINITION. Keys, rollback counters, attestation and updates (R482 to R488, R499, R501). -/

namespace Sys2Proof.Machine

open Sys2Proof

/-! ### Who answers (R434, R436) -/

/-- The half that answers for device entries: Half A, or Half B while Half A is not running (R434). -/
def State.answering (s : State) : Half := if s.running .a || !(s.running .b) then .a else .b

/-- A change of both halves, or of the one the part has (R436). -/
def State.modBoth (s : State) (f : HalfState → HalfState) : State :=
  if s.twoHalves then (s.modHalf .a f).modHalf .b f else s.modHalf .a f

/-- On a two-half part the partner of the answering half runs (R483, R484). -/
def State.partnerRuns (s : State) : Bool := !s.twoHalves || s.running (otherHalf s.answering)

/-- An event of both halves. -/
def State.logBoth (s : State) (e : Event) : State := if s.twoHalves then (s.log .a e).log .b e else s.log .a e

/-! ### Keys (R483) -/

/-- A slot's hash has no bit set. -/
def Boot.slotBlank (b : Boot) (i : Nat) : Bool := (b.custHash.getD i []).all (· == 0)

/-- KEY_STATE (R487): slot 0 programmed, revoked, slot 1 programmed, revoked. -/
def Boot.keyState (b : Boot) : Nat :=
  bitOf (b.custProgrammed.getD 0 false) + 2 * bitOf (b.custRevoked.getD 0 false) + 4 * bitOf (b.custProgrammed.getD 1 false) +
    8 * bitOf (b.custRevoked.getD 1 false)

/-- One half's fuses of a blank slot take a hash (R482). -/
def Boot.burnKey (now slot : Nat) (hash : List Byte) (b : Boot) : Boot :=
  if b.slotBlank slot then
    { b with
      custHash := lset b.custHash slot hash, custProgrammed := lset b.custProgrammed slot true, keyBurnt := some (slot, now) }
  else b

/-- KEY_PROGRAM of a slot (R483): the state and the abort code. -/
def State.keyProgram (s : State) (slot : Nat) (hash : List Byte) : State × Nat :=
  let b := (s.half s.answering).boot
  if 1 < slot then (s, 0xA101)
  else if !s.partnerRuns then (s, 0xA205)
  else if !(b.slotBlank slot) then (s, 0xA201)
  else
    ((s.modBoth (fun x => { x with boot := Boot.burnKey s.now slot hash x.boot })).logBoth
      { code := 0x0905, unit := 13, detail := slot }, 0)

/-- REVOKE_KEY of a slot (R483): the other slot must be programmed and not revoked. -/
def State.revokeKey (s : State) (slot : Nat) : State × Nat :=
  let b := (s.half s.answering).boot
  if 1 < slot then (s, 0xA101)
  else if !s.partnerRuns then (s, 0xA205)
  else if !(b.custProgrammed.getD (1 - slot) false) || b.custRevoked.getD (1 - slot) false then (s, 0xA201)
  else
    ((s.modBoth (fun x => { x with boot := { x.boot with custRevoked := lset x.boot.custRevoked slot true } })).logBoth
      { code := 0x0905, unit := 13, detail := slot }, 0)

/-! ### Rollback counters (R484) -/

/-- A half's counter of a type after a commit: the ROLLBACK of its running image where that is higher. -/
def Boot.commitRollback (now t : Nat) (b : Boot) : Boot :=
  match b.measures.find? (fun m => m.type == t) with
  | some m =>
    let old := b.rollback.getD (t - 1) 0
    if old < m.rollback then
      { b with rollback := lset b.rollback (t - 1) m.rollback, rollBurnt := some (t, now, old) }
    else b
  | none => b

/-- ROLLBACK_COMMIT in one half; an advance is logged (R500). -/
def State.commitRollback (s : State) (t : Nat) (h : Half) : State :=
  let s1 := s.modBoot h (Boot.commitRollback s.now t)
  if (s1.half h).boot.rollback = (s.half h).boot.rollback then s1 else s1.log h { code := 0x0904, unit := 13, detail := t }

/-- ROLLBACK_COMMIT of a type (R484). -/
def State.rollbackCommit (s : State) (t : Nat) : State × Nat :=
  if t < 1 ∨ 7 < t then (s, 0xA101)
  else if !s.partnerRuns then (s, 0xA205)
  else if s.twoHalves then ((s.commitRollback t .a).commitRollback t .b, 0)
  else (s.commitRollback t .a, 0)

/-! ### Attestation (R485 to R488) -/

/-- A measurement entry (R485). -/
def Measure.bytes (h : Half) (m : Measure) : List Byte :=
  toLe 1 m.type ++ toLe 1 (halfNum h) ++ toLe 1 m.copy ++ toLe 1 m.signer ++ toLe 4 m.version ++ toLe 1 m.rollback ++
    List.replicate 7 0 ++ (m.digest ++ List.replicate 64 0).take 64

/-- A half's entries in ascending TYPE. -/
def Boot.measured (h : Half) (b : Boot) : List Byte :=
  ((List.range 8).flatMap (fun t => b.measures.filter (fun m => m.type == t))).flatMap (Measure.bytes h)

/-- Number of a half's entries. -/
def Boot.measureCount (b : Boot) : Nat := (b.measures.filter (fun m => decide (m.type < 8))).length

/-- The Ed25519 seed of the device identity key (R486): the ASCII bytes are "BZ-ID-1". -/
def Boot.identitySeed (b : Boot) : List Byte := (sha512 (b.uds ++ [0x42, 0x5A, 0x2D, 0x49, 0x44, 0x2D, 0x31])).take 32

/-- ROLLBACK[1] to ROLLBACK[7]. -/
def Boot.rollbackBytes (b : Boot) : List Byte := (List.range 7).flatMap (fun i => toLe 1 (b.rollback.getD i 0))

/-- Halves a report covers: the answering half, and the other while it runs (R488). -/
def State.measuredHalves (s : State) : List Half :=
  [Half.a, Half.b].filter (fun h => h == s.answering || s.running h)

/-- A word of Tally's window as other parts of the device read it (R497): 0 on a part without Tally, or unpowered. -/
def State.tallyWord (s : State) (i : Nat) : Nat :=
  if s.part = .fbz2400AT ∧ s.tally.powered = true then s.tally.window.getD i 0 else 0

/-- The report without its signature (R487). -/
def State.reportBody (s : State) (nonce : List Byte) : List Byte :=
  let l := s.measuredHalves
  let x := fun (h : Half) => s.half h
  let roll := fun (h : Half) => if l.contains h then (x h).boot.rollbackBytes ++ [0] else List.replicate 8 0
  let n := (l.map (fun h => (x h).boot.measureCount)).foldl (· + ·) 0
  toLe 4 0x54415A42 ++ toLe 2 1 ++ toLe 1 (halfNum s.answering) ++
  toLe 1 (bitOf (l.contains .a) + 2 * bitOf (l.contains .b) + 4 * bitOf (l.any (fun h => (x h).isl.safetyMode == 1)) +
    8 * bitOf (x s.answering).boot.lockWorlds + 16 * bitOf (l.all (fun h => (x h).prot.lock))) ++
  toLe 8 s.uniqueId ++ (nonce ++ List.replicate 32 0).take 32 ++ toLe 8 (s.sheetTime s.answering) ++ roll .a ++ roll .b ++
  toLe 1 (x s.answering).boot.keyState ++ toLe 1 0 ++ toLe 2 n ++ toLe 4 (s.tallyWord 2) ++ toLe 4 (s.tallyWord 3) ++
  List.replicate 12 0 ++ l.flatMap (fun h => (x h).boot.measured h)

/-- A signed report (R487). -/
def State.report (s : State) (nonce : List Byte) : List Byte :=
  let b := s.reportBody nonce
  b ++ edSign (s.half s.answering).boot.identitySeed (sha512 b)

/-- ATTEST_NONCE (R488): the answering half builds and signs a report. -/
def State.attest (s : State) (nonce : List Byte) : State × Nat :=
  if nonce.length ≠ 32 then (s, 0xA103)
  else (s.modBoot s.answering (fun b => { b with nonce := nonce, report := s.report nonce }), 0)

/-! ### Updates (R499) -/

/-- The copy an update goes into: the one from which the running image of its type was not loaded. -/
def Boot.updateCopy (b : Boot) (t : Nat) : Nat :=
  match b.measures.find? (fun m => m.type == t) with
  | some m => 1 - m.copy
  | none => 0

/-- One running half verifies an image of type 0x1 to 0x7 and begins to write it, where the copy has room for it (log entry
152). -/
def State.updateHalf (s : State) (image : List Byte) (h : Half) : State × Bool :=
  let t := imgType image
  let b := (s.half h).boot
  let c := b.updateCopy t
  let e := if t < 1 ∨ 7 < t then 1 else s.verify h t image
  let s1 := if e = 5 then s.log h { code := 0x0903, unit := 13, detail := t } else s
  if e = 0 ∧ ((b.region c).place t image.length).isSome = true then
    (s1.modBoot h (fun b => { b with updateStatus := 1, updating := some (t, c, image) }), true)
  else (s1.modBoot h (fun b => { b with updateStatus := 3 }), false)

/-- UPDATE_IMAGE (R499, R501): every running half verifies and writes the image; a half that does not run takes none of
it. A failed check in a running half is abort 0xA101. -/
def State.updateImage (s : State) (image : List Byte) : State × Nat :=
  match [Half.a, Half.b].filter s.running with
  | [] => (s, 0xA205)
  | [h] => let x := s.updateHalf image h; (x.1, if x.2 then 0 else 0xA101)
  | _ =>
    let x := s.updateHalf image .a
    let y := x.1.updateHalf image .b
    (y.1, if x.2 && y.2 then 0 else 0xA101)

/-- UPDATE_WRITTEN (R499): the image is in its copy of the half's flash. -/
def execUpdateWritten (t : Nat) (h : Half) (s : State) : Host.Outcome State Fault Refusal :=
  .next (onHalf (s.advance t) h (fun s =>
    match (s.half h).boot.updating with
    | none => s
    | some (k, c, i) =>
      s.modBoot h (fun b =>
        let f := (b.region c).put k (((b.region c).place k i.length).getD 128) i
        { b with
          updating := none, updateStatus := 2
          flashA := if c = 0 then f else b.flashA, flashB := if c = 0 then b.flashB else f })))

end Sys2Proof.Machine
end

