-- ==== Sys2Proof/Machine/Dict.lean ====
section
/-! DEFINITION. The Glibo object dictionary's entries (R431 to R437, R451, R452 and the tables of R3, R350, R396, R429,
R445, R459, R466, R498, R499): which exist, whose they are, how they may be used, and what they read as. -/

namespace Sys2Proof.Machine

open Sys2Proof

/-! ### Types and access (R431) -/

/-- The types that some entry has (R431). -/
inductive EntryType where
  | bool
  | u8
  | u16
  | u32
  | u64
  | f32
  | str
  | domain
deriving DecidableEq, Repr

/-- RO, RW or WO (chapter 00, Object dictionary). -/
inductive Access where
  | ro
  | rw
  | wo
deriving DecidableEq, Repr

/-- How an entry may be used: its type, access, S-only marking and "session" marking (R431, R447). -/
structure Entry where
  type : EntryType
  access : Access := .ro
  sOnly : Bool := false
  session : Bool := false
deriving DecidableEq, Repr

/-- Width in bytes; none for STR and DOMAIN (R431). -/
def EntryType.width : EntryType → Option Nat
  | .bool => some 1
  | .u8 => some 1
  | .u16 => some 2
  | .u32 => some 4
  | .u64 => some 8
  | .f32 => some 4
  | .str => none
  | .domain => none

/-- Entries by access and marking. -/
def ro (t : EntryType) : Entry := { type := t }
def rwS (t : EntryType) : Entry := { type := t, access := .rw, sOnly := true }
def rwSession (t : EntryType) : Entry := { type := t, access := .rw, sOnly := true, session := true }
def wo (t : EntryType) : Entry := { type := t, access := .wo }
def woS (t : EntryType) : Entry := { type := t, access := .wo, sOnly := true }

/-! ### Owners (R434) -/

/-- The half an index belongs to; none for a device entry (R434). -/
def entryOwner (i : Nat) : Option Half :=
  let bit := fun (b : Bool) => some (if b then Half.b else Half.a)
  if 0x1200 ≤ i ∧ i < 0x1220 ∨ 0x1400 ≤ i ∧ i < 0x1420 then bit (flag i 4)
  else if i = 0x1F00 ∨ i = 0x1F01 then bit (flag i 0)
  else if 0x2000 ≤ i ∧ i < 0x4000 then bit (flag i 12)
  else if 0x4000 ≤ i ∧ i < 0x6000 ∨ 0x8000 ≤ i ∧ i < 0x9000 then bit (flag i 8)
  else if 0x6100 ≤ i ∧ i < 0x6200 then some .a
  else if 0x6200 ≤ i ∧ i < 0x6300 then some .b
  else none

/-- The matching index of Half A (chapter 00, Object dictionary). -/
def entryIndex (i : Nat) : Nat :=
  if entryOwner i = some .b then
    if i < 0x1500 then i - 0x10 else if i < 0x2000 then i - 1 else if i < 0x4000 then i - 0x1000 else i - 0x100
  else i

/-- The index of a half's entry by the index of Half A's. -/
def indexOf (h : Half) (i : Nat) : Nat :=
  match h with
  | .a => i
  | .b => if i < 0x1500 then i + 0x10 else if i < 0x2000 then i + 1 else if i < 0x4000 then i + 0x1000 else i + 0x100

/-! ### Register mirrors (R452) -/

/-- The register a mirror carries: its offset in the half's window, its width in bytes, and whether it is RW. -/
def mirrorOf (i sub : Nat) : Option (Nat × Nat × Bool) :=
  if 0x2100 ≤ i ∧ i < 0x2118 then
    let o := 0x400100 + 0x100 * (i - 0x2100)
    if sub = 6 then some (o + 0x28, 2, true)
    else if 1 ≤ sub ∧ sub ≤ 8 then some (o + 8 * (sub - 1), 8, true)
    else if 9 ≤ sub ∧ sub ≤ 0x0C then some (o + 0x40 + 8 * (sub - 9), 8, true)
    else if 0x10 ≤ sub ∧ sub ≤ 0x1F then some (o + 0x80 + 4 * (sub - 0x10), 4, true)
    else if sub = 0x20 then some (o + 0x60, 8, false)
    else none
  else if i = 0x2200 then
    if sub = 1 then some (0x400008, 8, true)
    else if 2 ≤ sub ∧ sub ≤ 5 then some (0x400020 + 4 * (sub - 2), 4, true)
    else if sub = 6 then some (0x400010, 8, false)
    else if sub = 7 then some (0x400018, 8, false)
    else none
  else if 0x2210 ≤ i ∧ i < 0x2216 then (if sub = 1 then some (0x400040 + 8 * (i - 0x2210), 8, true) else none)
  else if 0x2300 ≤ i ∧ i < 0x2304 then
    let o := 0x402000 + 0x40 * (i - 0x2300)
    if sub = 1 then some (o, 8, true) else if sub = 2 then some (o + 8, 8, true)
    else if sub = 3 then some (o + 0x10, 4, true) else none
  else if i = 0x2400 then
    if sub = 1 then some (0x600008, 4, true) else if sub = 2 then some (0x600010, 8, false) else none
  else if 0x2500 ≤ i ∧ i < 0x2540 then
    if 1 ≤ sub ∧ sub ≤ 3 then some (0x800100 + 32 * (i - 0x2500) + 8 * (sub - 1), 8, true) else none
  else if i = 0x2540 then (if sub = 1 then some (0x800000, 4, true) else none)
  else if i = 0x2600 then
    if 1 ≤ sub ∧ sub ≤ 8 then some (0x100100 + 8 * (sub - 1), 8, false)
    else if 9 ≤ sub ∧ sub ≤ 0x10 then some (0x100200 + 8 * (sub - 9), 8, false)
    else if 0x11 ≤ sub ∧ sub ≤ 0x18 then some (0x700100 + 4 * (sub - 0x11), 4, false)
    else none
  else none

/-- An index of the register mirrors (R452). -/
def mirrorIndex (i : Nat) : Bool :=
  decide (0x2100 ≤ i ∧ i < 0x2118) || i == 0x2200 || decide (0x2210 ≤ i ∧ i < 0x2216) ||
    decide (0x2300 ≤ i ∧ i < 0x2304) || i == 0x2400 || decide (0x2500 ≤ i ∧ i ≤ 0x2540) || i == 0x2600 || i == 0x2700

/-- The sub-indices of a mirror: registers, and the DOMAINs HBM_LOG and BANK_STAT (R452). -/
def mirrorSubs (i : Nat) : List (Nat × Entry) :=
  ((List.range 0x21).filterMap (fun sub =>
    (mirrorOf i sub).map (fun m =>
      let t := if m.2.1 = 2 then EntryType.u16 else if m.2.1 = 4 then .u32 else .u64
      (sub, if m.2.2 then rwSession t else ro t)))) ++
  (if i = 0x2400 then [(3, ro .domain)] else if i = 0x2700 then [(1, ro .domain)] else [])

/-! ### The entries -/

/-- Sub-indices `lo` to `hi` of one form. -/
def subs (lo hi : Nat) (e : Entry) : List (Nat × Entry) := (List.range (hi + 1 - lo)).map (fun k => (lo + k, e))

/-- The sub-indices of an index of Half A or of the device, but for sub-index 0 of a RECORD; none where the index does not
exist. 0x1300 lists no entries, and does not exist. -/
def entrySubs (i : Nat) : Option (List (Nat × Entry)) :=
  if i = 0x1008 ∨ i = 0x100A then some [(0, ro .str)]
  else if i = 0x1009 then some [(0, ro .u8)]
  else if i = 0x1018 then some [(1, ro .u16), (2, ro .u16), (3, ro .u64), (4, ro .str), (5, ro .str)]
  else if i = 0x1020 then some (subs 1 2 (ro .u8))
  else if i = 0x1200 then some (subs 1 3 (rwSession .u32) ++ subs 4 5 (rwSession .u16) ++ subs 6 7 (ro .u16))
  else if i = 0x1400 then some (subs 1 3 (ro .u8) ++ subs 4 5 (ro .u32))
  else if i = 0x1F00 then
    some (subs 1 3 (wo .bool) ++ subs 4 5 (ro .u8) ++ subs 6 7 (ro .u16) ++ [(8, ro .u64)])
  else if i = 0x1F10 then some (subs 1 3 (rwS .u8))
  else if mirrorIndex i then some (mirrorSubs i)
  else if i = 0x4000 then
    some (subs 1 2 (rwSession .u64) ++
      [(3, { woS .u8 with session := true }), (4, ro .u8), (5, ro .u16), (6, ro .u32)])
  else if i = 0x5000 then
    some [(1, ro .u8), (2, woS .u8), (3, ro .u16), (4, ro .u16), (5, rwS .u8), (0x10, ro .domain), (0x11, ro .u16),
      (0x20, ro .domain), (0x21, ro .domain), (0x22, ro .u8), (0x30, ro .u64), (0x31, woS .u64), (0x40, ro .domain)]
  else if i = 0x6000 then some [(1, woS .u8), (2, ro .u8), (3, ro .f32), (4, rwS .u16), (5, ro .u8)]
  else if i = 0x6100 then
    some (subs 1 2 (rwS .u8) ++ subs 3 4 (ro .domain) ++ [(0x10, ro .u8)] ++ subs 0x11 0x14 (ro .f32) ++
      [(0x18, rwS .u32), (0x19, rwS .u16), (0x1A, rwS .u16), (0x1B, rwS .f32), (0x1C, rwS .u8), (0x20, ro .domain),
       (0x21, ro .u32), (0x30, ro .u8), (0x31, ro .domain), (0x32, ro .u8)])
  else if i = 0x7000 then some (subs 1 0x0C (ro .u32))
  else if i = 0x7001 then some [(1, ro .domain)]
  else if 0x8000 ≤ i ∧ i < 0x8100 then some [(1, ro .u64), (2, ro .u32), (3, ro .u32), (4, woS .bool)]
  else if i = 0x9000 then some (subs 1 2 (ro .u32))
  else if i = 0x9001 then some (subs 1 2 (ro .domain) ++ [(3, woS .u8)])
  else if i = 0x9002 then some [(1, ro .u8), (2, woS .domain), (3, woS .u8)]
  else if i = 0x9003 then some [(1, ro .domain)]
  else if i = 0x9004 then some ([(1, wo .domain)] ++ subs 2 4 (ro .domain))
  else if i = 0x9005 then some [(1, ro .bool)]
  else if i = 0x9006 then some [(1, woS .domain), (2, ro .u8)]
  else none

/-- Device entries about Half B, absent on FBZ1200-AN (R437, R451, R499). -/
def aboutHalfB (i sub : Nat) : Bool :=
  (i == 0x1018 && sub == 5) || (i == 0x1020 && sub == 2) || (i == 0x1F10 && sub == 3) || (i == 0x9000 && sub == 2) ||
    (i == 0x9001 && sub == 2)

/-- The form of an entry by the index of Half A or of the device: sub-index 0 of a RECORD is a U8 (R431). -/
def entryAt (i sub : Nat) : Option Entry :=
  match entrySubs i with
  | none => none
  | some l =>
    match l.find? (fun p => p.1 == sub) with
    | some p => some p.2
    | none => if sub = 0 then some (ro .u8) else none

/-- The first condition of R432: the entry exists on the part (R4, R5, R14, R438); 0 where it does. -/
def State.existsAbort (s : State) (index sub : Nat) : Nat :=
  let i := entryIndex index
  if s.twoHalves = false ∧ (entryOwner index = some .b ∨ aboutHalfB i sub = true) then 0xA011
  else if s.part ≠ .fbz2400AT ∧ 0x7000 ≤ i ∧ i < 0x8000 then 0xA011
  else if (entrySubs i).isNone then 0xA010
  else if (entryAt i sub).isNone then 0xA102
  else 0

/-! ### Values -/

/-- Sub-index 0x00 of a RECORD: the highest sub-index in use (R431). -/
def State.highestSub (s : State) (i : Nat) : Nat :=
  (((entrySubs i).getD []).filter (fun p => s.twoHalves || !(aboutHalfB i p.1))).foldl (fun a p => max a p.1) 0

/-- PART_NUMBER in ASCII (R2, R3). -/
def partName : Part → List Byte
  | .fbz2400AT => [0x46, 0x42, 0x5A, 0x32, 0x34, 0x30, 0x30, 0x2D, 0x41, 0x54]
  | .fbz2400AN => [0x46, 0x42, 0x5A, 0x32, 0x34, 0x30, 0x30, 0x2D, 0x41, 0x4E]
  | .fbz1200AN => [0x46, 0x42, 0x5A, 0x31, 0x32, 0x30, 0x30, 0x2D, 0x41, 0x4E]

/-- RESOURCE_MASK (R3). -/
def resourceMask : Part → Nat
  | .fbz2400AT => 7
  | .fbz2400AN => 3
  | .fbz1200AN => 1

/-- A number below 10,000 in decimal ASCII. -/
def decimal (n : Nat) : List Byte :=
  let d := fun (k : Nat) => BitVec.ofNat 8 (0x30 + n / k % 10)
  (if 1000 ≤ n then [d 1000] else []) ++ (if 100 ≤ n then [d 100] else []) ++ (if 10 ≤ n then [d 10] else []) ++ [d 1]

/-- FW_VERSION: major.minor.patch of the running Zenith firmware; "none" until it runs (R451, R477). -/
def Boot.fwVersion (b : Boot) : List Byte :=
  match b.measures.find? (fun m => m.type == 3) with
  | some m =>
    decimal (field m.version 31 24) ++ [0x2E] ++ decimal (field m.version 23 12) ++ [0x2E] ++ decimal (field m.version 11 0)
  | none => [0x6E, 0x6F, 0x6E, 0x65]

/-- A rational as an F32. -/
def f32Bytes (q : Rat) : List Byte := toLe 4 (Fmt.fp32.encode (Fmt.fp32.convert ⟨some q, {}⟩).val)

/-- An absent reading, whose value no rule states, or a reading in 1/16. -/
def State.reading (s : State) (sub : Nat) (v : Option Rat) : List Byte :=
  match v with
  | some q => f32Bytes q
  | none => toLe 4 (Config.freeWord s.now 0x6100 sub).toNat

/-- An entry of the identity range (R3, R451); the device's. -/
def State.identity (s : State) (i sub : Nat) : List Byte :=
  if i = 0x1008 then partName s.part
  else if i = 0x1009 then toLe 1 (resourceMask s.part)
  else if i = 0x100A then (s.half s.answering).boot.fwVersion
  else if i = 0x1020 then toLe 1 (if sub = 1 then s.a.boot.phase else s.b.boot.phase)
  else if sub = 1 then toLe 2 0x1F9A
  else if sub = 2 then toLe 2 (if s.twoHalves then 0x2400 else 0x1200)
  else if sub = 3 then toLe 8 s.uniqueId
  else if sub = 4 then s.a.boot.hbmCode
  else s.b.boot.hbmCode

/-- A CAN FD entry (R459). -/
def Can.entry (c : Can) (sub : Nat) : List Byte :=
  if sub = 1 then toLe 4 c.reqId else if sub = 2 then toLe 4 c.rspId else if sub = 3 then toLe 4 c.emcyId
  else if sub = 4 then toLe 2 c.nominalKbps else if sub = 5 then toLe 2 c.dataKbps
  else if sub = 6 then toLe 2 c.busOffCount else toLe 2 c.emcyLost

/-- A PCIe entry (R466). -/
def Pcie.entry (p : Pcie) (sub : Nat) : List Byte :=
  if sub = 1 then toLe 1 p.linkState else if sub = 2 then toLe 1 p.linkSpeed else if sub = 3 then toLe 1 p.linkWidth
  else if sub = 4 then toLe 4 p.aerCorr else toLe 4 p.aerUncorr

/-- A session entry (R445). -/
def Session.entry (x : Session) (sub : Nat) : List Byte :=
  if sub = 4 then toLe 1 x.state else if sub = 5 then toLe 1 x.holder else if sub = 6 then toLe 2 x.staged.length
  else if sub = 7 then toLe 2 x.result else toLe 8 x.appliedAt

/-- A call-sheet entry (R350): bit 7 of ARM_STATE is set while an arming is pending. -/
def HalfState.sheetEntry (x : HalfState) (sub : Nat) : List Byte :=
  if sub = 1 then toLe 8 x.disp.activeImage else if sub = 2 then toLe 8 x.disp.degradedImage
  else if sub = 4 then toLe 1 (x.disp.sheetState % 4 + 128 * bitOf (x.disp.armPending == some 1))
  else if sub = 5 then toLe 2 x.disp.armError else toLe 4 x.sheetId

/-- Entry slots of a log ring of `n` entries: those written, in the order of the indices, then zeros. -/
def ringBytes (log : Table (List Byte)) (order : List Nat) : List Byte :=
  let l := (order.map (fun i => tget [] log i)).filter (fun e => !e.isEmpty)
  l.flatMap id ++ List.replicate (32 * (order.length - l.length)) 0

/-- FAULT_LOG: 256 entries, oldest first (R396). -/
def Isl.faultLog (i : Isl) : List Byte := ringBytes i.log ((List.range 256).map (fun k => (i.logCount + k) % 256))

/-- HBM_LOG: 64 entries from the newest (R452). -/
def Hbm.logBytes (m : Hbm) : List Byte := ringBytes m.log ((List.range 64).map (fun k => (m.logHead + 64 - k) % 64))

/-- Code of a slab's state (R396). -/
def slabCode : SlabState → Nat
  | .active => 0
  | .spare => 1
  | .retired => 2

/-- DISAGREE: the counts of the current window of 1,000 sheet frames (R371, R396). -/
def HalfState.disagreeBytes (x : HalfState) : List Byte :=
  (List.range 10).flatMap (fun u =>
    toLe 2 (min 0xFFFF ((x.isl.disagreeAt.getD u []).filter (fun g => decide (x.hzn.sheetFrame < g + 1000))).length))

/-- A safety entry (R396). -/
def HalfState.safetyEntry (x : HalfState) (sub : Nat) : List Byte :=
  let slab := fun (k : Nat) => tget (slabReset k) x.isl.slabs k
  if sub = 1 then toLe 1 x.isl.halfState else if sub = 3 then toLe 2 x.isl.restarts
  else if sub = 4 then toLe 2 x.isl.lastHalfFault else if sub = 5 then toLe 1 x.isl.safetyMode
  else if sub = 0x10 then x.isl.faultLog else if sub = 0x11 then toLe 2 x.isl.logCount
  else if sub = 0x20 then (List.range 272).flatMap (fun k => toLe 1 (slab k).score)
  else if sub = 0x21 then (List.range 272).flatMap (fun k => toLe 1 (slabCode (slab k).state + 4 * ((slab k).passCount % 4)))
  else if sub = 0x22 then toLe 1 x.isl.retirements else if sub = 0x30 then toLe 8 x.isl.derate
  else x.disagreeBytes

/-- POWER_STATE (R400): Half A's, or Half B's while Half A is not running. -/
def State.powerState (s : State) : PowerState := (s.half s.answering).zen.power

/-- A power entry of the device (R429). -/
def State.powerEntry (s : State) (sub : Nat) : List Byte :=
  if sub = 2 then toLe 1 (powerCode s.powerState) else if sub = 3 then f32Bytes s.packagePower
  else if sub = 4 then toLe 2 s.pkgLimit else toLe 1 (s.half s.answering).zen.powerEvents

/-- A power, thermal or cooling entry of a half (R429). -/
def State.thermalEntry (s : State) (h : Half) (sub : Nat) : List Byte :=
  let z := (s.half h).zen
  let c := s.coolOf h
  let t16 := fun (o : Option Int) => o.map (fun v => mkRat v 16)
  if sub = 1 then toLe 1 z.onset else if sub = 2 then toLe 1 z.hbmOnset
  else if sub = 3 then (List.range 12).flatMap (fun u => toLe 1 (if u = 8 ∨ u = 9 then 0 else (s.unit h u).steps))
  else if sub = 4 then (List.range 72).flatMap (fun i => toLe 2 (unsignedOf 16 (tget 0 z.sensors i)))
  else if sub = 0x10 then toLe 1 z.coolStatus
  else if sub = 0x11 then s.reading sub (t16 c.1) else if sub = 0x12 then s.reading sub (t16 c.2.1)
  else if sub = 0x13 then s.reading sub (if z.coolSrc = 1 ∧ c.1 = none then none else some c.2.2)
  else if sub = 0x14 then s.reading sub (if c.1.isSome && c.2.1.isSome then some (s.heatOf h) else none)
  else if sub = 0x18 then toLe 4 z.ntcR25 else if sub = 0x19 then toLe 2 z.ntcB else if sub = 0x1A then toLe 2 z.flowK
  else if sub = 0x1B then toLe 4 z.cpVol.toNat else if sub = 0x1C then toLe 1 z.coolSrc
  else if sub = 0x20 then (List.range 12).flatMap (fun u => toLe 2 (z.age.getD u 0))
  else if sub = 0x21 then toLe 4 z.poweredHours else if sub = 0x30 then toLe 1 z.lastBist
  else if sub = 0x31 then z.bistResult.flatMap (fun w => toLe 8 w.toNat) ++ toLe 4 z.failOverflow
  else toLe 1 z.rowsFree

/-- A security entry (R499); the device's. -/
def State.securityEntry (s : State) (i sub : Nat) : List Byte :=
  let b := (s.half s.answering).boot
  if i = 0x9000 then toLe 4 (if sub = 1 then s.a.boot.status else s.b.boot.status)
  else if i = 0x9001 then (if sub = 1 then s.a.boot.rollbackBytes else s.b.boot.rollbackBytes)
  else if i = 0x9002 then toLe 1 b.keyState
  else if i = 0x9003 then b.measured s.answering
  else if i = 0x9004 then
    if sub = 2 then b.report else if sub = 3 then edPublic b.identitySeed else (b.cert ++ List.replicate 64 0).take 64
  else if i = 0x9005 then toLe 1 (bitOf b.lockWorlds)
  else toLe 1 b.updateStatus

/-- The value of a readable entry of half `h` or of the device, by the index of Half A or of the device. PROT_CTL's mirror
carries bits 31 and 30 (R452). -/
def State.entryValue (s : State) (h : Half) (i sub : Nat) : List Byte :=
  let x := s.half h
  if sub = 0 ∧ i ≠ 0x1008 ∧ i ≠ 0x1009 ∧ i ≠ 0x100A then toLe 1 (s.highestSub i)
  else if i < 0x1200 then s.identity i sub
  else if i = 0x1200 then x.can.entry sub
  else if i = 0x1400 then x.pcie.entry sub
  else if i = 0x1F00 then x.session.entry sub
  else if i = 0x1F10 then toLe 1 (bitOf (if sub = 1 then s.sdioWorld else if sub = 2 then s.canAWorld else s.canBWorld))
  else if i = 0x2400 ∧ sub = 3 then x.hbm.logBytes
  else if i = 0x2700 then s.regBytes h 0x102000 2048
  else if i = 0x2540 then toLe 4 (x.prot.ctlWord / 2 ^ 30 * 2 ^ 30)
  else if i < 0x4000 then
    match mirrorOf i sub with
    | some m => s.regBytes h m.1 m.2.1
    | none => []
  else if i = 0x4000 then x.sheetEntry sub
  else if i = 0x5000 then x.safetyEntry sub
  else if i = 0x6000 then s.powerEntry sub
  else if i = 0x6100 then s.thermalEntry h sub
  else if i = 0x7000 then toLe 4 (s.tallyWord sub)
  else if i = 0x7001 then s.tally.tariffBody
  else if i < 0x9000 then
    let j := tget ({} : Job) x.disp.jobs (i - 0x8000)
    let w := j.waited s.now
    if sub = 1 then toLe 8 w.1 else if sub = 2 then toLe 4 w.2 else toLe 4 j.preemptions
  else s.securityEntry i sub

end Sys2Proof.Machine
end

