-- ==== Sys2Proof/Machine/Controls.lean ====
section
/-! DEFINITION. What the command entries do (R396, R421, R350, R499), and how a written value reaches the state it sets
(R433, R436, R459): the operations behind the dictionary's writes. -/

namespace Sys2Proof.Machine

open Sys2Proof

/-! ### HALF_CTL and DERATE_CLEAR (R380, R382, R396) -/

/-- The half counts as out of the fault manager's hands again: it returns to service where it has reported service-ready,
with its survivor's return boundary (R380), or else goes on towards it; one without a snapshot waits for its configuration
(R378). -/
def State.returnToService (s : State) (h : Half) : State :=
  let x := s.half h
  if x.isl.readyAt.isSome && !x.isl.fenced then
    let survivor := s.live (otherHalf h) && (s.half (otherHalf h)).isl.holdsTokens
    let s1 := s.modIsl h (fun i => { i with halfState := 2, withholding := i.withholding && survivor })
    (if survivor then s1.setReturn (otherHalf h) else s1).faultPin h
  else
    let lost := decide (x.boot.phase = 5) && !x.isl.fenced && !x.isl.snapshot.good
    s.modIsl h (fun i =>
      { i with halfState := if lost then 5 else if x.boot.phase = 5 ∨ x.isl.fenced = true then 4 else 1, unconfigured := lost })

/-- A half that is held out delivers nothing and is no longer paired (R380, R397). -/
def State.holdOut (s : State) (h : Half) : State :=
  (s.modIsl h (fun i => { i with
      halfState := 5, unconfigured := false, withholding := true, paired := false, returnFrame := none })).faultPin h

/-- HALF_CTL (R396): 1 return to service, 2 hold out, 3 restart (a class 5 event, R363), 4 retire until power-up. A failed
half leaves its reset when HALF_CTL is written, and stays held out where 2 is written (R382). The state and the abort code. -/
def State.halfCtl (s : State) (h : Half) (v : Nat) : State × Nat :=
  let i := (s.half h).isl
  let again := s.modIsl h (fun i => { i with halfState := 4, restartTimes := [] })
  if i.halfState = 7 then (s, 0xA201)
  else if v = 4 then
    ((s.modHalf h (HalfState.fence s.now)).modIsl h (fun i => { i with halfState := 7, faultN := false }), 0)
  else if v = 3 then
    if i.halfState = 4 then (s, 0xA201)
    else ((if i.halfState = 6 then again else s).halfFault h { code := 0x050A, unit := 12 }, 0)
  else if v = 2 then ((if i.halfState = 6 then again else s).holdOut h, 0)
  else if i.halfState = 6 then (again, 0)
  else if i.halfState = 4 then (s, 0)
  else if i.halfState = 5 ∧ i.unconfigured = false then (s.returnToService h, 0)
  else (s, 0xA201)

/-- DERATE_CLEAR (R396): bits written 1 clear those derates and their counters; the repair record keeps both (R389). -/
def State.derateClear (s : State) (h : Half) (mask : Nat) : State :=
  s.modIsl h (fun i => Isl.keepDerate
    { i with
      derate := i.derate &&& ((2 ^ 64 - 1) ^^^ (mask % 2 ^ 64))
      derateEvents := i.derateEvents.filter (fun e => !(flag mask (8 * e.1 + e.2.1))) })

/-! ### POWER_CTL (R421 to R423) -/

/-- Why a half skips BIST: 0 none, 4 the supply, 5 the clock, 6 it is not running (R422, R429). -/
def HalfState.bistSkip (vin ppm : Nat) (x : HalfState) : Nat :=
  if (decide (4 ≤ x.isl.halfState) && decide (x.isl.halfState ≤ 7)) || x.isl.fenced then 6 else if vin < 1710 ∨ 1890 < vin then 4 else if 70 < ppm then 5 else 0

/-- A frame-sync output is driven low (R421). -/
def Fsync.low (f : Fsync) : Fsync := { f with driven := false, linesLeft := 0 }

/-- One half enters Shutdown-test (R421): its jobs are torn down at the next slot boundary, its frame-sync outputs go low,
and its slab scores are written (R423). A half with no slot boundary to come is done at once. -/
def State.shutHalf (s : State) (bist : Bool) (vin ppm : Nat) (h : Half) : State :=
  if !(s.supplied h) then s
  else
    let x := s.half h
    let skip := x.bistSkip vin ppm
    let runs := bist && skip == 0
    let s1 := s.modHalf h (fun x => HalfState.writeRepair
      { x with
        zen := { x.zen with
          power := if runs || (s.live h) then .testing else .testDone, bistRequested := bist, bistRunning := runs, lastBist := if bist && skip != 0 then skip else x.zen.lastBist }
        hzn := { x.hzn with fsync := x.hzn.fsync.map (fun p => (p.1, p.2.low)) }
        disp := { x.disp with shutdownPending := true } })
    let s2 := if runs || s.live h then s1 else s1.regsOff h
    if bist && skip != 0 then s2.log h { code := 0x060B, unit := 13, detail := skip } else s2

/-- What each half's Zenith measures before BIST (R422): VIN_CORE in mV, and the reference's deviation in ppm. -/
structure BistView where
  vin : Half → Nat
  ppm : Half → Nat

/-- POWER_CTL (R421): refused in Boot; ignored in Shutdown-test but for the restart through Boot (R400). -/
def State.powerCtl (s : State) (v : Nat) (m : BistView) : State × Nat :=
  let p := s.powerState
  let testing := p == .testing || p == .testDone
  if v = 4 then
    if testing then (if s.supplied .b then (s.enterBoot .a).enterBoot .b else s.enterBoot .a, 0) else (s, 0xA201)
  else if testing then (s, 0)
  else if p = .boot ∨ p = .off then (s, 0xA201)
  else ((s.shutHalf (v == 2) (m.vin .a) (m.ppm .a) .a).shutHalf (v == 2) (m.vin .b) (m.ppm .b) .b, 0)

/-- The supply and the clocks as the halves last measured them. -/
def State.lastMeasured (s : State) : BistView :=
  { vin := fun h => (s.half h).zen.vinMv, ppm := fun h => if (s.half h).zen.refOk then 0 else 1000 }

/-! ### Accounting (R350) -/

/-- CLEAR (R350). -/
def State.clearAccounts (s : State) (h : Half) (ctx : Nat) : State :=
  s.modJob h ctx (fun j =>
    { j with waitSum := 0, waitMax := 0, preemptions := 0, waitingSince := j.waitingSince.map (fun _ => s.now) })

/-! ### Values that are applied -/

/-- A CAN FD setting (R459). -/
def Can.set (sub v : Nat) (c : Can) : Can :=
  if sub = 1 then { c with reqId := v } else if sub = 2 then { c with rspId := v } else if sub = 3 then { c with emcyId := v }
  else if sub = 4 then { c with nominalKbps := v } else { c with dataKbps := v }

/-- A thermal or cooling setting (R429). -/
def Zen.set (sub v : Nat) (z : Zen) : Zen :=
  if sub = 1 then { z with onset := v } else if sub = 2 then { z with hbmOnset := v }
  else if sub = 0x18 then { z with ntcR25 := v } else if sub = 0x19 then { z with ntcB := v }
  else if sub = 0x1A then { z with flowK := v } else if sub = 0x1B then { z with cpVol := BitVec.ofNat 32 v }
  else { z with coolSrc := v }

/-- A new package limit may already be exceeded (R415). -/
def State.limitLogs (s : State) : State :=
  let a := if s.supplied .a then s.limitLog .a else s
  if a.supplied .b then a.limitLog .b else a

/-- An RW entry, or ARM, takes a value: of half `h`, or of the device. PROT_CTL's mirror writes LOCK and ENFORCE without
APPLY (R449, R452). -/
def State.putEntry (s : State) (h : Half) (i sub : Nat) (data : List Byte) : State :=
  let v := leNat data
  if i = 0x1200 then s.modCan h (Can.set sub v)
  else if i = 0x1F10 then
    if sub = 1 then { s with sdioWorld := v != 0 } else if sub = 2 then { s with canAWorld := v != 0 }
    else { s with canBWorld := v != 0 }
  else if i = 0x2540 then s.regWrite h 0x800000 (field v 31 30 * 2 ^ 30)
  else if i < 0x4000 then
    match mirrorOf i sub with
    | some m => s.regWrite h m.1 v
    | none => s
  else if i = 0x4000 then
    s.modDisp h (fun d =>
      if sub = 1 then { d with activeImage := v } else if sub = 2 then { d with degradedImage := v }
      else { d with armPending := some v })
  else if i = 0x5000 then s.modIsl h (fun x => { x with safetyMode := v })
  else if i = 0x6000 then { s with pkgLimit := v }.limitLogs
  else s.modZen h (Zen.set sub v)

/-- A WO entry other than ARM and the session's is a command: it acts when it is written, or, staged in a session, when the
set is released (R446, R449). -/
def actsAtOnce (i sub : Nat) : Bool :=
  match entryAt i sub with
  | some e => e.access == .wo && !e.session
  | none => false

/-- Such an entry acts. POWER_CTL finds the supply and the clock as they were last measured, where its row gives no
measurement. -/
def State.command' (s : State) (h : Half) (i sub : Nat) (data : List Byte) : State × Nat :=
  let v := leNat data
  if i = 0x5000 then (if sub = 2 then s.halfCtl h v else (s.derateClear h v, 0))
  else if i = 0x6000 then s.powerCtl v s.lastMeasured
  else if i < 0x9000 then (if v = 1 then s.clearAccounts h (i - 0x8000) else s, 0)
  else if i = 0x9001 then s.rollbackCommit v
  else if i = 0x9002 then (if sub = 2 then s.keyProgram (leAt data 0 1) (data.drop 1) else s.revokeKey v)
  else if i = 0x9004 then s.attest data
  else s.updateImage data

end Sys2Proof.Machine
end

