-- ==== Sys2Proof/Machine/Session.lean ====
section
/-! DEFINITION. Edit sessions (R15, R445 to R450, R453): staging, the checks of a commit, the release of a committed set at
a slot boundary, and when it is applied. -/

namespace Sys2Proof.Machine

open Sys2Proof

/-- One staged entry: the index of Half A or of the device, the sub-index, and the data. -/
abbrev Staged := Nat × Nat × List Byte

/-- Insert in index order (R449); an entry already staged is replaced (R446). -/
def stageIn (e : Staged) : List Staged → List Staged
  | [] => [e]
  | f :: r =>
    if e.1 = f.1 ∧ e.2.1 = f.2.1 then e :: r
    else if e.1 * 256 + e.2.1 < f.1 * 256 + f.2.1 then e :: f :: r
    else f :: stageIn e r

/-- Bytes of staged data. -/
def stagedBytes (l : List Staged) : Nat := (l.map (fun e => e.2.2.length)).foldl (· + ·) 0

/-- A session holds up to 256 entries and 64 KiB; a write beyond that is abort 0xA101 and is not staged (R446). -/
def Session.stage (e : Staged) (x : Session) : Session × Nat :=
  let l := stageIn e x.staged
  if 256 < l.length ∨ 65536 < stagedBytes l then (x, 0xA101) else ({ x with staged := l }, 0)

/-! ### The checks of a commit (R448) -/

/-- The staged value of an entry. -/
def stagedValue (l : List Staged) (i sub : Nat) : Option Nat :=
  (l.find? (fun e => e.1 == i && e.2.1 == sub)).map (fun e => leNat e.2.2)

/-- Every value of a set is written in index order. -/
def State.putAll (s : State) (h : Half) (l : List Staged) : State :=
  (l.filter (fun e => !(actsAtOnce e.1 e.2.1))).foldl (fun t e => t.putEntry h e.1 e.2.1 e.2.2) s

/-- Every command of a set acts, in index order (R449); one whose condition no longer holds has no effect (log entry 67). -/
def State.actAll (s : State) (h : Half) (l : List Staged) : State :=
  (l.filter (fun e => actsAtOnce e.1 e.2.1)).foldl (fun t e => (t.command' h e.1 e.2.1 e.2.2).1) s

/-- A Horizon register under HZN_APPLY: streams, line timer, frame sync and ports. -/
def hznEntry (i : Nat) : Bool := decide (0x2100 ≤ i ∧ i < 0x2300)
/-- A region register or PROT_CTL. -/
def protEntry (i : Nat) : Bool := decide (0x2500 ≤ i ∧ i ≤ 0x2540)

/-- The set stages a register of an enabled ring other than a RING_CTL with ENABLE 0b0 (R453). -/
def State.ringConflict (s : State) (h : Half) (l : List Staged) : Bool :=
  l.any (fun e => decide (0x2300 ≤ e.1 ∧ e.1 < 0x2304) && (s.ring h (e.1 - 0x2300)).enable &&
    !(e.2.1 == 3 && !(flag (leNat e.2.2) 31)))

/-- An enabled ring within its ranges (R280). -/
def Ring.fits (r : Ring) : Bool :=
  !r.enable || (decide (4 ≤ r.slotsLog2) && decide (r.slotsLog2 ≤ 16) && decide (8 ≤ r.slotLog2) &&
    decide (r.slotLog2 ≤ 16) && r.base % 4096 == 0 && r.cb % 64 == 0)

/-- The three CAN FD identifiers differ (R459). -/
def Can.idsDiffer (c : Can) : Bool := c.reqId != c.rspId && c.reqId != c.emcyId && c.rspId != c.emcyId

/-- ARM is staged with a value. -/
def arms (v : Nat) (l : List Staged) : Bool := stagedValue l 0x4000 3 == some v

/-- The Horizon values that will be in effect when the images take effect (R326): those the commit stages, whose release
applies the block, and otherwise those applied. `t` is the state with the set written. -/
def State.commitView (s t : State) (h : Half) (l : List Staged) : HznView :=
  if l.any (fun e => hznEntry e.1) then
    { frameLines := (t.half h).hzn.nextLine.frameLines, stream := fun k => (t.stream h k).next }
  else (s.half h).hzn.view

/-- The first failing arming check of a set that arms (R326). `t` is the state with the set written. -/
def State.commitArmError (s t : State) (h : Half) (l : List Staged) : Nat :=
  if arms 1 l then
    s.armCheck h (s.commitView t h l) (t.half h).disp.activeImage (t.half h).disp.degradedImage
  else 0

/-- A condition of a block that the set touches fails (R448): Horizon (R264), rings (R280, R453), the region set (R316),
CAN FD (R459), SAFETY_MODE (R396). -/
def State.commitBad (s t : State) (h : Half) (l : List Staged) : Bool :=
  s.ringConflict h l || (List.range 4).any (fun r => !((t.ring h r).fits)) ||
  (l.any (fun e => hznEntry e.1 || decide (0x2300 ≤ e.1 ∧ e.1 < 0x2304)) && t.hznError h != 0) ||
  (l.any (fun e => protEntry e.1) && !((t.half h).prot.staged.all (fun d => d.2.fits h))) ||
  (l.any (fun e => e.1 == 0x1200) && !((t.half h).can.idsDiffer)) ||
  ((stagedValue l 0x5000 5).isSome &&
    ((s.half h).disp.sheetState != 0 || (s.half h).disp.armPending.isSome || arms 1 l || arms 2 l))

/-- The session closes with a STATE and a RESULT. -/
def Session.close (state result : Nat) (x : Session) : Session :=
  { x with state := state, holder := 0xFF, staged := [], result := result }

/-- A set joined to one committed before it: an entry that both name takes the later value. -/
def joinSets (old new : List Staged) : List Staged := new.foldl (fun m e => stageIn e m) old

/-- The committed sets that a slot boundary at `now` releases: one accepted in the same cycle waits for the following
boundary (R470). -/
def Session.due (now : Nat) (x : Session) : List Staged :=
  if x.committedAt < now then joinSets x.committed x.newest else x.committed

/-- A set is committed at `now` (R448). -/
def Session.accept (now : Nat) (l : List Staged) (x : Session) : Session :=
  let y := Session.close 2 0 x
  if x.committedAt < now then { y with committed := joinSets x.committed x.newest, newest := l, committedAt := now }
  else { y with newest := joinSets x.newest l }

/-- COMMIT by the holder (R448): a set that breaks a condition is refused whole; any other waits for the next slot
boundary. A refused arming also sets ARM_ERROR (R326). -/
def State.commitSession (s : State) (h : Half) : State × Nat :=
  let l := (s.half h).session.staged
  let t := s.putAll h l
  let e := s.commitArmError t h l
  let s1 := if e ≠ 0 then s.modDisp h (fun d => { d with armError := e }) else s
  if e ≠ 0 ∨ s.commitBad t h l = true then (s1.modSession h (Session.close 4 0xA204), 0xA204)
  else
    (s.modSession h (Session.accept s.now l), 0)

/-! ### Opening and closing (R445, R446, R450) -/

/-- OPEN (R446): an OPEN on a half whose session is held returns abort 0xA004. -/
def State.openSession (s : State) (h : Half) (holder : Nat) : State × Nat :=
  if (s.half h).session.state = 1 then (s, 0xA004)
  else if (s.half h).down then (s, 0xA205)
  else (s.modSession h (fun x => { x with state := 1, holder := holder, staged := [], lastWrite := s.now }), 0)

/-- COMMIT or DISCARD on a channel (R445, R470): a half that is down discards the session. -/
def State.endSession (s : State) (h : Half) (mine commit : Bool) : State × Nat :=
  if (s.half h).down then
    (if mine then s.modSession h (fun x => { x with state := 0, holder := 0xFF, staged := [] }) else s, 0xA205)
  else if !mine then (s, 0xA203)
  else if commit then s.commitSession h
  else (s.modSession h (fun x => { x with state := 0, holder := 0xFF, staged := [] }), 0)

/-- A session entry is written (R445); a value of 0 asks for nothing. -/
def State.sessionWrite (s : State) (h : Half) (holder sub v : Nat) (mine : Bool) : State × Nat :=
  if sub = 1 then (if v = 0 then (if (s.half h).session.state = 1 then (s, 0xA004) else (s, 0)) else s.openSession h holder)
  else if v = 0 then (s, if mine then 0 else 0xA203)
  else s.endSession h mine (sub == 2)

/-- SESSION_EXPIRE (R450): an open session that has received no write for 1 s is discarded. -/
def execSessionExpire (t : Nat) (h : Half) (s : State) : Host.Outcome State Fault Refusal :=
  .next (onHalf (s.advance t) h (fun s =>
    let x := (s.half h).session
    if x.state = 1 ∧ x.lastWrite + 1000000000 ≤ s.now then
      s.modSession h (fun x => { x with state := 5, holder := 0xFF, staged := [] })
    else s))

/-! ### Release (R15, R449) -/

/-- A CAN FD controller whose settings change leaves the bus (R459). -/
def Can.leave (now : Nat) (c : Can) : Can := { c with onBus := false, rejoinAt := some now }

/-- The first arming commit after boot applies LOCK where LOCK_REGIONS is set (R474). -/
def HalfState.locksRegions (l : List Staged) (x : HalfState) : Bool :=
  arms 1 l && x.boot.lockRegions && !x.boot.regionsLockDone

/-- The value written to PROT_CTL with APPLY: LOCK and ENFORCE as staged. -/
def Prot.applyValue (lock : Bool) (p : Prot) : Nat :=
  bitOf (p.stagedLock || lock) * 2 ^ 31 + bitOf p.stagedEnforce * 2 ^ 30 + 1

/-- APPLY bits of the blocks concerned (R449): Horizon's slot boundary is the release itself (R264); HBM's and the
region set's is the next one (R315, R316). -/
def State.applyBlocks (s : State) (h : Half) (l : List Staged) : State :=
  let lock := (s.half h).locksRegions l
  let s1 := if l.any (fun e => hznEntry e.1) then (s.hznApply h .secure).modHzn h Hzn.apply else s
  let s2 := if l.any (fun e => e.1 == 0x2400) then s1.hbmApply h .secure else s1
  let s3 := if l.any (fun e => protEntry e.1) || lock then s2.protCtl h ((s2.half h).prot.applyValue lock) .secure else s2
  let s4 := if lock then s3.modBoot h (fun b => { b with regionsLockDone := true }) else s3
  if l.any (fun e => e.1 == 0x1200) then s4.modCan h (Can.leave s.now) else s4

/-- The committed set is released to its blocks at a slot boundary (R449, R470). -/
def State.releaseSession (s : State) (h : Half) : State :=
  let l := (s.half h).session.due s.now
  if l = [] then s
  else
    (((s.putAll h l).applyBlocks h l).modSession h (fun x =>
      { x with
        committed := [], newest := if x.committedAt < s.now then [] else x.newest, released := x.released ++ l })).actAll h l

/-- A released entry has taken effect (R13, R264, R315, R327, R459). -/
def HalfState.inEffect (x : HalfState) (e : Staged) : Bool :=
  let i := e.1
  if 0x2100 ≤ i ∧ i < 0x2118 then
    let k := tget ({} : Stream) x.hzn.streams (i - 0x2100)
    k.staged.isNone && k.taken.isNone
  else if i = 0x2200 then (if e.2.1 = 1 then x.hzn.lineStaged.isNone else x.hzn.fsyncStaged.isEmpty) && !x.hzn.pending
  else if i = 0x2400 then !x.hbm.applyPending
  else if protEntry i then !x.prot.pending
  else if i = 0x1200 then x.can.rejoinAt.isNone
  else if i = 0x4000 ∧ e.2.1 = 3 then x.disp.armPending.isNone
  else true

/-- STATE reads 0x03 once every part of the set has taken effect (R449). -/
def State.settleSession (s : State) (h : Half) : State :=
  let x := s.half h
  if x.session.released = [] ∨ x.session.released.any (fun e => !(x.inEffect e)) = true then s
  else
    s.modSession h (fun y =>
      { y with
        released := [], state := if y.state = 2 ∧ y.committed = [] ∧ y.newest = [] then 3 else y.state
        appliedAt := s.sheetTime h })

/-- An arming refused at its period boundary (R326). -/
def State.refuseArming (s : State) (h : Half) (e : Nat) : State :=
  (s.modDisp h (fun d => { d with armError := e, armPending := none })).modSession h (fun x =>
    if x.released.any (fun y => y.1 == 0x4000 && y.2.1 == 3) then
      { x with state := if x.state = 2 then 4 else x.state, result := 0xA204, released := [] }
    else x)

end Sys2Proof.Machine
end

