-- ==== Sys2Proof/Machine/Channels.lean ====
section
/-! DEFINITION. The dictionary's channels (R432, R435, R437 to R447, R467): worlds and reach, the checks of a request in
their order, reads, segmented writes, and the commands that write one entry. -/

namespace Sys2Proof.Machine

open Sys2Proof

/-! ### Channels (R434, R435, R437, R445, R467) -/

/-- The half whose timeline a channel follows; the SDIO port follows Half A (R435, R467). -/
def homeOf : Channel → Half
  | .sdio => .a
  | .can h => h
  | .dirS h => h
  | .dirNs h => h

/-- HOLDER's code of a channel (R445). -/
def codeOf : Channel → Nat
  | .sdio => 0
  | .can _ => 1
  | .dirS _ => 2
  | .dirNs _ => 3

/-- Data bytes of a message (chapter 14, Messages). -/
def capacityOf : Channel → Nat
  | .can _ => 48
  | _ => 240

/-- The channel reaches a half's entries (R435): SDIO both, any other its own. -/
def reachOf (ch : Channel) (h : Half) : Bool :=
  match ch with
  | .sdio => true
  | _ => homeOf ch == h

/-- The requester's world is secure (R437, R471). -/
def State.channelSecure (s : State) : Channel → Bool
  | .sdio => !s.sdioWorld
  | .can .a => !s.canAWorld
  | .can .b => !s.canBWorld
  | .dirS _ => true
  | .dirNs _ => false

/-- A request can be made on the channel: its half is supplied, and the port serves it (R467, R473, R480). -/
def State.channelOpen (s : State) (ch : Channel) : Bool :=
  let x := s.half (homeOf ch)
  s.supplied (homeOf ch) && (match ch with
    | .sdio => decide (2 ≤ x.boot.sdioLevel)
    | .can _ => x.can.onBus && !x.can.busOff
    | .dirS _ => decide (4 ≤ x.boot.stage) && !x.isl.fenced
    | .dirNs _ => x.boot.nsRunning && !x.isl.fenced)

/-- The half that answers for an index on a channel (R434). -/
def State.answerer (s : State) (index : Nat) : Half := (entryOwner index).getD s.answering

/-- The half whose dictionary engine serves a request for an index (R443): SDIO is a channel of each half, any other of its
own half alone. A half the part does not have leaves its requests to Half A. -/
def State.chanHome (s : State) (ch : Channel) (index : Nat) : Half :=
  match ch with
  | .sdio => if s.hasHalf (s.answerer index) then s.answerer index else .a
  | _ => homeOf ch

/-- State of a half's channel. -/
def State.chan (s : State) (ch : Channel) (h : Half) : Chan := tget {} (s.half h).chans (codeOf ch)
/-- Change a half's channel; the engine serves the channels in rotating order (R444). -/
def State.modChan (s : State) (ch : Channel) (h : Half) (f : Chan → Chan) : State :=
  s.modHalf h (fun x => { x with chans := tmod {} x.chans (codeOf ch) f, rotor := (codeOf ch) })

/-- The halves that have a channel (R443). -/
def State.chanHalves (s : State) : Channel → List Half
  | .sdio => if s.twoHalves then [.a, .b] else [.a]
  | ch => [homeOf ch]

/-- The row of R467 that a request on a channel for an index is answered under: the owner's own row over SDIO, and Half A's
for a half the part does not have. A half whose boot chain failed stays at abort 0xA301 (R481), and so does a restarted one
until it has applied its boot configuration image (R473; DEDUCED, log entry 155). -/
def State.servedLevel (s : State) (ch : Channel) (index : Nat) : Nat :=
  let b := (s.half (s.chanHome ch index)).boot
  if b.failed || decide (b.stage < 3) then 1 else b.dictLevel

/-- The dictionary is not yet available for an index (R467): every half has it whole from its 220 ms row. -/
def State.notReady (s : State) (ch : Channel) (index : Nat) : Bool :=
  let l := s.servedLevel ch index
  !(decide (4 ≤ l) || (decide (2 ≤ l) && decide (0x1000 ≤ index ∧ index < 0x1100)))

/-! ### The checks of a request (R432) -/

/-- The channel holds the session of the half that answers (R446). -/
def State.holds (s : State) (ch : Channel) (h : Half) : Bool :=
  (s.half h).session.state == 1 && (s.half h).session.holder == (codeOf ch) && reachOf ch h

/-- The session's own control entries. -/
def sessionControl (i : Nat) : Bool := i == 0x1F00

/-- Conditions 1 to 3 of R432: the entry exists on the part and is the channel's to reach, its marking admits the world,
its access admits the operation; then a session held by another channel (R446) and locks (R452, R473). -/
def State.accessAbort (s : State) (ch : Channel) (index sub : Nat) (write : Bool) : Nat :=
  let i := entryIndex index
  let h := s.answerer index
  let missing := s.existsAbort index sub
  if missing ≠ 0 then missing
  else
    match entryAt i sub with
    | none => 0xA102
    | some e =>
      if (match entryOwner index with
        | some o => !(reachOf ch o)
        | none => false) then 0xA012
      else if e.sOnly && !(s.channelSecure ch) then 0xA001
      else if write && e.access == Access.ro then 0xA002
      else if !write && e.access == Access.wo then 0xA003
      else if write && !(sessionControl i) && (s.half h).session.state == 1 && !(s.holds ch h) then 0xA004
      else if write && protEntry i && (s.half h).prot.lock then 0xA005
      else if write && i == 0x1F10 && (s.half s.answering).boot.lockWorlds then 0xA005
      else 0

/-- Condition 4 of R432: the written length fits the type. -/
def lengthAbort (i sub : Nat) (e : Entry) (data : List Byte) : Nat :=
  match e.type.width with
  | some w => if data.length = w then 0 else 0xA103
  | none =>
    if i = 0x9002 ∧ data.length ≠ 65 then 0xA103 else if i = 0x9004 ∧ sub = 1 ∧ data.length ≠ 32 then 0xA103 else 0

/-- A value of CP_VOL within 2,000 to 4,500 J/(L·K). -/
def cpVolOk (v : Nat) : Bool :=
  match (Fmt.fp32.decode v).val with
  | some q => decide (2000 ≤ q) && decide (q ≤ 4500)
  | none => false

/-- The value lies within the range an entry's table gives (R350, R396, R429, R437, R459, R483, R484). -/
def State.rangeOk (s : State) (h : Half) (i sub v : Nat) : Bool :=
  let among := fun (l : List Nat) => l.contains v
  let span := fun (lo hi : Nat) => decide (lo ≤ v) && decide (v ≤ hi)
  let image := v % 64 == 0 && inRange (hbmBase h) hbmBytes v
  if i = 0x1200 then (if sub ≤ 3 then span 0 0x1FFFFFFF else if sub = 4 then among [500, 1000] else among [1000, 2000, 5000])
  else if i = 0x1F10 then span 0 1
  else if i = 0x4000 then (if sub = 1 then image else if sub = 2 then v == 0 || image else span 1 2)
  else if i = 0x5000 then (if sub = 2 then span 1 4 else if sub = 5 then span 0 1 else true)
  else if i = 0x6000 then
    if sub = 1 then span 2 4 else if s.twoHalves then span 100 380 else span 60 195
  else if i = 0x6100 then
    if sub = 1 then span 85 105 else if sub = 2 then span 80 100 else if sub = 0x18 then span 1000 1000000
    else if sub = 0x19 then span 2000 6000 else if sub = 0x1A then span 1 65535 else if sub = 0x1B then cpVolOk v
    else v == 0 || (v == 1 && h == .b)
  else if i = 0x9001 then span 1 7
  else if i = 0x9002 then (if sub = 2 then decide (v % 256 ≤ 1) else span 0 1)
  else true

/-- Condition 5 of R432. -/
def State.rangeAbort (s : State) (h : Half) (i sub : Nat) (e : Entry) (data : List Byte) : Nat :=
  let v := leNat data
  if e.type = .bool ∧ 1 < v then 0xA101
  else if e.type = .f32 ∧ field v 30 23 = 255 then 0xA101
  else if s.rangeOk h i sub v then 0 else 0xA101

/-- The entry answers for a half that is down: the health entries, through which the fault manager observes and returns
it, and the session's (R396, R438, R470). -/
def answersDown (i sub : Nat) : Bool := (i == 0x5000 && sub != 5) || sessionControl i

/-- Condition 6 of R432: the half is not down (R438), an entry marked "session" is written inside one
(R447), ARM waits for trained HBM and for the slate data (R467, R479, R481), and an image sent to a half that restarts is refused
there (R501). -/
def State.stateAbort (s : State) (ch : Channel) (index sub : Nat) (e : Entry) (write : Bool) : Nat :=
  let i := entryIndex index
  let h := s.answerer index
  let x := s.half h
  if (entryOwner index).isSome && x.down && !(answersDown i sub) then 0xA205
  else if write && e.session && !(s.holds ch h) then 0xA202
  else if write && i == 0x4000 && sub == 3 && (x.hbm.train == 3 || !x.boot.slateReady) then 0xA201
  else if write && i == 0x9006 && ch != .sdio && (s.half (homeOf ch)).down then 0xA205
  else if write && i == 0x5000 && sub == 5 && (x.disp.sheetState != 0) then 0xA201
  else 0

/-! ### Writing a whole value (R436, R446, R447) -/

/-- A value that has passed the first three conditions: checked against the others, then staged, applied or, by a WO entry's
command `cmd`, acted on. Inside a session every write of its holder is staged, a command's too: then `cmd` gives only the
abort code that it would return now, and the command acts at the release (R446, R449; log entry 67). -/
def State.writeBy (s0 : State) (ch : Channel) (index sub : Nat) (data : List Byte) (cmd : State → State × Nat) :
    State × Nat :=
  let i := entryIndex index
  let h := s0.answerer index
  let mine := s0.holds ch h
  let s := if mine then s0.modSession h (fun x => { x with lastWrite := s0.now }) else s0
  match entryAt i sub with
  | none => (s, 0xA102)
  | some e =>
    let a := lengthAbort i sub e data
    let b := s.rangeAbort h i sub e data
    let c := s.stateAbort ch index sub e true
    if a ≠ 0 then (s, a)
    else if b ≠ 0 then (s, b)
    else if c ≠ 0 then (s, c)
    else if sessionControl i then s.sessionWrite h (codeOf ch) sub (leNat data) mine
    else if mine then
      let d := if actsAtOnce i sub then (cmd s).2 else 0
      let x := (s.half h).session.stage (i, sub, data)
      if d ≠ 0 then (s, d) else (s.modSession h (fun _ => x.1), x.2)
    else if actsAtOnce i sub then cmd s
    else (s.putEntry h i sub data, 0)

/-- A value written with the dictionary's own commands. -/
def State.writeEntry (s : State) (ch : Channel) (index sub : Nat) (data : List Byte) : State × Nat :=
  s.writeBy ch index sub data (fun t => t.command' (s.answerer index) (entryIndex index) sub data)

/-! ### Responses (R440, R458) -/

/-- A response (R440). -/
def responseBytes (op txn index sub flags abort total : Nat) (data : List Byte) : List Byte :=
  toLe 1 (op + 0x80) ++ toLe 1 txn ++ toLe 2 index ++ toLe 1 sub ++ toLe 1 flags ++ toLe 2 abort ++ toLe 4 total ++
    toLe 2 data.length ++ toLe 2 0 ++ data

/-- The smallest CAN FD length that holds `n` bytes. -/
def canLength (n : Nat) : Nat :=
  if n ≤ 8 then n else if n ≤ 12 then 12 else if n ≤ 16 then 16 else if n ≤ 20 then 20 else if n ≤ 24 then 24
  else if n ≤ 32 then 32 else if n ≤ 48 then 48 else 64

/-- A CAN FD frame is sent (R458); the bytes that fill its length hold nothing the manual fixes. -/
def State.canSend (s : State) (h : Half) (id : Nat) (data : List Byte) : State :=
  let pad := (List.range (canLength data.length - data.length)).map (fun i => Config.freeByte s.free i)
  { (s.modCan h (fun c => { c with txFrames := (id, data ++ pad) :: c.txFrames })) with free := s.free + 1 }

/-- A response goes to its requester: the RSP mailbox over SDIO (R455), a frame with RSP_ID over CAN FD (R458). -/
def State.respond (s : State) (ch : Channel) (home : Half) (r : List Byte) : State :=
  let s1 := s.modChan ch home (fun c => { c with response := r })
  match ch with
  | .sdio => { s1 with sdio := { s1.sdio with rsp := r, rspReady := true, busy := false } }
  | .can h => s1.canSend h (s.half h).can.rspId r
  | _ => s1

/-! ### Requests (R439 to R444) -/

/-- A request's header and data (R439); `short` where fewer than LENGTH data bytes follow. -/
structure Request where
  op : Nat
  txn : Nat
  index : Nat
  sub : Nat
  last : Bool := true
  offset : Nat := 0
  max : Nat := 0
  data : List Byte := []
  short : Bool := false
deriving DecidableEq, Repr

/-- An answer that carries no data. -/
def State.answer (s : State) (ch : Channel) (q : Request) (abort : Nat) : State :=
  s.respond ch (s.chanHome ch q.index) (responseBytes q.op q.txn q.index q.sub 0 abort 0 [])

/-- The transaction in flight ends. -/
def Chan.done (c : Chan) : Chan := { c with inFlight := false, gathered := [] }

/-- A read (R441): as many bytes as fit, from OFFSET. -/
def State.readRequest (s : State) (ch : Channel) (q : Request) : State :=
  let i := entryIndex q.index
  let h := s.answerer q.index
  let a := s.accessAbort ch q.index q.sub false
  let c := match entryAt i q.sub with
    | some e => s.stateAbort ch q.index q.sub e false
    | none => 0
  let v := s.entryValue h i q.sub
  if a ≠ 0 then s.answer ch q a
  else if q.short then s.answer ch q 0xA103
  else if c ≠ 0 then s.answer ch q c
  else if v.length < q.offset then s.answer ch q 0xA104
  else
    let n := if q.max = 0 then (capacityOf ch) else min q.max (capacityOf ch)
    let d := (v.drop q.offset).take n
    s.respond ch (s.chanHome ch q.index) (responseBytes q.op q.txn q.index q.sub (bitOf (decide (v.length ≤ q.offset + d.length))) 0 v.length d)

/-- A write segment (R442): gathered, and applied or staged on the last one; one out of order discards what was
gathered. -/
def State.writeRequest (s : State) (ch : Channel) (q : Request) : State :=
  let home := s.chanHome ch q.index
  let c := s.chan ch home
  let got := if c.inFlight then c.gathered else []
  let a := s.accessAbort ch q.index q.sub true
  if a ≠ 0 then (s.modChan ch home Chan.done).answer ch q a
  else if q.short = true ∨ q.offset ≠ got.length ∨ (capacityOf ch) < q.data.length then
    (s.modChan ch home Chan.done).answer ch q 0xA103
  else if q.last then
    let x := (s.modChan ch home Chan.done).writeEntry ch q.index q.sub (got ++ q.data)
    x.1.answer ch q x.2
  else
    (s.modChan ch home (fun c =>
      { c with
        inFlight := true, startedAt := s.now, txn := q.txn, index := q.index, sub := q.sub
        gathered := got ++ q.data })).answer ch q 0

/-- A request continues the write in flight. -/
def Chan.continues (q : Request) (c : Chan) : Bool :=
  q.op == 2 && c.txn == q.txn && c.index == q.index && c.sub == q.sub

/-- A read of HALF_STATE of a half whose boot chain failed, which its partner answers over SDIO (R481). -/
def State.partnerReports (s : State) (ch : Channel) (q : Request) : Bool :=
  let p := otherHalf (s.chanHome ch q.index)
  ch == .sdio && q.op == 1 && entryIndex q.index == 0x5000 && q.sub == 1 && (s.half (s.chanHome ch q.index)).boot.failed &&
    s.running p && decide (4 ≤ (s.half p).boot.dictLevel)

/-- A cancel on a channel ends what it has in flight, over SDIO in each half (R443; log entry 151). -/
def State.cancel (s : State) (ch : Channel) : State := (s.chanHalves ch).foldl (fun t h => t.modChan ch h Chan.done) s

/-- One request on a channel, in the order of R439, R443 and R467. -/
def State.request (s : State) (ch : Channel) (q : Request) : State :=
  let c := s.chan ch (s.chanHome ch q.index)
  if s.partnerReports ch q then s.readRequest ch q
  else if s.servedLevel ch q.index < 2 then s.answer ch q 0xA301
  else if q.op = 5 then (s.cancel ch).answer ch q 0
  else if c.inFlight && !(c.continues q) then s.answer ch q 0xA302
  else if q.op ≠ 1 ∧ q.op ≠ 2 then s.answer ch q 0xA101
  else if s.notReady ch q.index then s.answer ch q 0xA301
  else if q.op = 1 then s.readRequest ch q
  else s.writeRequest ch q

/-- A command of a channel that serves requests. -/
def onChannel (s : State) (ch : Channel) (f : State → State) : State := if s.channelOpen ch then f s else s

/-- DICT_READ (R441). -/
def execDictRead (t : Nat) (ch : Channel) (txn index sub offset max : Nat) (s : State) :
    Host.Outcome State Fault Refusal :=
  .next (onChannel (s.advance t) ch (fun s =>
    s.request ch { op := 1, txn := txn, index := index, sub := sub, offset := offset, max := max }))

/-- DICT_WRITE (R442). -/
def execDictWrite (t : Nat) (ch : Channel) (txn index sub offset : Nat) (last : Bool) (data : List Byte) (s : State) :
    Host.Outcome State Fault Refusal :=
  .next (onChannel (s.advance t) ch (fun s =>
    s.request ch { op := 2, txn := txn, index := index, sub := sub, last := last, offset := offset, data := data }))

/-- DICT_CANCEL (R443): the transaction in flight ends without being applied. -/
def execDictCancel (t : Nat) (ch : Channel) (txn : Nat) (s : State) : Host.Outcome State Fault Refusal :=
  .next (onChannel (s.advance t) ch (fun s => s.request ch { op := 5, txn := txn, index := 0, sub := 0 }))

/-- A half's segmented write on a channel whose next segment is more than 50 ms late ends with abort 0xA303 and applies
nothing (R444). -/
def State.expire (s : State) (ch : Channel) (h : Half) : State :=
  let c := s.chan ch h
  if c.inFlight ∧ c.startedAt + 50000000 < s.now then
    (s.modChan ch h Chan.done).respond ch h (responseBytes 2 c.txn c.index c.sub 0 0xA303 0 [])
  else s

/-- DICT_TIMEOUT (R444). Each segment starts the 50 ms again (DEDUCED, log entry 129). -/
def execDictTimeout (t : Nat) (ch : Channel) (s : State) : Host.Outcome State Fault Refusal :=
  .next (onChannel (s.advance t) ch (fun s => (s.chanHalves ch).foldl (fun u h => u.expire ch h) s))

/-! ### Commands that write one entry -/

/-- A whole value is written to one entry as one transaction; a row that carries no TXN uses 0. `w` is the write. -/
def State.writeOnce (s : State) (ch : Channel) (index sub : Nat) (w : State → State × Nat) : State :=
  let q : Request := { op := 2, txn := 0, index := index, sub := sub }
  let a := s.accessAbort ch index sub true
  if (s.chan ch (s.chanHome ch index)).inFlight then s.answer ch q 0xA302
  else if s.notReady ch index then s.answer ch q 0xA301
  else if a ≠ 0 then s.answer ch q a
  else let x := w s; x.1.answer ch q x.2

/-- The same, with the dictionary's own commands. -/
def State.writeWhole (s : State) (ch : Channel) (index sub : Nat) (data : List Byte) : State :=
  s.writeOnce ch index sub (fun t => t.writeEntry ch index sub data)

/-- HALF_CTL 0x01 (R396). -/
def execHalfCtlReturn (t : Nat) (ch : Channel) (h : Half) (s : State) : Host.Outcome State Fault Refusal :=
  .next (onChannel (s.advance t) ch (fun s => s.writeWhole ch (indexOf h 0x5000) 2 [1]))

/-- HALF_CTL 0x02 (R396). -/
def execHalfCtlHoldOut (t : Nat) (ch : Channel) (h : Half) (s : State) : Host.Outcome State Fault Refusal :=
  .next (onChannel (s.advance t) ch (fun s => s.writeWhole ch (indexOf h 0x5000) 2 [2]))

/-- HALF_CTL 0x03 (R396). -/
def execHalfCtlRestart (t : Nat) (ch : Channel) (h : Half) (s : State) : Host.Outcome State Fault Refusal :=
  .next (onChannel (s.advance t) ch (fun s => s.writeWhole ch (indexOf h 0x5000) 2 [3]))

/-- HALF_CTL 0x04 (R396). -/
def execHalfCtlRetire (t : Nat) (ch : Channel) (h : Half) (s : State) : Host.Outcome State Fault Refusal :=
  .next (onChannel (s.advance t) ch (fun s => s.writeWhole ch (indexOf h 0x5000) 2 [4]))

/-- DERATE_CLEAR (R396). -/
def execDerateClear (t : Nat) (ch : Channel) (h : Half) (mask : BitVec 64) (s : State) :
    Host.Outcome State Fault Refusal :=
  .next (onChannel (s.advance t) ch (fun s => s.writeWhole ch (indexOf h 0x5000) 0x31 (toLe 8 mask.toNat)))

/-- SHUTDOWN_BIST (R421): POWER_CTL 0x02; the operands are VIN_CORE in mV and the reference's deviation in ppm
as Half A and Half B then measure them (R422). -/
def execShutdownBist (t : Nat) (ch : Channel) (vinMv refPpm : Nat × Nat) (s : State) : Host.Outcome State Fault Refusal :=
  .next (onChannel (s.advance t) ch (fun s => s.writeOnce ch 0x6000 1 (fun t => t.writeBy ch 0x6000 1 [2] (fun u => u.powerCtl 2
      { vin := fun h => if h = .a then vinMv.1 else vinMv.2, ppm := fun h => if h = .a then refPpm.1 else refPpm.2 }))))

/-- SHUTDOWN (R421): POWER_CTL 0x03. -/
def execShutdown (t : Nat) (ch : Channel) (s : State) : Host.Outcome State Fault Refusal :=
  .next (onChannel (s.advance t) ch (fun s => s.writeWhole ch 0x6000 1 [3]))

/-- RESTART (R421): POWER_CTL 0x04. -/
def execRestart (t : Nat) (ch : Channel) (s : State) : Host.Outcome State Fault Refusal :=
  .next (onChannel (s.advance t) ch (fun s => s.writeWhole ch 0x6000 1 [4]))

/-- OPEN (R446). -/
def execOpenSession (t : Nat) (ch : Channel) (h : Half) (s : State) : Host.Outcome State Fault Refusal :=
  .next (onChannel (s.advance t) ch (fun s => s.writeWhole ch (indexOf h 0x1F00) 1 [1]))

/-- COMMIT (R448). -/
def execCommit (t : Nat) (ch : Channel) (h : Half) (s : State) : Host.Outcome State Fault Refusal :=
  .next (onChannel (s.advance t) ch (fun s => s.writeWhole ch (indexOf h 0x1F00) 2 [1]))

/-- DISCARD (R445). -/
def execDiscard (t : Nat) (ch : Channel) (h : Half) (s : State) : Host.Outcome State Fault Refusal :=
  .next (onChannel (s.advance t) ch (fun s => s.writeWhole ch (indexOf h 0x1F00) 3 [1]))

/-- ARM 0x01 (R350). -/
def execArm (t : Nat) (ch : Channel) (h : Half) (s : State) : Host.Outcome State Fault Refusal :=
  .next (onChannel (s.advance t) ch (fun s => s.writeWhole ch (indexOf h 0x4000) 3 [1]))

/-- ARM 0x02 (R350). -/
def execDisarm (t : Nat) (ch : Channel) (h : Half) (s : State) : Host.Outcome State Fault Refusal :=
  .next (onChannel (s.advance t) ch (fun s => s.writeWhole ch (indexOf h 0x4000) 3 [2]))

/-- CLEAR (R350). -/
def execClear (t : Nat) (ch : Channel) (h : Half) (ctx : Nat) (s : State) : Host.Outcome State Fault Refusal :=
  .next (onChannel (s.advance t) ch (fun s => s.writeWhole ch (indexOf h (0x8000 + ctx)) 4 [1]))

/-- ROLLBACK_COMMIT (R484). -/
def execRollbackCommit (t : Nat) (ch : Channel) (type : Nat) (s : State) : Host.Outcome State Fault Refusal :=
  .next (onChannel (s.advance t) ch (fun s => s.writeWhole ch 0x9001 3 (toLe 1 type)))

/-- KEY_PROGRAM (R483). -/
def execKeyProgram (t : Nat) (ch : Channel) (slot : Nat) (hash : List Byte) (s : State) :
    Host.Outcome State Fault Refusal :=
  .next (onChannel (s.advance t) ch (fun s => s.writeWhole ch 0x9002 2 (toLe 1 slot ++ hash)))

/-- REVOKE_KEY (R483). -/
def execRevokeKey (t : Nat) (ch : Channel) (slot : Nat) (s : State) : Host.Outcome State Fault Refusal :=
  .next (onChannel (s.advance t) ch (fun s => s.writeWhole ch 0x9002 3 (toLe 1 slot)))

/-- ATTEST_NONCE (R488). -/
def execAttestNonce (t : Nat) (ch : Channel) (nonce : List Byte) (s : State) : Host.Outcome State Fault Refusal :=
  .next (onChannel (s.advance t) ch (fun s => s.writeWhole ch 0x9004 1 nonce))

/-- UPDATE_IMAGE (R499). -/
def execUpdateImage (t : Nat) (ch : Channel) (image : List Byte) (s : State) : Host.Outcome State Fault Refusal :=
  .next (onChannel (s.advance t) ch (fun s => s.writeWhole ch 0x9006 1 image))

end Sys2Proof.Machine
end

