-- ==== Sys2Proof/Machine/Scrub.lean ====
section
/-! DEFINITION. Accesses of a host to device memory, over PCIe (R462) and over the SDIO port's Function 2 (R456), and the end
of a bank's scrub (R185). The token buckets' row stands here too, for it lets waiting writes go on (R169, R293). -/

namespace Sys2Proof.Machine

open Sys2Proof

/-- What becomes of a host access. -/
inductive HostAccess where
  | ok
  /-- The map refuses it (R288). -/
  | decode
  /-- The region descriptors refuse it (R313, R314). -/
  | region (h : Half)
  /-- A bank without HOST_WR refuses it (R182). -/
  | bank (h : Half)
deriving DecidableEq, Repr

/-- The check of a host access to a range of HBM or of a bank pool (R182, R288, R296, R313). -/
def State.hostCheck (s : State) (secure write : Bool) (r : Region) : HostAccess :=
  match s.targetOf r with
  | .hbm h =>
    if !(s.live h) || !(s.half h).hbmServed then .decode
    else if (s.half h).admits .host secure write r.base r.len then .ok else .region h
  | .bankPool h =>
    if !(s.live h) then .decode
    else if !((s.half h).admits .host secure write r.base r.len) then .region h
    else if write && !((banksOf h r).all (fun b => (s.bank h b).hostWr)) then .bank h
    else .ok
  | _ => .decode

/-- A refused access is logged: MAP_DECODE by the initiator's half (R288), a bank refusal (R182), a refused host write
(R314). A host is no job, and its tag reads 0xFF. -/
def State.hostRefuse (s : State) (h : Half) (addr : Nat) : HostAccess → State
  | .ok => s
  | .decode => s.log h { code := 0x0112, unit := 14, ctx := 0xFF, detail := addr }
  | .region k => s.logUnlisted k .hostRefused { code := 0, unit := 14, detail := addr }
  | .bank k => s.log k { code := 0x0402, unit := 2 + bankAt k addr / 64, detail := bankDetail k 0xFF addr }

/-- The line a refusal names: of a bank refusal the first line that a bank refuses (R182). -/
def State.refusedAt (s : State) (r : Region) : HostAccess → Nat
  | .bank k => r.firstRefused (fun a => !(s.bank k (bankAt k a)).hostWr)
  | _ => r.base

/-- A host access to a range in the HBM goes through the host's port (R293). -/
def State.hostUse (s : State) (r : Region) : State :=
  match s.targetOf r with
  | .hbm k => s.portUse k .pcie r
  | _ => s

/-- A host read waits for the tokens and the level of the host's port (R292, R293): its row has no effect yet. -/
def State.readWaits (s : State) (secure : Bool) (r : Region) : Bool :=
  s.hostCheck secure false r == .ok &&
    (match s.targetOf r with
     | .hbm k => s.live k && !(s.portOpen k .pcie r)
     | _ => false)

/-- The half in which a host write waits. -/
def State.waitsIn (s : State) (w : HeldWrite) : Option Half :=
  if s.writeWaits .a w then some .a else if s.writeWaits .b w then some .b else none

/-- A host write: performed whole or refused whole, or it waits (R185, R293). The state, and whether it was accepted. -/
def State.hostStore (s : State) (h : Half) (secure : Bool) (addr : Nat) (data : List Byte) : State × Bool :=
  let r : Region := { base := addr, len := data.length }
  let c := s.hostCheck secure true r
  if c ≠ .ok then (s.hostRefuse h (s.refusedAt r c) c, false)
  else
    match s.waitsIn (.host secure addr data) with
    | some k => (s.hold k (.host secure addr data), true)
    | none => ((s.hostUse r).writeBytes addr data, true)

/-- A host read: the bytes, or none where it is refused; only a decode error of a read is logged. -/
def State.hostLoad (s : State) (h : Half) (secure : Bool) (addr len : Nat) : State × Option (List Byte) :=
  let r : Region := { base := addr, len := len }
  let c := s.hostCheck secure false r
  if c = .ok then (s.hostUse r, some (s.readBytes addr len))
  else (if c = .decode then s.hostRefuse h addr c else s, none)

/-! ### The end of a scrub (R185) -/

/-- A waiting write goes on, and is checked as it does. -/
def State.goOn (s : State) (h : Half) : HeldWrite → State
  | .row k seq r a b clip => s.rowArrives h k seq r a b clip
  | .leader k seq r a b clip => s.leaderArrives h k seq r a b clip
  | .host secure a b => (s.hostStore h secure a b).1

/-- The waiting landing and host writes of a half whose banks are free go on, in their order, as far as their ports let
them. -/
def State.freeHeld (s : State) (h : Half) : State :=
  let q := (s.half h).dolly.held
  (q.filter (fun w => !(s.scrubs h w.region))).foldl (fun t w => t.goOn h w)
    (s.modDolly h (fun d => { d with held := q.filter (fun w => s.scrubs h w.region) }))

/-- TOKEN_BUCKET_REFILL (R169): tokens of `ns` ns of reference time, no more than have passed since the last refill. -/
def execTokenBucketRefill (t : Nat) (h : Half) (ns : Nat) (s : State) : Host.Outcome State Fault Refusal :=
  .next (onLive (s.advance t) h (fun s =>
    let n := min ns (s.now - (s.half h).dolly.refilledAt)
    ((s.modDolly h (fun d => { (d.refillAll n).wake with refilledAt := d.refilledAt + n })).modHbm h
      (Hbm.refillPorts n)).freeHeld h))

/-- SCRUB_DONE (R185): the scrub has written zero to every line of the bank, and the writes that wait go on. -/
def execScrubDone (t : Nat) (h : Half) (bank : Nat) (s : State) : Host.Outcome State Fault Refusal :=
  .next (onHalf (s.advance t) h (fun s =>
    if (s.bank h bank).scrubbing then
      (((s.zeroBank h bank).modBank h bank (fun b => { b with scrubbing := false })).drain h).freeHeld h
    else s))

end Sys2Proof.Machine
end

