-- ==== Sys2Proof/Machine/HostAccess.lean ====
section
/-! DEFINITION. The request layout of R439, for the raw requests that come over PCIe and the SDIO port. -/

namespace Sys2Proof.Machine

open Sys2Proof

/-- The request that raw bytes hold (R439). -/
def parseRequest (l : List Byte) : Request :=
  let n := leAt l 0x0C 2
  { op := leAt l 0 1, txn := leAt l 1 1, index := leAt l 2 2, sub := leAt l 4 1, last := flag (leAt l 5 1) 0
    offset := leAt l 8 4, max := leAt l 0x0E 2, data := (l.drop 16).take n, short := decide (l.length - 16 < n) }

/-- A raw request is served. -/
def State.rawRequest (s : State) (ch : Channel) (l : List Byte) : State := s.request ch (parseRequest l)

end Sys2Proof.Machine
end

