-- ==== Sys2Proof/Machine/CanBus.lean ====
section
/-! DEFINITION. The CAN FD controllers (R458 to R461). -/

namespace Sys2Proof.Machine

open Sys2Proof

/-- CAN_REQUEST (R458): a CAN FD frame with the half's request identifier and at least 16 data bytes is a request; any
other frame is ignored apart from acknowledgement. -/
def execCanRequest (t : Nat) (h : Half) (id : Nat) (fd : Bool) (data : List Byte) (s : State) :
    Host.Outcome State Fault Refusal :=
  .next (onChannel (s.advance t) (.can h) (fun s =>
    if fd && id == (s.half h).can.reqId && decide (16 ≤ data.length) then s.rawRequest (.can h) data else s))

/-- An emergency message as it is sent: EMCY_SEQ, and LOST in FLAGS bit 1 (R460, R461). -/
def emcyFrame (seq : Nat) (lost : Bool) (msg : List Byte) : List Byte :=
  msg.take 4 ++ toLe 1 seq ++ toLe 1 (leAt msg 5 1 % 2 + 2 * bitOf lost) ++ msg.drop 6

/-- EMCY_SEND (R460, R461): the oldest queued message is sent with EMCY_ID; messages wait while the controller is bus-off
or not on the bus. -/
def execEmcySend (t : Nat) (h : Half) (s : State) : Host.Outcome State Fault Refusal :=
  .next (onChannel (s.advance t) (.can h) (fun s =>
    let c := (s.half h).can
    match c.emcyQueue with
    | [] => s
    | m :: r =>
      (s.canSend h c.emcyId (emcyFrame c.emcySeq c.lostFlag m)).modCan h (fun c =>
        { c with emcyQueue := r, emcySeq := (c.emcySeq + 1) % 256, lostFlag := false })))

/-- BUS_OFF (R458): counted in BUS_OFF_COUNT. -/
def execBusOff (t : Nat) (h : Half) (s : State) : Host.Outcome State Fault Refusal :=
  .next (onChannel (s.advance t) (.can h) (fun s =>
    s.modCan h (fun c => { c with busOff := true, busOffCount := satAdd 0xFFFF c.busOffCount 1 })))

/-- BUS_OFF_RECOVERY (R458): 128 occurrences of 11 recessive bits have passed. -/
def execBusOffRecovery (t : Nat) (h : Half) (s : State) : Host.Outcome State Fault Refusal :=
  .next (onHalf (s.advance t) h (fun s => s.modCan h (fun c => { c with busOff := false })))

/-- CAN_REJOIN (R459): the controller rejoins with its new settings. -/
def execCanRejoin (t : Nat) (h : Half) (s : State) : Host.Outcome State Fault Refusal :=
  .next (onHalf (s.advance t) h (fun s =>
    if (s.half h).can.rejoinAt.isNone then s
    else (s.modCan h (fun c => { c with onBus := true, rejoinAt := none })).settleSession h))

end Sys2Proof.Machine
end

