-- ==== Sys2Proof/Machine/Lines.lean ====
section
/-! DEFINITION. The line timer's SHEET_LINE (R260) and everything that happens at the start of a sheet line: line 0, period
boundaries (R327), return boundaries (R380), slot boundaries (R13, R376, R421, R449), releases (R321), frame sync (R266),
leader lines (R273), the forecast (R411), and Tally's window (R498). -/

namespace Sys2Proof.Machine

open Sys2Proof

/-- FRAME_START (R256): a frame-start packet on a port and virtual channel. The stream values that take effect with it (R264)
may be the last of a committed set (R449). -/
def execFrameStart (t : Nat) (h : Half) (port vc : Nat) (corrected : Bool) (s : State) :
    Host.Outcome State Fault Refusal :=
  .next (onLive (s.advance t) h (fun s =>
    if !((s.half h).portOn port) then s
    else
      let s1 := s.headerCount h port corrected
      let s2 := (s1.modHzn h (fun z => { z with streams := z.streams.map (fun k => (k.1, k.2.adopt port vc)) })).settleSession h
      match (s2.half h).bound port vc with
      | none => s2.discard h port
      | some k =>
        let s3 := s2.modStream h k (fun x => { x with activeLine := some 0 })
        if (s3.half h).namesStream k then
          let z := (s3.half h).hzn
          let c := (s3.stream h k).cfg
          s3.modStream h k (Stream.begin' s.now (decide (z.lockState = .locked))
            ((tget ({} : Fsync) z.fsync c.fsyncSel).edgeFrame % 2 ^ 32) (z.expectAt c))
        else s3.modStream h k (fun x => { x with discarded := satAdd 0xFFFF x.discarded 1 })))

/-! ### The line timer (R260, R262, R264, R268) -/

/-- The present sheet line has lasted its period (R260, R265). -/
def Hzn.lineOver (now : Nat) (z : Hzn) : Bool := decide (z.lineStart + z.linePeriod ≤ now)

/-- The next sheet line begins where the present one ends, and its own length is fixed (R261); past line FRAME_LINES − 1 it is
line 0 of the next sheet frame (R260). -/
def Hzn.nextLineNo (z : Hzn) : Hzn :=
  let z1 := { z with lineStart := z.lineStart + z.linePeriod, linePeriod := z.period, lines := z.lines + 1 }
  if z.line.frameLines ≤ z.lineNo + 1 then { z1 with lineNo := 0, sheetFrame := (z.sheetFrame + 1) % 2 ^ 32 }
  else { z1 with lineNo := z.lineNo + 1 }

/-- A sheet frame without a line-start of the stream in use counts as 8 bad packets (R262). -/
def Hzn.frameWithout (z : Hzn) : Hzn :=
  { z with badRun := if z.line.locked && !z.seenThisFrame then max 8 z.badRun else z.badRun }

/-- Line 0: SHEET_FRAME is adopted (R268), and LINE_CTL and FSYNC_CTL take effect (R264), the line's length with them. `frame`
is the partner's value, where it is there to be adopted. -/
def Hzn.lineZero (frame : Option Nat) (z : Hzn) : Hzn :=
  let z1 := { z.frameWithout with sheetFrame := if z.adopt then frame.getD z.sheetFrame else z.sheetFrame, adopt := false }
  let z2 := match z1.lineStaged with
    | some c => Hzn.takeLine c { z1 with lineStaged := none }
    | none => z1
  { z2 with
    linePeriod := z2.period, seenThisFrame := false, fsyncStaged := []
    fsync := z2.fsyncStaged.foldl (fun l p => tmod {} l p.1 (fun f => { f.load p.2.toNat with faulted := false })) z2.fsync }

/-! ### Boundaries -/

/-- A slot boundary (R449): the start of a slot of any partition, or of any line while no sheet is armed. -/
def HalfState.atSlotBoundary (x : HalfState) : Bool :=
  match x.sheet with
  | none => true
  | some sh => sh.slots.any (fun e => e.startLine == x.periodLine sh)

/-- A STRICT slot of partition `p` ends with the present line (R319, R345). -/
def HalfState.strictEnds (x : HalfState) (p : Nat) : Bool :=
  match x.sheet with
  | none => false
  | some sh => sh.slots.any (fun e =>
      e.part == p && e.strict && (e.startLine + e.lengthM1) % sh.periodLines == x.periodLine sh)

/-- Line 0 of the present sheet frame is a period boundary of the running sheet; while none is armed, of the image to be
armed (R327). -/
def State.atPeriodBoundary (s : State) (h : Half) : Bool :=
  let x := s.half h
  let p := match x.sheet with
    | some sh => sh.periodFrames
    | none => if x.disp.armPending = some 1 then (s.sheetAt x.disp.activeImage).periodFrames else 1
  x.hzn.lineNo == 0 && x.hzn.sheetFrame % max 1 p == 0

/-- Continuous and once jobs whose run was torn down are released again at a period boundary (R321, R346). -/
def State.releaseAgain (s : State) (h : Half) : State :=
  ((s.half h).disp.jobs.filter (fun p => !p.2.active && (match p.2.entry with
    | some e => e.release == 1 || (e.release == 2 && !p.2.onceDone)
    | none => false))).foldl (fun t p => t.release h p.1 none) s

/-- Derates above the floors of a sheet that takes effect (R393). -/
def State.checkFloors (s : State) (h : Half) : State :=
  (List.range 8).foldl (fun t u => if field (s.half h).isl.derate (8 * u + 7) (8 * u) = 0 then t else t.derateBelowFloor h u) s

/-- A period boundary (R326, R327, R350): a waiting arming is checked again and takes effect or is refused, a waiting
disarm takes effect, and otherwise torn-down jobs are released again. -/
def State.periodBoundary (s : State) (h : Half) : State :=
  let d := (s.half h).disp
  match d.armPending with
  | some 1 =>
    let e := s.armCheck h (s.half h).hzn.view d.activeImage d.degradedImage
    if e = 0 then
      (s.armSheets h (s.sheetAt d.activeImage)
        (if d.degradedImage = 0 ∨ s.twoHalves = false then none else some (s.sheetAt d.degradedImage))).checkFloors h
    else (s.refuseArming h e).releaseAgain h
  | some _ => s.disarmSheets h
  | none => if d.sheetState = 0 then s else s.releaseAgain h

/-- The return boundary that the survivor chose (R380): a half under its degraded sheet switches back to its active one.
The survivor makes no switch where the fault manager now holds the partner out, or it has been fenced again (R380). -/
def State.returnBoundary (s : State) (h : Half) : State :=
  let x := s.half h
  if x.isl.returnFrame ≠ some x.hzn.sheetFrame then s
  else if x.isl.holdsTokens && !(s.live (otherHalf h) && (s.half (otherHalf h)).inService) then
    s.modIsl h (fun i => { i with returnFrame := none })
  else
    let s1 := match x.disp.active, x.disp.degraded with
      | some act, some deg => if x.disp.sheetState = 2 then
          ((s.switchSheets h deg act 1).checkFloors h).modIsl h (fun i => { i with halfState := if i.halfState = 3 then 2 else i.halfState })
        else s
      | _, _ => s
    s1.returnHalf h

/-- The switch to the degraded sheet that waits for this slot boundary (R328, R376). -/
def State.degradedSwitch (s : State) (h : Half) : State :=
  let d := (s.half h).disp
  match d.active, d.degraded with
  | some act, some deg =>
    if d.switchPending && d.sheetState == 1 then
      (((s.switchSheets h act deg 2).checkFloors h).modIsl h (fun i =>
        { i with halfState := if i.halfState = 2 then 3 else i.halfState })).log h { code := 0x0513, unit := 12 }
    else s
  | _, _ => s

/-- A requested shutdown tears every job down at this slot boundary; without BIST the half is then done (R421, R423). -/
def State.shutdownBoundary (s : State) (h : Half) : State :=
  if (s.half h).disp.shutdownPending then
    let s1 := (s.disarmSheets h).modDisp h (fun d => { d with shutdownPending := false })
    if (s.half h).zen.bistRunning then s1 else (s1.modZen h (fun z => { z with power := .testDone })).regsOff h
  else s

/-- The half still runs its lines: a command of a released set may have fenced it or restarted it through Boot. -/
def State.lineRuns (s : State) (h : Half) : Bool := s.live h && (s.half h).zen.regsOn

/-- A slot boundary: pending applies take effect (R13, R264, R315), then a committed set is released (R449), then a switch
or a shutdown takes place. -/
def State.slotBoundary (s : State) (h : Half) : State :=
  let s1 := s.modHalf h (fun x =>
    { x with dolly := x.dolly.apply, hbm := x.hbm.apply, link := x.link.apply, prot := x.prot.apply, hzn := x.hzn.apply })
  let s2 := (s1.sendAllWaiting h).releaseSession h
  if s2.lineRuns h then (s2.degradedSwitch h).shutdownBoundary h else s2

/-! ### The start of a line -/

/-- Periodic jobs whose RELEASE_LINE this is; a BACKUP job is released at its backup time instead (R321). -/
def State.periodicReleases (s : State) (h : Half) : State :=
  match (s.half h).sheet with
  | none => s
  | some sh =>
    (sh.jobs.filter (fun j =>
      j.release == 0 && !j.backup && j.releaseLine == (s.half h).periodLine sh)).foldl (fun t j => t.release h j.ctx none) s

/-- An armed sheet names a context whose FSYNC_SEL selects the output (R266). -/
def HalfState.fsyncNamed (x : HalfState) (o : Nat) : Bool :=
  x.hzn.streams.any (fun k => x.namesStream k.1 && k.2.cfg.fsyncSel == o)

/-- One frame-sync output at the start of a line (R266): `on` says that it may pulse. -/
def Fsync.line (on : Bool) (l : Nat) (f : Fsync) : Fsync :=
  let g :=
    if f.faulted then { f with driven := false, linesLeft := 0 }
    else if !on then { f with driven := f.activeLow, linesLeft := 0 }
    else if f.offset = l then { f with driven := !f.activeLow, linesLeft := f.widthM1 }
    else if 0 < f.linesLeft then { f with linesLeft := f.linesLeft - 1 }
    else { f with driven := f.activeLow }
  if g.faulted then g else { g with sense := g.driven }

/-- The frame-sync outputs at the start of a line (R266): each active edge keeps its SHEET_FRAME, for the frames of the streams
that select it. During Shutdown-test they stay low (R421). -/
def State.fsyncLine (s : State) (h : Half) : State :=
  let x := s.half h
  let l := x.hzn.lineNo
  let on := fun (o : Nat) => (tget ({} : Fsync) x.hzn.fsync o).enable && x.fsyncNamed o
  let edge := fun (o : Nat) =>
    on o && !(tget ({} : Fsync) x.hzn.fsync o).faulted && (tget ({} : Fsync) x.hzn.fsync o).offset == l
  if x.zen.power == .testing || x.zen.power == .testDone then s
  else
    s.modHzn h (fun z =>
      { z with
        fsync := z.fsync.map (fun p =>
          let f := p.2.line (on p.1) l
          (p.1, if edge p.1 then { f with edgeFrame := z.sheetFrame, edgeAt := some z.lines } else f)) })

/-- Half A's island compares Tally's window at line 0 (R498). -/
def State.watchTally (s : State) : State :=
  if s.part ≠ .fbz2400AT then s
  else
    let lid := flag (s.tallyWord 1) 8
    let state := s.tallyWord 1 % 16
    let count := s.tallyWord 5
    let s1 := if lid = s.tally.islSeal then s else s.log .a { code := 0x0906, unit := 12, detail := bitOf lid }
    let s2 := if state = 3 ∧ s.tally.islState ≠ 3 then s1.log .a { code := 0x0907, unit := 12, detail := state } else s1
    let s3 := if s.tally.islCount < count then s2.log .a { code := 0x0908, unit := 12, detail := count } else s2
    { s3 with tally := { s3.tally with islSeal := lid, islState := state, islCount := max s.tally.islCount count } }

/-- What happens at line 0 alone. -/
def State.lineZero (s : State) (h : Half) : State :=
  let p := otherHalf h
  let s1 := s.modHzn h (Hzn.lineZero (if s.live p then some (s.nearestFrame p) else none))
  let s2 := s1.returnBoundary h
  let s3 := if s2.atPeriodBoundary h then s2.periodBoundary h else s2
  if h = .a then s3.watchTally else s3

/-- The start of a sheet line, in order. -/
def State.sheetLine (s : State) (h : Half) : State :=
  let ended := (s.half h).strictEnds
  let s1 := s.modHzn h Hzn.nextLineNo
  let s2 := if (s1.half h).hzn.lineNo = 0 then s1.lineZero h else s1
  let s3 := if (s2.half h).atSlotBoundary then s2.slotBoundary h else s2
  let s4 := s3.periodicReleases h
  let s5 := ((s4.fsyncLine h).leaders h).cutSlices h
  if s3.lineRuns h then ((s5.forecastLine h).settleSession h).dispatchWith h ended else s3

/-- SHEET_LINE (R260): a live half whose compute die is supplied starts its next sheet line, once the present one has lasted
its period. -/
def execSheetLine (t : Nat) (h : Half) (s : State) : Host.Outcome State Fault Refusal :=
  .next (onLive (s.advance t) h (fun s =>
    if (s.half h).zen.regsOn && (s.half h).hzn.lineOver s.now then s.sheetLine h else s))

end Sys2Proof.Machine
end

