-- ==== Sys2Proof/Machine/PcieLink.lean ====
section
/-! DEFINITION. The PCIe endpoints (R462 to R467): the link, host accesses through the BARs, and configuration writes. -/

namespace Sys2Proof.Machine

open Sys2Proof

/-- The link of a running half is in L0. -/
def onLink (s : State) (h : Half) (f : State → State) : State :=
  onLive s h (fun s => if (s.half h).pcie.linkState = 2 then f s else s)

/-- Every ring of a half writes the OVERFLOW record that is due, where it can (R284, R465). -/
def State.flushRings (s : State) (h : Half) : State := (List.range 4).foldl (fun t r => t.putOverflow h r) s

/-! ### The link (R465, R466) -/

/-- The configuration space at its defaults. -/
def Pcie.defaults (p : Pcie) : Pcie :=
  { p with busMaster := false, d3hot := false, maxPayload := 128, maxRead := 512, config := [], msixOn := false, msixHeld := false }

/-- PCIE_PERST (R466): the level of PCIE_PERST_N changes. Deasserted, training begins; asserted, the endpoint is in its
fundamental reset, with the link down and the configuration space at its defaults (R465). -/
def execPciePerst (t : Nat) (pin : PerstPin) (s : State) : Host.Outcome State Fault Refusal :=
  .next (onHalf (s.advance t) pin.half (fun s => s.modPcie pin.half (fun p =>
    if pin.deasserted then { p with perstN := true, linkState := if p.linkState = 0 then 1 else p.linkState }
    else { p.defaults with perstN := false, linkState := 0, linkSpeed := 0, linkWidth := 0 })))

/-- LINK_UP (R466, R467): the link reaches L0 with a speed and a width, once the boot region set is in force (R474). -/
def execLinkUp (t : Nat) (h : Half) (speed width : Nat) (s : State) : Host.Outcome State Fault Refusal :=
  .next (onLive (s.advance t) h (fun s =>
    if !(s.half h).pcie.perstN || decide ((s.half h).boot.stage < 4) then s
    else
      ((s.modPcie h (fun p => { p with linkState := 2, linkSpeed := speed, linkWidth := width })).modBoot h (fun b =>
        { b with
          dictLevel := max b.dictLevel 3
          phase := if (s.half h).isl.halfState = 1 then max b.phase 2 else b.phase })).flushRings h))

/-- HOT_RESET (R465): a hot reset or a link-down restores the configuration space, and changes no ring register, sheet or
dictionary entry; the link trains again. -/
def execHotReset (t : Nat) (h : Half) (s : State) : Host.Outcome State Fault Refusal :=
  .next (onHalf (s.advance t) h (fun s => s.modPcie h (fun p =>
    { p.defaults with linkState := if p.perstN then 1 else 0, linkSpeed := 0, linkWidth := 0 })))

/-! ### The BARs (R462, R467) -/

/-- BAR0_WRITE (R462): a host write to the register window is dropped and logged. -/
def execBar0Write (t : Nat) (h : Half) (offset : Nat) (_ : List Byte) (s : State) :
    Host.Outcome State Fault Refusal :=
  .next (onLink (s.advance t) h (fun s => s.logUnlisted h .writeRefused { code := 0, unit := 14, detail := offset }))

/-- The device address of a BAR2 offset; none where it decodes to nothing (R462). -/
def bar2Addr (h : Half) (offset : Nat) : Option Nat :=
  if offset < hbmBytes then some (hbmBase h + offset)
  else if offset < hbmBytes + poolBytes then some (poolBase h + (offset - hbmBytes))
  else none

/-- BAR2 is served from the 220 ms row of R467. -/
def HalfState.bar2Served (x : HalfState) : Bool := decide (4 ≤ x.boot.dictLevel)

/-- BAR2_WRITE (R462): a refused or decoding write is dropped and logged; before BAR2 is served, dropped and not
logged. -/
def execBar2Write (t : Nat) (h : Half) (offset : Nat) (data : List Byte) (s : State) :
    Host.Outcome State Fault Refusal :=
  .next (onLink (s.advance t) h (fun s =>
    if !(s.half h).bar2Served then s
    else
      match bar2Addr h offset with
      | some a => (s.hostStore h false a data).1
      | none => s.hostRefuse h offset .decode))

/-- A Completer Abort of the endpoint is an uncorrectable error of Advanced Error Reporting: counted, and logged (R463, R466;
log entry 150). -/
def State.completerAbort (s : State) (h : Half) (offset : Nat) : State :=
  (s.modPcie h (fun p => { p with readData := none, aerUncorr := satAdd 0xFFFFFFFF p.aerUncorr 1 })).logUnlisted h .aerError
    { code := 0, unit := 14, detail := offset }

/-- BAR2_READ (R462): the bytes, or Completer Abort for a refused or decoding read, and before BAR2 is served, then unlogged
(R467). A read of HBM that waits for its port has no effect yet (R293). -/
def execBar2Read (t : Nat) (h : Half) (offset len : Nat) (s : State) : Host.Outcome State Fault Refusal :=
  .next (onLink (s.advance t) h (fun s =>
    if !(s.half h).bar2Served then s.modPcie h (fun p => { p with readData := none })
    else
      match bar2Addr h offset with
      | some a =>
        if s.readWaits false { base := a, len := len } then s
        else
          match s.hostLoad h false a len with
          | (s1, some l) => s1.modPcie h (fun p => { p with readData := some l })
          | (s1, none) => s1.completerAbort h offset
      | none => (s.hostRefuse h offset .decode).completerAbort h offset))

/-! ### Configuration and MSI-X (R462, R463, R465) -/

/-- Device ID (R462). -/
def pcieDevice (p : Part) (h : Half) : Nat :=
  match p, h with
  | .fbz1200AN, _ => 0x1200
  | _, .a => 0x2400
  | _, .b => 0x2401

/-- The address bits that the host may write in a word of the BARs, and the bits it reads as fixed (R462): BAR0, BAR2 and
BAR4 are 64-bit BARs of 64 MiB, 32 GiB (prefetchable) and 16 KiB; there is no expansion ROM. -/
def barWord (offset : Nat) : Option (Nat × Nat) :=
  if offset = 0x10 then some (0xFC000000, 4) else if offset = 0x18 then some (0, 0xC)
  else if offset = 0x1C then some (0xFFFFFFF8, 0) else if offset = 0x20 then some (0xFFFFC000, 4)
  else if offset = 0x14 ∨ offset = 0x24 then some (0xFFFFFFFF, 0) else if offset = 0x30 then some (0, 0) else none

/-- Bits `hi` to `lo` of a word set to a value. -/
def setField (w hi lo v : Nat) : Nat := w - field w hi lo * 2 ^ lo + v % 2 ^ (hi + 1 - lo) * 2 ^ lo

/-- The extended capabilities of R463 and no others, by identifier and offset, in its table's order (log entry 79): Advanced
Error Reporting, Device Serial Number, Secondary PCI Express, Physical Layer 16.0 and 32.0 GT/s, Lane Margining at the
Receiver, Data Link Feature. -/
def extCaps : List (Nat × Nat) :=
  [(0x01, 0x100), (0x03, Config.dsnOffset)] ++ [0x19, 0x26, 0x2A, 0x27, 0x25].map (fun i => (i, Config.extOffset i))

/-- The headers of the extended capabilities: each has its identifier and the offset of the next. -/
def extHeaders : List (Nat × Nat) → List (Nat × Nat × Nat × Nat)
  | [] => []
  | c :: r => [(c.2, 15, 0, c.1), (c.2, 31, 20, (r.head?.map (·.2)).getD 0)] ++ extHeaders r

/-- The fields of the configuration space that R462 and R463 fix or that show the endpoint's state, each by its word's offset,
its highest and lowest bit and its value, in the PCI layout (PRESUMED, log entry 79): one function with a type 0 header and a
list of the capabilities of R463 and no others (so no MSI); Power Management without D1, D2 and PME; PCI Express of an
endpoint with payloads of up to 512 bytes, 10-bit tags, no Function Level Reset, no ASPM and no AtomicOp completion, the
link's speed and width; MSI-X with 32 vectors, its table and pending bits in BAR4; the serial number. -/
def Pcie.fixedFields (p : Pcie) (serial : Nat) : List (Nat × Nat × Nat × Nat) :=
  let pm := Config.pmcsrOffset - 4
  let pe := Config.devCtlOffset - 8
  let mx := Config.msixCtlOffset
  [(0x04, 2, 2, bitOf p.busMaster), (0x04, 20, 20, 1), (0x0C, 23, 16, 0), (0x34, 7, 0, pm),
   (pm, 7, 0, 0x01), (pm, 15, 8, pe), (pm, 26, 25, 0), (pm, 31, 27, 0), (pm + 4, 1, 0, if p.d3hot then 3 else 0), (pm + 4, 8, 8, 0),
   (pe, 7, 0, 0x10), (pe, 15, 8, mx), (pe, 23, 20, 0), (pe + 4, 2, 0, 2), (pe + 4, 28, 28, 0), (pe + 8, 15, 15, 0),
   (pe + 0x0C, 3, 0, 5), (pe + 0x0C, 9, 4, 4), (pe + 0x0C, 11, 10, 0), (pe + 0x10, 1, 0, 0), (pe + 0x10, 19, 16, p.linkSpeed),
   (pe + 0x10, 25, 20, p.linkWidth), (pe + 0x24, 9, 7, 0), (pe + 0x24, 17, 16, 3),
   (mx, 7, 0, 0x11), (mx, 15, 8, 0), (mx, 26, 16, 31), (mx, 30, 30, bitOf p.msixHeld), (mx, 31, 31, bitOf p.msixOn),
   (mx + 4, 31, 0, 4), (mx + 8, 31, 0, 0x2004)] ++ extHeaders extCaps ++
  [(Config.dsnOffset + 4, 31, 0, serial), (Config.dsnOffset + 8, 31, 0, serial / 2 ^ 32)]

/-- A word of the configuration space as the host reads it (R462, R463), in the PCI layout of its header (PRESUMED, log entry
79): the identity, the class code and the BARs as R462 gives them, the fields that are fixed, and the rest as written. -/
def State.configWord (s : State) (h : Half) (offset : Nat) : BitVec 32 :=
  let p := (s.half h).pcie
  let free := Config.pcieWord (halfNum h) offset
  let w := (tget free p.config offset).toNat
  if offset = 0 then BitVec.ofNat 32 (pcieDevice s.part h * 2 ^ 16 + 0x1F9A)
  else if offset = 8 then BitVec.ofNat 32 (0x120000 * 256 + free.toNat % 256)
  else
    match barWord offset with
    | some (mask, fixed) => BitVec.ofNat 32 (((tget 0 p.config offset).toNat &&& mask) + fixed)
    | none =>
      BitVec.ofNat 32 ((p.fixedFields s.uniqueId).foldl
        (fun w f => if f.1 = offset then setField w f.2.1 f.2.2.1 f.2.2.2 else w) w)

/-- A configuration word is written: Bus Master Enable in bit 2 of the word at 0x04, the power state in bits 1:0 of the
PMCSR (D0 or D3hot; the values of D1 and D2 change nothing), Max Payload Size and Max Read Request in the Device Control word, MSI-X Enable and Function Mask in bits 31 and 30 of
the MSI-X capability's first word. -/
def Pcie.configure (offset v : Nat) (p : Pcie) : Pcie :=
  let q := { p with config := tput p.config offset (BitVec.ofNat 32 v) }
  let r := if offset = 4 then { q with busMaster := flag v 2 } else q
  let u := if offset = Config.pmcsrOffset then { r with d3hot := field v 1 0 == 3 || (r.d3hot && field v 1 0 != 0) } else r
  let w := if offset = Config.msixCtlOffset then { u with msixOn := flag v 31, msixHeld := flag v 30 } else u
  if offset = Config.devCtlOffset then
    { w with maxPayload := 128 * 2 ^ min 2 (field v 7 5), maxRead := 128 * 2 ^ min 5 (field v 14 12) }
  else w

/-- An MSI-X table entry before the host writes it: masked (bit 0 of the vector control word). -/
def msixDefault : List Byte := toLe 16 (2 ^ 96)

/-- A byte of the MSI-X table is written. -/
def Pcie.tableByte (a : Nat) (b : Byte) (p : Pcie) : Pcie :=
  if a < 512 then { p with msixTable := tput p.msixTable (a / 16) ((tget msixDefault p.msixTable (a / 16)).set (a % 16) b) } else p

/-- Consecutive bytes of the table. -/
def Pcie.tableBytes (a : Nat) (p : Pcie) : List Byte → Pcie
  | [] => p
  | b :: r => Pcie.tableBytes (a + 1) (p.tableByte a b) r

/-- A pending vector that may signal now does. -/
def Pcie.signalPending (p : Pcie) : Pcie :=
  (List.range 32).foldl (fun q v =>
    if flag q.msixPending v && q.vectorOpen v then
      { q with msixPending := q.msixPending - 2 ^ v, msixSent := v :: q.msixSent }
    else q) p

/-- A byte that the host reads through BAR4 (R462): the table, then at 0x2000 the pending-bit array of its 32 vectors; the
rest holds nothing. -/
def Pcie.bar4Byte (p : Pcie) (a : Nat) : Option Byte :=
  if a < 512 then (tget msixDefault p.msixTable (a / 16))[a % 16]?
  else if 0x2000 ≤ a ∧ a < 0x2008 then some (BitVec.ofNat 8 (p.msixPending / 2 ^ (8 * (a - 0x2000))))
  else none

/-- Bytes that the host reads through BAR0 (R11, R462): the half's register window. -/
def State.bar0Read (s : State) (h : Half) (offset len : Nat) : List Byte := s.regBytes h offset len

/-- PCIE_CONFIG_WRITE (R463, R465): once records can be written again, an OVERFLOW record that is due is; and a pending vector
that may signal does. -/
def execPcieConfigWrite (t : Nat) (h : Half) (offset : Nat) (value : BitVec 32) (s : State) :
    Host.Outcome State Fault Refusal :=
  .next (onLink (s.advance t) h (fun s => (s.modPcie h (fun p => (Pcie.configure offset value.toNat p).signalPending)).flushRings h))

/-- MSIX_TABLE_WRITE (R462): a host write through BAR4; the table lies at 0x0000. -/
def execMsixTableWrite (t : Nat) (h : Half) (offset : Nat) (data : List Byte) (s : State) :
    Host.Outcome State Fault Refusal :=
  .next (onLink (s.advance t) h (fun s => s.modPcie h (fun p => (p.tableBytes offset data).signalPending)))

end Sys2Proof.Machine
end

