-- ==== Sys2Proof/Machine/Rows.lean ====
section
/-! DEFINITION. The rows of the table that stand for a job's command (R105): each issues the record at the head of the
dispatched job's queue and does its work up to its print. -/

namespace Sys2Proof.Machine

open Sys2Proof

/-- MMUL (R116): a matrix multiply on the array, then the post-unit stages. -/
def execMmul (t : Nat) (h : Half) (ctx : Nat) (u : Option Upset) (s : State) : Host.Outcome State Fault Refusal :=
  .next ((s.advance t).command h ctx .mmul none u none)

/-- CONV (R118): a 2-D convolution. -/
def execConv (t : Nat) (h : Half) (ctx : Nat) (u : Option Upset) (s : State) : Host.Outcome State Fault Refusal :=
  .next ((s.advance t).command h ctx .conv none u none)

/-- TCONV (R119): a transposed convolution. -/
def execTconv (t : Nat) (h : Half) (ctx : Nat) (u : Option Upset) (s : State) : Host.Outcome State Fault Refusal :=
  .next ((s.advance t).command h ctx .tconv none u none)

/-- POOL (R120): maximum, average or global pooling. -/
def execPool (t : Nat) (h : Half) (ctx : Nat) (s : State) : Host.Outcome State Fault Refusal :=
  .next ((s.advance t).command h ctx .pool none none none)

/-- RSMP (R121): nearest, bilinear or area resampling. -/
def execRsmp (t : Nat) (h : Half) (ctx : Nat) (s : State) : Host.Outcome State Fault Refusal :=
  .next ((s.advance t).command h ctx .rsmp none none none)

/-- EWISE (R122, R123): an elementwise function, or PREFIX_MATCH. -/
def execEwise (t : Nat) (h : Half) (ctx : Nat) (s : State) : Host.Outcome State Fault Refusal :=
  .next ((s.advance t).command h ctx .ewise none none none)

/-- NORM (R124): layer or RMS normalisation. -/
def execNorm (t : Nat) (h : Half) (ctx : Nat) (s : State) : Host.Outcome State Fault Refusal :=
  .next ((s.advance t).command h ctx .norm none none none)

/-- ATTN (R213): attention with streaming softmax over a paged cache. -/
def execAttn (t : Nat) (h : Half) (ctx : Nat) (u : Option Upset) (s : State) : Host.Outcome State Fault Refusal :=
  .next ((s.advance t).command h ctx .attn none u none)

/-- ATTB (R225): the backward pass of attention. -/
def execAttb (t : Nat) (h : Half) (ctx : Nat) (u : Option Upset) (s : State) : Host.Outcome State Fault Refusal :=
  .next ((s.advance t).command h ctx .attb none u none)

/-- TOPK (R126): the k best scores and their indices. -/
def execTopk (t : Nat) (h : Half) (ctx : Nat) (s : State) : Host.Outcome State Fault Refusal :=
  .next ((s.advance t).command h ctx .topk none none none)

/-- CVT (R125): a conversion of format. -/
def execCvt (t : Nat) (h : Half) (ctx : Nat) (s : State) : Host.Outcome State Fault Refusal :=
  .next ((s.advance t).command h ctx .cvt none none none)

/-- MOVE in copy mode (R195). -/
def execMoveCopy (t : Nat) (h : Half) (ctx : Nat) (s : State) : Host.Outcome State Fault Refusal :=
  .next ((s.advance t).command h ctx .move (some 0) none none)

/-- MOVE in halo mode (R196). -/
def execMoveHalo (t : Nat) (h : Half) (ctx : Nat) (s : State) : Host.Outcome State Fault Refusal :=
  .next ((s.advance t).command h ctx .move (some 1) none none)

/-- MOVE in KV-page mode (R197). -/
def execMoveKvPage (t : Nat) (h : Half) (ctx : Nat) (s : State) : Host.Outcome State Fault Refusal :=
  .next ((s.advance t).command h ctx .move (some 2) none none)

/-- MOVE in atomic mode (R198). -/
def execMoveAtomic (t : Nat) (h : Half) (ctx : Nat) (s : State) : Host.Outcome State Fault Refusal :=
  .next ((s.advance t).command h ctx .move (some 3) none none)

/-- CUEW (R129): waits for its cue condition; `halo` is what Director code expects in a tag line after its print
(R245). -/
def execCuew (t : Nat) (h : Half) (ctx : Nat) (halo : Option (Nat × Nat)) (s : State) : Host.Outcome State Fault Refusal :=
  .next ((s.advance t).command h ctx .cuew none none halo)

/-- CUES (R130): signals its cues at print. -/
def execCues (t : Nat) (h : Half) (ctx : Nat) (s : State) : Host.Outcome State Fault Refusal :=
  .next ((s.advance t).command h ctx .cues none none none)

/-- FENCE (R131): every earlier command of its queue has printed or been torn down before it issues, and their writes,
atomics and transfers are complete at their prints. -/
def execFence (t : Nat) (h : Half) (ctx : Nat) (s : State) : Host.Outcome State Fault Refusal :=
  .next ((s.advance t).command h ctx .fence none none none)

end Sys2Proof.Machine
end

