-- ==== Sys2Proof/Machine/SdioPort.lean ====
section
/-! DEFINITION. The SDIO host port (R454 to R457): the card's commands, the dictionary mailbox of Function 1, and the two
modes of Function 2. -/

namespace Sys2Proof.Machine

open Sys2Proof

/-- The port answers commands (R467): it follows Half A, and CMD15 has not made the card inactive. -/
def State.sdioAnswers (s : State) : Bool := s.a.powered && decide (1 ≤ s.a.boot.sdioLevel) && !s.sdio.inactive

/-- A command to a port that answers; any other has no effect. -/
def onSdio (s : State) (f : State → State) : State := if s.sdioAnswers then f s else s

/-- Change the port. -/
def State.modSdio (s : State) (f : Sdio → Sdio) : State := { s with sdio := f s.sdio }

/-- The card is ready (R467) and selected. -/
def State.sdioReady (s : State) : Bool := decide (2 ≤ s.a.boot.sdioLevel) && s.sdio.selected

/-! ### Card commands (R454) -/

/-- CMD0 (R454): the card is reset; it has no response. -/
def execCmd0 (t : Nat) (s : State) : Host.Outcome State Fault Refusal :=
  .next (onSdio (s.advance t) (fun s =>
    s.modSdio (fun p =>
      { p with ocrSeen := false, rca := 0, selected := false, s18r := false, transfer := false, cmdResponse := [] })))

/-- CMD5 (R454, R467): answered with the OCR: the ready bit in 31, 2 I/O functions in 30:28, S18A in 24; bits 23:0 are not
fixed. -/
def execCmd5 (t : Nat) (arg : BitVec 32) (s : State) : Host.Outcome State Fault Refusal :=
  .next (onSdio (s.advance t) (fun s =>
    let ready := decide (2 ≤ s.a.boot.sdioLevel)
    let s18 := flag arg.toNat 24
    s.modSdio (fun p =>
      { p with
        ocrSeen := p.ocrSeen || ready, s18r := s18
        cmdResponse := toLe 4 (bitOf ready * 2 ^ 31 + 2 * 2 ^ 28 + bitOf (s18 && !p.v18) * 2 ^ 24 +
          Config.sdioOcr % 2 ^ 24) })))

/-- CMD3 (R454): the card answers with a relative address of its own choice. -/
def execCmd3 (t : Nat) (s : State) : Host.Outcome State Fault Refusal :=
  .next (onSdio (s.advance t) (fun s =>
    if !s.sdio.ocrSeen then s
    else
      let a := 1 + s.freeWord.toNat % 65535
      { s with free := s.free + 1 }.modSdio (fun p => { p with rca := a, cmdResponse := toLe 2 a })))

/-- CMD7 (R454): the card is selected by its relative address and deselected by any other. -/
def execCmd7 (t : Nat) (arg : BitVec 32) (s : State) : Host.Outcome State Fault Refusal :=
  .next (onSdio (s.advance t) (fun s =>
    s.modSdio (fun p => { p with selected := p.rca != 0 && field arg.toNat 31 16 == p.rca, cmdResponse := [] })))

/-- CMD11 (R454): the switch to 1.8 V when the host has set S18R. -/
def execCmd11 (t : Nat) (s : State) : Host.Outcome State Fault Refusal :=
  .next (onSdio (s.advance t) (fun s =>
    s.modSdio (fun p => { p with v18 := p.v18 || (p.s18r && p.ocrSeen), cmdResponse := [] })))

/-- CMD15 (R454): the addressed card becomes inactive. -/
def execCmd15 (t : Nat) (arg : BitVec 32) (s : State) : Host.Outcome State Fault Refusal :=
  .next (onSdio (s.advance t) (fun s =>
    s.modSdio (fun p =>
      if p.rca ≠ 0 ∧ field arg.toNat 31 16 = p.rca then
        { p with inactive := true, selected := false, transfer := false, cmdResponse := [] }
      else p)))

/-- The tuning block of a 4-bit bus (the SD standard's). -/
def tuningBlock : List Byte :=
  [0xFF, 0x0F, 0xFF, 0x00, 0xFF, 0xCC, 0xC3, 0xCC, 0xC3, 0x3C, 0xCC, 0xFF, 0xFE, 0xFF, 0xFE, 0xEF] ++
  [0xFF, 0xDF, 0xFF, 0xDD, 0xFF, 0xFB, 0xFF, 0xFB, 0xBF, 0xFF, 0x7F, 0xFF, 0x77, 0xF7, 0xBD, 0xEF] ++
  [0xFF, 0xF0, 0xFF, 0xF0, 0x0F, 0xFC, 0xCC, 0x3C, 0xCC, 0x33, 0xCC, 0xCF, 0xFF, 0xEF, 0xFF, 0xEE] ++
  [0xFF, 0xFD, 0xFF, 0xFD, 0xDF, 0xFF, 0xBF, 0xFF, 0xBB, 0xFF, 0xF7, 0xFF, 0xF7, 0x7F, 0x7B, 0xDE]

/-- CMD19 (R454): the selected card sends the tuning block at 1.8 V. -/
def execCmd19 (t : Nat) (s : State) : Host.Outcome State Fault Refusal :=
  .next (onSdio (s.advance t) (fun s =>
    if s.sdio.selected && s.sdio.v18 then s.modSdio (fun p => { p with cmdResponse := tuningBlock }) else s))

/-! ### Function 0 (R454, R457, R470) -/

/-- Bits of Function 0's bytes that R454 fixes, as a mask and their value, where the SD standard has them (PRESUMED, log entry
67): CCCR 3.00 in an SDIO 3.00 card; SMB; SHS; SDR50 and SDR104 without DDR50; driver type B alone; and the Standard
Function interface code 0x0 of each function. -/
def cardBits (a : Nat) : Nat × Nat :=
  if a = 0 then (0xFF, 0x43) else if a = 8 then (0x02, 0x02) else if a = 0x13 then (0x01, 0x01)
  else if a = 0x14 then (0x07, 0x03) else if a = 0x15 then (0x07, 0x00) else if a = 0x100 ∨ a = 0x200 then (0x0F, 0x00)
  else (0, 0)

/-- The manufacturer tuple (R454): its code and length, 0x0F1E and card 0x2400. -/
def manufacturerTuple : List Byte := [0x20, 0x04, 0x1E, 0x0F, 0x00, 0x24]

/-- Where the manufacturer tuple lies: in the card's CIS, which the SD standard puts at 0x1000 to 0x17FF of Function 0. -/
def cisTuple : Nat := 0x1000 + Config.cisManufacturer % 0x7F0

/-- A byte of the CIS, which the host cannot write. -/
def inCis (a : Nat) : Bool := decide (0x1000 ≤ a ∧ a < 0x18000)

/-- A byte of Function 0: what R454 fixes, the pending interrupt of Function 1, and else what the host has written, or before
that what no rule gives. -/
def State.cccrByte (s : State) (a : Nat) : Byte :=
  let b := (tget (Config.sdioByte a) s.sdio.cccr a).toNat
  if a = 5 then BitVec.ofNat 8 (2 * bitOf s.sdio.rspReady)
  else if cisTuple ≤ a ∧ a < cisTuple + 6 then manufacturerTuple.getD (a - cisTuple) 0
  else BitVec.ofNat 8 ((b &&& (0xFF - (cardBits a).1)) + (cardBits a).2)

/-- An I/O abort of a function ends its transfer (R457). -/
def State.ioAbort (s : State) (function : Nat) : State :=
  if function = 1 ∨ function = 2 then s.modSdio (fun p => { p with transfer := false }) else s

/-- An I/O reset (R470): a mailbox transaction in flight ends without a response; what is staged stays staged. -/
def State.ioReset (s : State) : State :=
  (s.cancel .sdio).modSdio (fun p =>
    { p with
      selected := false, rca := 0, ocrSeen := false, transfer := false, busy := false, rspReady := false, req := [], rsp := []
      cccr := [], f2Base := 0, f2Mode := 0, f2Index := 0, f2Sub := 0, f2Error := false })

/-- A byte is written into Function 0: the I/O abort register holds the function in bits 2:0 and the reset in bit 3. -/
def State.cccrWrite (s : State) (a : Nat) (b : Byte) : State :=
  if a = 6 then (if flag b.toNat 3 then s.ioReset else s.ioAbort (field b.toNat 2 0))
  else if a = 0 ∨ a = 5 ∨ inCis a = true then s
  else s.modSdio (fun p => { p with cccr := tput p.cccr a b })

/-! ### Function 1 (R455) -/

/-- Byte `i` of a list padded with zeros becomes `b`. -/
def setByte (l : List Byte) (i : Nat) (b : Byte) : List Byte :=
  (l ++ List.replicate (i + 1 - l.length) 0).set i b

/-- Byte `i` of a little-endian number replaced. -/
def putByte (n i : Nat) (b : Byte) : Nat := n - n / 2 ^ (8 * i) % 256 * 2 ^ (8 * i) + b.toNat * 2 ^ (8 * i)

/-- DOORBELL is written (R455): bit 0 submits REQ. -/
def State.ring' (s : State) (b : Byte) : State :=
  if flag b.toNat 0 then
    (s.modSdio (fun p => { p with busy := true })).rawRequest .sdio ((s.sdio.req ++ List.replicate 256 0).take 256)
  else s

/-- A byte of Function 1's address space as read, and the state after the read (R455). -/
def State.f1Read (s : State) (a : Nat) : State × Byte :=
  let p := s.sdio
  if 0x100 ≤ a ∧ a < 0x200 then
    (if a = 0x100 then s.modSdio (fun p => { p with rspReady := false }) else s, p.rsp.getD (a - 0x100) 0)
  else if a = 0x201 then (s, BitVec.ofNat 8 (bitOf p.busy + 2 * bitOf p.rspReady))
  else if 0x208 ≤ a ∧ a < 0x210 then (s, BitVec.ofNat 8 (p.f2Base / 2 ^ (8 * (a - 0x208)) % 256))
  else if a = 0x210 then (s, BitVec.ofNat 8 p.f2Mode)
  else if a = 0x212 ∨ a = 0x213 then (s, BitVec.ofNat 8 (p.f2Index / 2 ^ (8 * (a - 0x212)) % 256))
  else if a = 0x214 then (s, BitVec.ofNat 8 p.f2Sub)
  else if a = 0x218 then (s.modSdio (fun p => { p with f2Error := false }), BitVec.ofNat 8 (bitOf p.f2Error))
  else (s, 0)

/-- A byte is written into Function 1's address space (R455). -/
def State.f1Write (s : State) (a : Nat) (b : Byte) : State :=
  if a < 0x100 then s.modSdio (fun p => { p with req := setByte p.req a b })
  else if a = 0x200 then s.ring' b
  else if 0x208 ≤ a ∧ a < 0x210 then
    s.modSdio (fun p => { p with f2Base := putByte p.f2Base (a - 0x208) b / 65536 * 65536 })
  else if a = 0x210 then s.modSdio (fun p => { p with f2Mode := b.toNat })
  else if a = 0x212 ∨ a = 0x213 then s.modSdio (fun p => { p with f2Index := putByte p.f2Index (a - 0x212) b })
  else if a = 0x214 then s.modSdio (fun p => { p with f2Sub := b.toNat })
  else s

/-! ### Function 2 (R456) -/

/-- Function 2 is served (R467). -/
def State.f2Served (s : State) : Bool := decide (4 ≤ s.a.boot.dictLevel)

/-- A refused access sets the ERROR flag of the response and F2_STATUS.ERROR (R456). -/
def State.f2Fail (s : State) : State := s.modSdio (fun p => { p with f2Error := true, respFlags := 1 })

/-- The value of the entry that F2_ENTRY names, under its access rules; none where they refuse the read. -/
def State.f2Value (s : State) : Option (List Byte) :=
  let i := s.sdio.f2Index
  let k := s.sdio.f2Sub
  match entryAt (entryIndex i) k with
  | some e =>
    if e.type = .domain ∧ s.notReady .sdio i = false ∧ s.accessAbort .sdio i k false = 0 ∧
        s.stateAbort .sdio i k e false = 0 then some (s.entryValue (s.answerer i) (entryIndex i) k)
    else none
  | none => none

/-- `n` bytes are read from Function 2: of the memory window, or of the entry streamed. A refused read returns zeros. -/
def State.f2Read (s : State) (off n : Nat) : State × List Byte :=
  let zeros := List.replicate n (0 : Byte)
  if !s.f2Served then (s.f2Fail, zeros)
  else if s.sdio.f2Mode = 0 then
    if 65536 < off + n then (s.f2Fail, zeros)
    else
      match s.hostLoad .a (!s.sdioWorld) (s.sdio.f2Base + off) n with
      | (s1, some l) => (s1, l)
      | (s1, none) => (s1.f2Fail, zeros)
  else
    match s.f2Value with
    | some v => if off + n ≤ v.length then (s, (v.drop off).take n) else (s.f2Fail, ((v.drop off) ++ zeros).take n)
    | none => (s.f2Fail, zeros)

/-- A read of the memory window waits for the host's port (R293): its command has no effect yet. -/
def State.f2Waits (s : State) (off n : Nat) : Bool :=
  s.f2Served && s.sdio.f2Mode == 0 && decide (off + n ≤ 65536) &&
    s.readWaits (!s.sdioWorld) { base := s.sdio.f2Base + off, len := n }

/-- Bytes are written to Function 2; entry-stream writes are refused. -/
def State.f2Write (s : State) (off : Nat) (data : List Byte) : State :=
  if !s.f2Served || s.sdio.f2Mode != 0 || decide (65536 < off + data.length) then s.f2Fail
  else
    match s.hostStore .a (!s.sdioWorld) (s.sdio.f2Base + off) data with
    | (s1, true) => s1
    | (s1, false) => s1.f2Fail

/-! ### CMD52 and CMD53 (R454, R456, R457) -/

/-- One byte is written to a function. -/
def State.ioWrite (s : State) (f a : Nat) (b : Byte) : State :=
  if f = 0 then s.cccrWrite a b else if f = 1 then s.f1Write a b else if f = 2 then s.f2Write a [b]
  else s.modSdio (fun p => { p with respFlags := 1 })

/-- One byte is read from a function. -/
def State.ioRead (s : State) (f a : Nat) : State × Byte :=
  if f = 0 then (s, s.cccrByte a) else if f = 1 then s.f1Read a
  else if f = 2 then let x := s.f2Read a 1; (x.1, x.2.headD 0)
  else (s.modSdio (fun p => { p with respFlags := 1 }), 0)

/-- CMD52 (R454): R/W in 31, function in 30:28, RAW in 27, address in 25:9, data in 7:0. -/
def execCmd52 (t : Nat) (arg : BitVec 32) (s : State) : Host.Outcome State Fault Refusal :=
  .next (onSdio (s.advance t) (fun s =>
    if !s.sdioReady || (!(flag arg.toNat 31) && field arg.toNat 30 28 == 2 && s.f2Waits (field arg.toNat 25 9) 1) then s
    else
      let n := arg.toNat
      let s0 := s.modSdio (fun p => { p with respFlags := 0, cmdResponse := [] })
      let s1 := if flag n 31 then s0.ioWrite (field n 30 28) (field n 25 9) (BitVec.ofNat 8 (field n 7 0)) else s0
      if flag n 31 && !(flag n 27) then s1.modSdio (fun p => { p with cmdResponse := [BitVec.ofNat 8 (field n 7 0)] })
      else
        let x := s1.ioRead (field n 30 28) (field n 25 9)
        x.1.modSdio (fun p => { p with cmdResponse := [x.2] })))

/-- Bytes of consecutive reads of a function 0 or 1, at a fixed or a rising address. -/
def State.ioReads (s : State) (f a : Nat) (rise : Bool) : Nat → State × List Byte
  | 0 => (s, [])
  | n + 1 =>
    let x := s.ioRead f a
    let y := State.ioReads x.1 f (if rise then a + 1 else a) rise n
    (y.1, x.2 :: y.2)

/-- Bytes written one by one. -/
def State.ioWrites (s : State) (f a : Nat) (rise : Bool) : List Byte → State
  | [] => s
  | b :: r => State.ioWrites (s.ioWrite f a b) f (if rise then a + 1 else a) rise r

/-- The block size of a function, from its FBR. -/
def State.blockSize (s : State) (f : Nat) : Nat :=
  (s.cccrByte (0x100 * f + 0x10)).toNat + 256 * (s.cccrByte (0x100 * f + 0x11)).toNat

/-- Bytes a CMD53 moves: its count, 0 meaning 512, in byte mode; blocks of 1 to 256 (Function 1) or 512 bytes (Function 2)
in block mode; 0 where R454 allows none. -/
def State.cmd53Bytes (s : State) (f n : Nat) : Nat :=
  let c := field n 8 0
  let b := s.blockSize f
  if flag n 27 then (if b = 0 ∨ (if f = 2 then 512 else 256) < b then 0 else c * b)
  else if c = 0 then 512 else c

/-- CMD53 (R456): R/W in 31, function in 30:28, block mode in 27, rising address in 26, address in 25:9, count in 8:0. A
write carries the data that arrive; a data phase that stops early leaves the transfer open (R457). -/
def execCmd53 (t : Nat) (arg : BitVec 32) (data : List Byte) (s : State) : Host.Outcome State Fault Refusal :=
  .next (onSdio (s.advance t) (fun s =>
    if !s.sdioReady then s
    else
      let n := arg.toNat
      let f := field n 30 28
      let a := field n 25 9
      let total := s.cmd53Bytes f n
      let s0 := s.modSdio (fun p => { p with respFlags := 0, cmdResponse := [] })
      if total = 0 ∨ 2 < f then s0.modSdio (fun p => { p with respFlags := 1 })
      else if !(flag n 31) && f == 2 && s.f2Waits a (if flag n 26 then total else 1) then s
      else if flag n 31 then
        let d := data.take total
        let s1 := if f = 2 && flag n 26 then s0.f2Write a d else s0.ioWrites f a (flag n 26) d
        s1.modSdio (fun p => { p with transfer := decide (d.length < total), stoppedAt := s.now })
      else
        let x := if f = 2 && flag n 26 then s0.f2Read a total else s0.ioReads f a (flag n 26) total
        x.1.modSdio (fun p => { p with cmdResponse := x.2, transfer := false })))

/-- DOORBELL (R455). -/
def execDoorbell (t : Nat) (value : Byte) (s : State) : Host.Outcome State Fault Refusal :=
  .next (onSdio (s.advance t) (fun s => if s.sdioReady then s.ring' value else s))

/-- RSP_READ (R455): reading RSP byte 0x00 clears RSP_READY. -/
def execRspRead (t : Nat) (s : State) : Host.Outcome State Fault Refusal :=
  .next (onSdio (s.advance t) (fun s => if s.sdioReady then (s.f1Read 0x100).1 else s))

/-- IO_ABORT (R457): blocks already written stay written. -/
def execIoAbort (t : Nat) (function : Nat) (s : State) : Host.Outcome State Fault Refusal :=
  .next (onSdio (s.advance t) (fun s => if s.sdioReady then s.ioAbort function else s))

/-- SDIO_DATA_TIMEOUT (R457): a data phase that has stopped for 1 s ends the transfer. -/
def execSdioDataTimeout (t : Nat) (s : State) : Host.Outcome State Fault Refusal :=
  .next (onSdio (s.advance t) (fun s =>
    s.modSdio (fun p => { p with transfer := p.transfer && decide (s.now < p.stoppedAt + 1000000000) })))

end Sys2Proof.Machine
end

