-- ==== Sys2Proof/Machine/TallyUnit.lean ====
section
/-! DEFINITION. The Tally unit (R489 to R497): wheel pulses, the seal, the fare, images, its journal, its window and its
display port. -/

namespace Sys2Proof.Machine

open Sys2Proof

/-- Tally runs: only on FBZ2400-AT and while VAUX_TALLY is present (R489, R490). -/
def State.tallyRuns (s : State) : Bool := s.part == .fbz2400AT && s.tally.powered

/-- What a command does to Tally where it runs; elsewhere nothing (log entry 3). -/
def State.onTally (s : State) (f : Tally → Tally) : State := if s.tallyRuns then { s with tally := f s.tally } else s

/-- What a display frame does: nothing with a bad CRC (R496). -/
def State.onDisplay (s : State) (crcOk : Bool) (f : Tally → Tally) : State := if crcOk then s.onTally f else s

/-! ### The journal and the state (R492, R495) -/

/-- ODO_M, the remainder and the fare state are journaled (R495). -/
def Tally.save (now : Nat) (u : Tally) : Tally := { u with journal := u.live, journalAt := now }

/-- A happening is journaled: 1 the seal opened in HIRED, 2 a fare ended by pulse disagreement, 3 a fare ended in FAULT
for another cause (R492, R493). -/
def Tally.note (code : Nat) (u : Tally) : Tally := { u with journalLog := (code, u.live.fare) :: u.journalLog }

/-- Tally enters a state; each change is journaled, and SERVICE begins with no pulse seen (R492, R493, R495). -/
def Tally.enter (now : Nat) (st : TallyState) (u : Tally) : Tally :=
  let v := Tally.save now { u with live := { u.live with state := st } }
  if st = .service then { v with span0 := 0, span1 := 0, svcSeen := 0, svcOnes := 0, svcMarks := [0], imageBuf := [] } else v

/-- FOR_HIRE, which an open seal turns into SERVICE (R492). -/
def Tally.enterForHire (now : Nat) (u : Tally) : Tally :=
  Tally.enter now (if u.sealOpen then .service else .forHire) u

/-- The channels agreed over the last 1,000 channel-0 pulses received in SERVICE, or no pulse came (R493). Channel 1 has counted
over them what its count rose by from the pulse before them to the last one. -/
def Tally.serviceAgrees (u : Tally) : Bool :=
  let n := u.svcMarks.headD 0 - u.svcMarks.getD 1000 0
  (u.svcSeen == 0 && u.svcOnes == 0) || (decide (1000 ≤ u.svcSeen) && decide (980 ≤ n) && decide (n ≤ 1020))

/-- The seal closes in SERVICE (R493): FOR_HIRE with bit 9 cleared, or FAULT again. -/
def Tally.leaveService (now : Nat) (u : Tally) : Tally :=
  if u.tariff.isSome && u.serviceAgrees then Tally.enter now .forHire { u with live := { u.live with disagree := false } }
  else Tally.enter now .fault u

/-- The seal opens (R492, R493, R501). -/
def Tally.openSeal (now : Nat) (u : Tally) : Tally :=
  match u.live.state with
  | .forHire => Tally.enter now .service u
  | .hired => Tally.save now (Tally.note 1 u)
  | .fault => Tally.enter now .service (Tally.note (if u.live.disagree then 2 else 3) u)
  | .stopped => u
  | .service => u

/-- The seal's level changes (R492, R493). -/
def Tally.setSeal (now : Nat) (isOpen : Bool) (u : Tally) : Tally :=
  if isOpen = u.sealOpen then u
  else
    let v := { u with sealOpen := isOpen }
    if isOpen = true then v.openSeal now
    else if v.live.state = .service then v.leaveService now else v

/-! ### Wheel pulses (R494, R495) -/

/-- A finished span of 1,000 channel-0 pulses in which channel 1 counted more than 20 more or fewer (R494). -/
def Tally.spanDisagrees (u : Tally) : Bool := u.span0 == 1000 && (decide (1020 < u.span1) || decide (u.span1 < 980))

/-- The finished span awaits its PULSE_DISAGREEMENT: in FAULT nothing further follows, and in SERVICE R493 judges it. -/
def Tally.disagreementDue (u : Tally) : Bool :=
  u.spanDisagrees && u.live.state != .fault && u.live.state != .service

/-- The end of a span: one without a disagreement to report starts the next. -/
def Tally.endSpan (u : Tally) : Tally :=
  if u.span0 < 1000 ∨ u.disagreementDue = true then u else { u with span0 := 0, span1 := 0 }

/-- A channel-0 pulse; in SERVICE it notes how far channel 1 has counted there (R493). -/
def Tally.pulseZero (u : Tally) : Tally :=
  let service := decide (u.live.state = .service)
  let v :=
    { u with
      pulses0 := (u.pulses0 + 1) % 2 ^ 32, tickPulses := u.tickPulses + 1
      svcSeen := if service then u.svcSeen + 1 else u.svcSeen
      svcMarks := if service then (u.svcOnes :: u.svcMarks).take 1001 else u.svcMarks }
  if u.disagreementDue then v else Tally.endSpan { v with span0 := v.span0 + 1 }

/-- A channel-1 pulse. -/
def Tally.pulseOne (u : Tally) : Tally :=
  { u with
    pulses1 := (u.pulses1 + 1) % 2 ^ 32, span1 := if u.disagreementDue then u.span1 else u.span1 + 1
    svcOnes := if u.live.state = .service then u.svcOnes + 1 else u.svcOnes }

/-- WHEEL_PULSE (R494, R495): PULSES0 and PULSES1 count every pulse. -/
def execWheelPulse (t channel : Nat) (s : State) : Host.Outcome State Fault Refusal :=
  .next ((s.advance t).onTally (fun u => if channel = 0 then u.pulseZero else if channel = 1 then u.pulseOne else u))

/-- PULSE_DISAGREEMENT (R494): the fare is frozen and Tally enters FAULT. -/
def execPulseDisagreement (t : Nat) (s : State) : Host.Outcome State Fault Refusal :=
  let s := s.advance t
  .next (s.onTally (fun u =>
    if u.disagreementDue then
      Tally.enter s.now .fault { u with span0 := 0, span1 := 0, live := { u.live with disagree := true } }
    else u))

/-- TALLY_SEAL (R492, R493): the pin's level moves a running Tally; an unpowered one finds it at power-up. -/
def execTallySeal (t : Nat) (isOpen : Bool) (s : State) : Host.Outcome State Fault Refusal :=
  let s := s.advance t
  .next (if s.tallyRuns then { s with tally := s.tally.setSeal s.now isOpen }
    else if s.part = .fbz2400AT then { s with tally := { s.tally with sealOpen := isOpen } }
    else s)

/-! ### The fare (R494, R495) -/

/-- The fare of a tariff (R494), exactly: ⌊P_d × PER_KM / K_PULSE + T_t × PER_MIN / 600⌋ above FLAG_FALL. -/
def Tariff.fareOf (f : Tariff) (pulsesDist ticksTime : Nat) : Nat :=
  f.flagFall + (pulsesDist * f.perKm * 600 + ticksTime * f.perMin * f.kPulse) / (f.kPulse * 600)

/-- `p` channel-0 pulses reach the odometer, where a valid tariff is applied (R495). -/
def Fare.addMetres (tariff : Option Tariff) (p : Nat) (f : Fare) : Fare :=
  match tariff with
  | none => f
  | some x =>
    let r := f.rem + p * 1000
    { f with odo := (f.odo + r / x.kPulse) % 2 ^ 64, rem := r % x.kPulse }

/-- A tick with `p` pulses is a distance tick (R494). -/
def Tariff.isDistance (x : Tariff) (p : Nat) : Bool := decide (x.vSwitch * x.kPulse ≤ p * 36000)

/-- A tick of HIRED with `p` channel-0 pulses: distance or time, the fare and the trip fields (R494, R495). -/
def Fare.hiredTick (x : Tariff) (p : Nat) (f : Fare) : Fare :=
  let d := x.isDistance p
  let pd := if d then f.pulsesDist + p else f.pulsesDist
  let tt := if d then f.ticksTime else f.ticksTime + 1
  { f with
    pulsesHired := f.pulsesHired + p, tripTicks := f.tripTicks + 1, pulsesDist := pd, ticksTime := tt
    tripM := (f.pulsesHired + p) * 1000 / x.kPulse, fare := x.fareOf pd tt }

/-- The STATE word of the window (R497). -/
def Tally.stateWord (u : Tally) : Nat :=
  (match u.live.state with
    | .forHire => 0
    | .hired => 1
    | .stopped => 2
    | .fault => 3
    | .service => 4) +
  256 * bitOf u.sealOpen + 512 * bitOf u.live.disagree + 1024 * bitOf u.live.interrupted

/-- The window's 13 words (R497). -/
def Tally.words (u : Tally) : List Nat :=
  [ u.seq, u.stateWord, u.fwVersion, u.swId, (match u.tariff with | some x => x.id | none => 0), u.changeCount,
    u.live.fare, u.live.tripM, u.live.tripTicks, u.live.odo % 2 ^ 32, u.live.odo / 2 ^ 32, u.pulses0, u.pulses1 ].map
    (· % 2 ^ 32)

/-- The window's update: SEQ rises by 2 (R497). -/
def Tally.showWindow (u : Tally) : Tally :=
  let v := { u with seq := (u.seq + 2) % 2 ^ 32 }
  { v with window := v.words }

/-- The fare after a tick. -/
def Tally.tickFare (u : Tally) : Fare :=
  let f := u.live.addMetres u.tariff u.tickPulses
  match u.tariff with
  | some x => if u.live.state = .hired then f.hiredTick x u.tickPulses else f
  | none => f

/-- TALLY_TICK (R494, R495, R497): the end of a tick, once it has lasted 100 ms of the device's axis of time (log
entry 1). -/
def execTallyTick (t : Nat) (s : State) : Host.Outcome State Fault Refusal :=
  let s := s.advance t
  .next (s.onTally (fun u =>
    if s.now < u.tickAt + 100000000 then u
    else Tally.showWindow { u with live := u.tickFare, tickPulses := 0, tickAt := u.tickAt + 100000000 }))

/-- TALLY_JOURNAL (R495). -/
def execTallyJournal (t : Nat) (s : State) : Host.Outcome State Fault Refusal :=
  let s := s.advance t
  .next (s.onTally (Tally.save s.now))

/-! ### The display port (R492, R496) -/

/-- HIRE starts a fare in FOR_HIRE (R492, R495): its ticks begin with it, so the pulses of the tick under way go to the
odometer alone. -/
def Tally.hire (now : Nat) (u : Tally) : Tally :=
  match u.live.state, u.tariff with
  | .forHire, some x =>
    let f := u.live.addMetres u.tariff u.tickPulses
    Tally.enter now .hired
      { u with
        tickPulses := 0, tickAt := now
        live := { f with pulsesHired := 0, pulsesDist := 0, ticksTime := 0, tripM := 0, tripTicks := 0, fare := x.flagFall } }
  | _, _ => u

/-- HIRE (R492, R496). -/
def execHire (t : Nat) (crcOk : Bool) (s : State) : Host.Outcome State Fault Refusal :=
  let s := s.advance t
  .next (s.onDisplay crcOk (Tally.hire s.now))

/-- STOP (R492, R496): the fare is frozen. -/
def execStop (t : Nat) (crcOk : Bool) (s : State) : Host.Outcome State Fault Refusal :=
  let s := s.advance t
  .next (s.onDisplay crcOk (fun u => if u.live.state = .hired then Tally.enter s.now .stopped u else u))

/-- CLEAR (R492, R496, R497): INTERRUPTED ends with it. -/
def execClearFare (t : Nat) (crcOk : Bool) (s : State) : Host.Outcome State Fault Refusal :=
  let s := s.advance t
  .next (s.onDisplay crcOk (fun u =>
    if u.live.state = .stopped then Tally.enterForHire s.now { u with live := { u.live with interrupted := false } } else u))

/-- A frame on TALLY_TXD (R496): STX, TYPE, LEN, the payload, its CRC high byte first, ETX. -/
def tallyFrame (type : Nat) (payload : List Byte) : List Byte :=
  let body := toLe 1 type ++ toLe 1 payload.length ++ payload
  let c := crc16 body
  toLe 1 0x02 ++ body ++ toLe 1 (c / 256) ++ toLe 1 c ++ toLe 1 0x03

/-- A decimal digit in ASCII. -/
def asciiDigit (n : Nat) : Byte := BitVec.ofNat 8 (48 + n % 10)

/-- A number below 10,000 in ASCII, without leading zeros. -/
def asciiDecimal (n : Nat) : List Byte :=
  (if 1000 ≤ n then [asciiDigit (n / 1000)] else []) ++ (if 100 ≤ n then [asciiDigit (n / 100)] else []) ++
    (if 10 ≤ n then [asciiDigit (n / 10)] else []) ++ [asciiDigit n]

/-- A hexadecimal digit in ASCII. -/
def asciiHex (n : Nat) : Byte := BitVec.ofNat 8 (if n % 16 < 10 then 48 + n % 16 else 55 + n % 16)

/-- The software identification (R491): "TL", the version and the eight digits of SW_ID. -/
def Tally.identText (u : Tally) : List Byte :=
  [0x54#8, 0x4C#8] ++ asciiDecimal (field u.fwVersion 31 24) ++ [0x2E#8] ++ asciiDecimal (field u.fwVersion 23 12) ++
    [0x2E#8] ++ asciiDecimal (field u.fwVersion 11 0) ++
    ((List.range 8).map (fun i => asciiHex (u.swId / 16 ^ (7 - i))))

/-- A frame is sent. -/
def Tally.send (type : Nat) (payload : List Byte) (u : Tally) : Tally :=
  { u with sentFrames := tallyFrame type payload :: u.sentFrames }

/-- IDENT (R491, R496). -/
def execIdent (t : Nat) (crcOk : Bool) (s : State) : Host.Outcome State Fault Refusal :=
  .next ((s.advance t).onDisplay crcOk (fun u => u.send 0x02 u.identText))

/-- TALLY_FRAME_SEND (R496): bytes 0x000 to 0x033 of the window. -/
def execTallyFrameSend (t : Nat) (s : State) : Host.Outcome State Fault Refusal :=
  .next ((s.advance t).onTally (fun u => u.send 0x01 (u.window.flatMap (toLe 4))))

/-! ### Images (R491, R494) -/

/-- The tariff a body gives; none where K_PULSE is outside its limits (R494). -/
def tariffOf (body : List Byte) : Option Tariff :=
  let k := leAt body 4 4
  if 500 ≤ k ∧ k ≤ 100000 then
    some { id := leAt body 0 4, kPulse := k, flagFall := leAt body 8 4, perKm := leAt body 12 4, perMin := leAt body 16 4,
           vSwitch := leAt body 20 2, currency := leAt body 22 2 }
  else none

/-- The key hash that an image's signer names in Tally: the metrology hash (R491). -/
def Tally.keyHash (u : Tally) (signer : Nat) : Option (List Byte) := if signer = 3 then some u.metroHash else none

/-- A complete image (R491): accepted, it is applied and CHANGE_COUNT rises; otherwise nothing changes. -/
def Tally.takeImage (p : Part) (now : Nat) (u : Tally) (i : List Byte) : Tally :=
  let ok := fun t => decide (u.changeCount < 1024) && imageCheck p u.keyHash u.rollback t i == 0
  if ok 8 then { u with fwVersion := imgVersion i, swId := leNat ((imgDigest i).take 4), changeCount := u.changeCount + 1 }
  else if ok 9 then
    match tariffOf (imgBody i) with
    | none => u
    | some x =>
      Tally.save now
        { u with
          tariff := some x, tariffBody := (imgBody i).take 24, changeCount := u.changeCount + 1
          live := { u.live with rem := 0 } }
  else u

/-- IMAGE_SEGMENT (R491, R496): only in SERVICE; the last segment completes the image. -/
def execImageSegment (t : Nat) (data : List Byte) (last crcOk : Bool) (s : State) : Host.Outcome State Fault Refusal :=
  let s := s.advance t
  .next (s.onDisplay crcOk (fun u =>
    if u.live.state = .service then
      let buf := u.imageBuf ++ data
      if last then Tally.takeImage s.part s.now { u with imageBuf := [] } buf else { u with imageBuf := buf }
    else u))

/-! ### Supply (R490, R497) -/

/-- The state Tally powers up in (R492, R493, R497). -/
def Tally.resume (now : Nat) (u : Tally) : Tally :=
  match u.live.state with
  | .hired => Tally.enter now .stopped { u with live := { u.live with interrupted := true } }
  | .stopped => if u.live.interrupted then u else Tally.enterForHire now u
  | .fault => u
  | .service => if u.sealOpen then Tally.enter now .service u else u.leaveService now
  | .forHire => if u.tariff.isSome then Tally.enterForHire now u else Tally.enter now .fault u

/-- TALLY_POWER_UP (R491, R492, R497): Tally resumes from its journal and shows its identification. -/
def execTallyPowerUp (t : Nat) (s : State) : Host.Outcome State Fault Refusal :=
  let s := s.advance t
  .next (if s.part = .fbz2400AT ∧ s.tally.powered = false then
    let u :=
      { s.tally with
        powered := true, live := s.tally.journal, pulses0 := 0, pulses1 := 0, tickPulses := 0, tickAt := s.now, span0 := 0, span1 := 0
        svcSeen := 0, svcOnes := 0, svcMarks := [0], imageBuf := [], seq := 0, window := List.replicate 13 0 }
    let v := Tally.resume s.now u
    { s with tally := v.send 0x02 v.identText }
  else s)

/-- VAUX_TALLY_LOSS (R490, R497): Tally stops, and every word of its window reads 0. -/
def execVauxTallyLoss (t : Nat) (s : State) : Host.Outcome State Fault Refusal :=
  .next ((s.advance t).onTally (fun u => { u with powered := false, window := List.replicate 13 0 }))

end Sys2Proof.Machine
end

