-- ==== Sys2Proof/Machine/Dispatch.lean ====
section
/-! DEFINITION. One arm per command of the table: a direct call of its meaning. -/

namespace Sys2Proof.Machine

open Sys2Proof

/-- The effect of a command on everything but the queue. -/
def exec (i : Instr) (s : State) : Host.Outcome State Fault Refusal :=
  match i with
  | .mmul t h ctx upset => Sys2Proof.Machine.execMmul t h ctx upset s
  | .conv t h ctx upset => Sys2Proof.Machine.execConv t h ctx upset s
  | .tconv t h ctx upset => Sys2Proof.Machine.execTconv t h ctx upset s
  | .pool t h ctx => Sys2Proof.Machine.execPool t h ctx s
  | .rsmp t h ctx => Sys2Proof.Machine.execRsmp t h ctx s
  | .ewise t h ctx => Sys2Proof.Machine.execEwise t h ctx s
  | .norm t h ctx => Sys2Proof.Machine.execNorm t h ctx s
  | .attn t h ctx upset => Sys2Proof.Machine.execAttn t h ctx upset s
  | .attb t h ctx upset => Sys2Proof.Machine.execAttb t h ctx upset s
  | .topk t h ctx => Sys2Proof.Machine.execTopk t h ctx s
  | .cvt t h ctx => Sys2Proof.Machine.execCvt t h ctx s
  | .moveCopy t h ctx => Sys2Proof.Machine.execMoveCopy t h ctx s
  | .moveHalo t h ctx => Sys2Proof.Machine.execMoveHalo t h ctx s
  | .moveKvPage t h ctx => Sys2Proof.Machine.execMoveKvPage t h ctx s
  | .moveAtomic t h ctx => Sys2Proof.Machine.execMoveAtomic t h ctx s
  | .cuew t h ctx halo => Sys2Proof.Machine.execCuew t h ctx halo s
  | .cues t h ctx => Sys2Proof.Machine.execCues t h ctx s
  | .fence t h ctx => Sys2Proof.Machine.execFence t h ctx s
  | .print t h printing => Sys2Proof.Machine.execPrint t h printing s
  | .killComplete t h ctx => Sys2Proof.Machine.execKillComplete t h ctx s
  | .commandWatchdog t h ctx => Sys2Proof.Machine.execCommandWatchdog t h ctx s
  | .cueHoldOverrun t h ctx => Sys2Proof.Machine.execCueHoldOverrun t h ctx s
  | .slotOverrun t h ctx => Sys2Proof.Machine.execSlotOverrun t h ctx s
  | .partReset t h part => Sys2Proof.Machine.execPartReset t h part s
  | .partResetOverrun t h part => Sys2Proof.Machine.execPartResetOverrun t h part s
  | .sheetLine t h => Sys2Proof.Machine.execSheetLine t h s
  | .groupDisableDone t h group => Sys2Proof.Machine.execGroupDisableDone t h group s
  | .deadlineMiss t h stream frame => Sys2Proof.Machine.execDeadlineMiss t h stream frame s
  | .withheld t h stream frame => Sys2Proof.Machine.execWithheld t h stream frame s
  | .backupTime t h stream frame => Sys2Proof.Machine.execBackupTime t h stream frame s
  | .printTokenGrant t h ctx tie => Sys2Proof.Machine.execPrintTokenGrant t h ctx tie s
  | .lineResponse t h thread gen addr check => Sys2Proof.Machine.execLineResponse t h thread gen addr check s
  | .bankCtlWrite t h bank value who => Sys2Proof.Machine.execBankCtlWrite t h bank value who s
  | .scrubDone t h bank => Sys2Proof.Machine.execScrubDone t h bank s
  | .scrubber t h check => Sys2Proof.Machine.execScrubber t h check s
  | .dollyApply t h world => Sys2Proof.Machine.execDollyApply t h world s
  | .groupCtlWrite t h group value world => Sys2Proof.Machine.execGroupCtlWrite t h group value world s
  | .hbmRefresh t h pc bank => Sys2Proof.Machine.execHbmRefresh t h pc bank s
  | .hbmRetrainStep t h pc bank => Sys2Proof.Machine.execHbmRetrainStep t h pc bank s
  | .retrainDue t h => Sys2Proof.Machine.execRetrainDue t h s
  | .hbmRetrainLate t h => Sys2Proof.Machine.execHbmRetrainLate t h s
  | .hbmTraining t h ok lanes => Sys2Proof.Machine.execHbmTraining t h ok lanes s
  | .hbmTempRead t h temp => Sys2Proof.Machine.execHbmTempRead t h temp s
  | .hbmReadResponse t h port addr answer => Sys2Proof.Machine.execHbmReadResponse t h port addr answer s
  | .hbmWrite t h port addr data check => Sys2Proof.Machine.execHbmWrite t h port addr data check s
  | .hbmParity t h port addr again => Sys2Proof.Machine.execHbmParity t h port addr again s
  | .hbmTimeout t h port addr => Sys2Proof.Machine.execHbmTimeout t h port addr s
  | .hbmApply t h world => Sys2Proof.Machine.execHbmApply t h world s
  | .flitReceive t h check => Sys2Proof.Machine.execFlitReceive t h check s
  | .flitReplay t h ok => Sys2Proof.Machine.execFlitReplay t h ok s
  | .creditReturn t h part => Sys2Proof.Machine.execCreditReturn t h part s
  | .controlMessage t h => Sys2Proof.Machine.execControlMessage t h s
  | .writeComplete t h ctx => Sys2Proof.Machine.execWriteComplete t h ctx s
  | .killNotice t h ctx => Sys2Proof.Machine.execKillNotice t h ctx s
  | .ctrDown t h => Sys2Proof.Machine.execCtrDown t h s
  | .ctrDegraded t h => Sys2Proof.Machine.execCtrDegraded t h s
  | .ctrTrain t spares => Sys2Proof.Machine.execCtrTrain t spares s
  | .ctrRetrain t h world => Sys2Proof.Machine.execCtrRetrain t h world s
  | .ctrApply t h world => Sys2Proof.Machine.execCtrApply t h world s
  | .protCtlApply t h value world => Sys2Proof.Machine.execProtCtlApply t h value world s
  | .frameStart t h port vc corrected => Sys2Proof.Machine.execFrameStart t h port vc corrected s
  | .frameEnd t h port vc corrected => Sys2Proof.Machine.execFrameEnd t h port vc corrected s
  | .lineStart t h port vc corrected => Sys2Proof.Machine.execLineStart t h port vc corrected s
  | .longPacket t h port vc dt wordCount payload crcOk corrected => Sys2Proof.Machine.execLongPacket t h port vc dt wordCount payload crcOk corrected s
  | .lineLate t h stream frame => Sys2Proof.Machine.execLineLate t h stream frame s
  | .lineCount t h stream => Sys2Proof.Machine.execLineCount t h stream s
  | .lineLock t h => Sys2Proof.Machine.execLineLock t h s
  | .lineUnlock t h => Sys2Proof.Machine.execLineUnlock t h s
  | .fsyncFault t h output => Sys2Proof.Machine.execFsyncFault t h output s
  | .hznApply t h world => Sys2Proof.Machine.execHznApply t h world s
  | .sheetFrameAdopt t h lane => Sys2Proof.Machine.execSheetFrameAdopt t h lane s
  | .resultCopy t h stream parity => Sys2Proof.Machine.execResultCopy t h stream parity s
  | .consumerRead t h ring consumer => Sys2Proof.Machine.execConsumerRead t h ring consumer s
  | .gap t h ring producer nextSeq lastFrame => Sys2Proof.Machine.execGap t h ring producer nextSeq lastFrame s
  | .lockstepMismatch t h pair => Sys2Proof.Machine.execLockstepMismatch t h pair s
  | .coreSelftest t h pair verdict => Sys2Proof.Machine.execCoreSelftest t h pair verdict s
  | .lockstepInput t h pair => Sys2Proof.Machine.execLockstepInput t h pair s
  | .debugHalt t h pair => Sys2Proof.Machine.execDebugHalt t h pair s
  | .debugWrite t h pair what bytes replayed => Sys2Proof.Machine.execDebugWrite t h pair what bytes replayed s
  | .debugResume t h pair => Sys2Proof.Machine.execDebugResume t h pair s
  | .heartbeatSend t h => Sys2Proof.Machine.execHeartbeatSend t h s
  | .heartbeatReceive t h lane bytes => Sys2Proof.Machine.execHeartbeatReceive t h lane bytes s
  | .hbLane t h lane => Sys2Proof.Machine.execHbLane t h lane s
  | .pairing t h => Sys2Proof.Machine.execPairing t h s
  | .partnerLost t h => Sys2Proof.Machine.execPartnerLost t h s
  | .halfDown t h frames => Sys2Proof.Machine.execHalfDown t h frames s
  | .restartReq t h => Sys2Proof.Machine.execRestartReq t h s
  | .halfRestart t h snapshotOk coreOk => Sys2Proof.Machine.execHalfRestart t h snapshotOk coreOk s
  | .serviceReady t h => Sys2Proof.Machine.execServiceReady t h s
  | .disagreementLimit t h unit => Sys2Proof.Machine.execDisagreementLimit t h unit s
  | .leaderRepeat t h stream => Sys2Proof.Machine.execLeaderRepeat t h stream s
  | .localise t h fails => Sys2Proof.Machine.execLocalise t h fails s
  | .postFp t h pass => Sys2Proof.Machine.execPostFp t h pass s
  | .outlierSlice t h pass => Sys2Proof.Machine.execOutlierSlice t h pass s
  | .threadSlice t h group pass => Sys2Proof.Machine.execThreadSlice t h group pass s
  | .bankMarch t h bank pass => Sys2Proof.Machine.execBankMarch t h bank pass s
  | .slabScoreDecay t h slab => Sys2Proof.Machine.execSlabScoreDecay t h slab s
  | .slabRetired t h slab => Sys2Proof.Machine.execSlabRetired t h slab s
  | .derate t h unit band => Sys2Proof.Machine.execDerate t h unit band s
  | .dirWatchdog t h => Sys2Proof.Machine.execDirWatchdog t h s
  | .islWatchdog t h => Sys2Proof.Machine.execIslWatchdog t h s
  | .halfCtlReturn t ch h => Sys2Proof.Machine.execHalfCtlReturn t ch h s
  | .halfCtlHoldOut t ch h => Sys2Proof.Machine.execHalfCtlHoldOut t ch h s
  | .halfCtlRestart t ch h => Sys2Proof.Machine.execHalfCtlRestart t ch h s
  | .halfCtlRetire t ch h => Sys2Proof.Machine.execHalfCtlRetire t ch h s
  | .derateClear t ch h mask => Sys2Proof.Machine.execDerateClear t ch h mask s
  | .powerOn t h => Sys2Proof.Machine.execPowerOn t h s
  | .fuseSense t h vioOk => Sys2Proof.Machine.execFuseSense t h vioOk s
  | .slateFill t h => Sys2Proof.Machine.execSlateFill t h s
  | .brownOut t => Sys2Proof.Machine.execBrownOut t s
  | .supplyRange t h mv => Sys2Proof.Machine.execSupplyRange t h mv s
  | .regFault t h rail mv => Sys2Proof.Machine.execRegFault t h rail mv s
  | .clockFault t h => Sys2Proof.Machine.execClockFault t h s
  | .sensorRead t h readings power16 inNtc outNtc => Sys2Proof.Machine.execSensorRead t h readings power16 inNtc outNtc s
  | .throttleUpdate t h => Sys2Proof.Machine.execThrottleUpdate t h s
  | .thermalTrip t h => Sys2Proof.Machine.execThermalTrip t h s
  | .thermalTripHw t h => Sys2Proof.Machine.execThermalTripHw t h s
  | .flowPulse t h => Sys2Proof.Machine.execFlowPulse t h s
  | .coolStatusChange t h bit => Sys2Proof.Machine.execCoolStatusChange t h bit s
  | .degradedExit t h => Sys2Proof.Machine.execDegradedExit t h s
  | .ageMeasure t h temp slowdowns => Sys2Proof.Machine.execAgeMeasure t h temp slowdowns s
  | .shutdownBist t ch vinMv refPpm => Sys2Proof.Machine.execShutdownBist t ch vinMv refPpm s
  | .shutdown t ch => Sys2Proof.Machine.execShutdown t ch s
  | .restart t ch => Sys2Proof.Machine.execRestart t ch s
  | .bistDone t h columns slabs units => Sys2Proof.Machine.execBistDone t h columns slabs units s
  | .dictRead t ch txn index sub offset max => Sys2Proof.Machine.execDictRead t ch txn index sub offset max s
  | .dictWrite t ch txn index sub offset last data => Sys2Proof.Machine.execDictWrite t ch txn index sub offset last data s
  | .dictCancel t ch txn => Sys2Proof.Machine.execDictCancel t ch txn s
  | .dictTimeout t ch => Sys2Proof.Machine.execDictTimeout t ch s
  | .openSession t ch h => Sys2Proof.Machine.execOpenSession t ch h s
  | .commit t ch h => Sys2Proof.Machine.execCommit t ch h s
  | .discard t ch h => Sys2Proof.Machine.execDiscard t ch h s
  | .sessionExpire t h => Sys2Proof.Machine.execSessionExpire t h s
  | .arm t ch h => Sys2Proof.Machine.execArm t ch h s
  | .disarm t ch h => Sys2Proof.Machine.execDisarm t ch h s
  | .clear t ch h ctx => Sys2Proof.Machine.execClear t ch h ctx s
  | .rollbackCommit t ch type => Sys2Proof.Machine.execRollbackCommit t ch type s
  | .keyProgram t ch slot hash => Sys2Proof.Machine.execKeyProgram t ch slot hash s
  | .revokeKey t ch slot => Sys2Proof.Machine.execRevokeKey t ch slot s
  | .attestNonce t ch nonce => Sys2Proof.Machine.execAttestNonce t ch nonce s
  | .updateImage t ch image => Sys2Proof.Machine.execUpdateImage t ch image s
  | .cmd0 t => Sys2Proof.Machine.execCmd0 t s
  | .cmd3 t => Sys2Proof.Machine.execCmd3 t s
  | .cmd5 t arg => Sys2Proof.Machine.execCmd5 t arg s
  | .cmd7 t arg => Sys2Proof.Machine.execCmd7 t arg s
  | .cmd11 t => Sys2Proof.Machine.execCmd11 t s
  | .cmd15 t arg => Sys2Proof.Machine.execCmd15 t arg s
  | .cmd19 t => Sys2Proof.Machine.execCmd19 t s
  | .cmd52 t arg => Sys2Proof.Machine.execCmd52 t arg s
  | .cmd53 t arg data => Sys2Proof.Machine.execCmd53 t arg data s
  | .doorbell t value => Sys2Proof.Machine.execDoorbell t value s
  | .rspRead t => Sys2Proof.Machine.execRspRead t s
  | .ioAbort t function => Sys2Proof.Machine.execIoAbort t function s
  | .sdioDataTimeout t => Sys2Proof.Machine.execSdioDataTimeout t s
  | .canRequest t h id fd data => Sys2Proof.Machine.execCanRequest t h id fd data s
  | .emcySend t h => Sys2Proof.Machine.execEmcySend t h s
  | .busOff t h => Sys2Proof.Machine.execBusOff t h s
  | .busOffRecovery t h => Sys2Proof.Machine.execBusOffRecovery t h s
  | .bar0Write t h offset data => Sys2Proof.Machine.execBar0Write t h offset data s
  | .bar2Write t h offset data => Sys2Proof.Machine.execBar2Write t h offset data s
  | .bar2Read t h offset len => Sys2Proof.Machine.execBar2Read t h offset len s
  | .hotReset t h => Sys2Proof.Machine.execHotReset t h s
  | .pciePerst t pin => Sys2Proof.Machine.execPciePerst t pin s
  | .linkUp t h speed width => Sys2Proof.Machine.execLinkUp t h speed width s
  | .registerWrite t h offset value world => Sys2Proof.Machine.execRegisterWrite t h offset value world s
  | .wheelPulse t channel => Sys2Proof.Machine.execWheelPulse t channel s
  | .tallySeal t isOpen => Sys2Proof.Machine.execTallySeal t isOpen s
  | .hire t crcOk => Sys2Proof.Machine.execHire t crcOk s
  | .stop t crcOk => Sys2Proof.Machine.execStop t crcOk s
  | .clearFare t crcOk => Sys2Proof.Machine.execClearFare t crcOk s
  | .ident t crcOk => Sys2Proof.Machine.execIdent t crcOk s
  | .imageSegment t data last crcOk => Sys2Proof.Machine.execImageSegment t data last crcOk s
  | .tallyTick t => Sys2Proof.Machine.execTallyTick t s
  | .pulseDisagreement t => Sys2Proof.Machine.execPulseDisagreement t s
  | .tallyFrameSend t => Sys2Proof.Machine.execTallyFrameSend t s
  | .tallyJournal t => Sys2Proof.Machine.execTallyJournal t s
  | .tallyPowerUp t => Sys2Proof.Machine.execTallyPowerUp t s
  | .pairingTimeout t h => Sys2Proof.Machine.execPairingTimeout t h s
  | .tokenBucketRefill t h ns => Sys2Proof.Machine.execTokenBucketRefill t h ns s
  | .bootStageDone t h stage => Sys2Proof.Machine.execBootStageDone t h stage s
  | .hdrUe t h port => Sys2Proof.Machine.execHdrUe t h port s
  | .pcieConfigWrite t h offset value => Sys2Proof.Machine.execPcieConfigWrite t h offset value s
  | .msixTableWrite t h offset data => Sys2Proof.Machine.execMsixTableWrite t h offset data s
  | .vauxTallyLoss t => Sys2Proof.Machine.execVauxTallyLoss t s
  | .canRejoin t h => Sys2Proof.Machine.execCanRejoin t h s
  | .updateWritten t h => Sys2Proof.Machine.execUpdateWritten t h s

end Sys2Proof.Machine
end

