-- ==== Sys2Proof/Safety.lean ====
section
/-! DEFINITION. What counts as a safe step. -/

namespace Sys2Proof.Machine

open Sys2Proof

/-- A step is safe when it answers a next state. -/
def SafeStep (s : State) : Prop := ∃ t, step s = .next t

end Sys2Proof.Machine
end

