-- ==== Sys2Proof/Certificates/Slice0/Obligations.lean ====
section
/-! DEFINITION. The statements about the model, each a proposition for the provers. -/

open Sys2Proof Sys2Proof.Machine

/-! ### The queue and the whole machine -/

/-- A step takes the command at the front of the queue and runs it with the queue's rest (the block's step). -/
def Claim.FrontCommandRuns : Prop :=
  ∀ (c : Instr) (s : State) (rest : List Instr), s.pending = c :: rest →
    step s = exec c { s with pending := rest }

/-- On an empty queue the block idles (log entry 2: the model's choice). It also rests on log entry 3. -/
def Claim.EmptyQueueIdles : Prop :=
  ∀ s : State, s.pending = [] → step s = .next s

/-- Every command answers a next state, whatever the state: the block never stops. -/
def Claim.EveryCommandAnswers : Prop :=
  ∀ (i : Instr) (s : State), ∃ t, exec i s = .next t

/-- A command changes neither the queue nor what the part is, holds no objects for its checks afterwards that it did not hold
before (R100), and never sets the time axis back (log entry 1). -/
def Claim.CommandsKeepQueueAndPart : Prop :=
  ∀ (i : Instr) (s t : State), exec i s = .next t →
    t.pending = s.pending ∧ t.part = s.part ∧ t.uniqueId = s.uniqueId ∧ t.held = s.held ∧ s.now ≤ t.now

/-- Device memory and host memory are in canonical form. -/
def CanonicalMemories (s : State) : Prop := Memory.wf s.mem = true ∧ Memory.wf s.hostMem = true

/-- Every step keeps both memories in canonical form. -/
def Obligations.StepKeepsCanonicalMemories : Prop :=
  ∀ s t : State, CanonicalMemories s → step s = .next t → CanonicalMemories t

/-- Both memories are in canonical form at reset, where nothing is listed (log entry 4). -/
def Claim.ResetMemoriesCanonical : Prop := CanonicalMemories State.reset

/-- A byte of device memory reads as the last store to it wrote, and a store leaves every other byte as it was. -/
def Obligations.StoredBytesReadBack : Prop :=
  ∀ (s : State) (a : Nat) (l : List Byte), Memory.wf s.mem = true →
    (∀ k, k < l.length → (s.writeBytes a l).readByte (a + k) = l.getD k 0) ∧
    (∀ b, (b < a ∨ a + l.length ≤ b) → (s.writeBytes a l).readByte b = s.readByte b)

/-- What R374 says of the outside of a fenced half, for both halves: while neither half is running unfenced, no command
puts anything into host memory, so a record not yet counted never becomes visible. -/
def Obligations.FencedHalvesPostNothing : Prop :=
  ∀ (i : Instr) (s t : State), s.live .a = false → s.live .b = false → exec i s = .next t → t.hostMem = s.hostMem

/-- The commands of the Tally unit's own table rows. -/
def isTallyRow : Instr → Bool
  | .wheelPulse _ _ | .tallySeal _ _ | .hire _ _ | .stop _ _ | .clearFare _ _ | .ident _ _ | .imageSegment _ _ _ _
  | .tallyTick _ | .pulseDisagreement _ | .tallyFrameSend _ | .tallyJournal _ | .tallyPowerUp _ | .vauxTallyLoss _ => true
  | _ => false

/-- The Tally unit is set apart from the halves: only its own rows change its fare, odometer, tariff, journal and window.
What every other command can change are the island's three notes of what it last saw there (R501). -/
def Obligations.TallyIsSetApart : Prop :=
  ∀ (i : Instr) (s t : State), isTallyRow i = false → exec i s = .next t →
    t.tally = { s.tally with
      islSeal := t.tally.islSeal, islState := t.tally.islState, islCount := t.tally.islCount }

/-- A brown-out finds the programming of a customer slot's hash under way, or last done (R501). -/
def CutsSlot (i : Instr) (x : Boot) (k : Nat) : Prop := (∃ t, i = .brownOut t) ∧ ∃ b, x.keyBurnt = some (k, b)

/-- A brown-out finds the programming of a rollback counter under way, or last done (R501). -/
def CutsCounter (i : Instr) (x : Boot) (k : Nat) : Prop :=
  (∃ t, i = .brownOut t) ∧ ∃ n b old, x.rollBurnt = some (n, b, old) ∧ n - 1 = k

/-- Key fuses and rollback counters are only ever burnt, whatever the command, a write or a restart: a revoked slot stays
revoked, a programmed one programmed, a hash that is not blank never changes, and no rollback number falls. The one
exception is a brown-out that interrupts the programming itself (R501, log entry 131): it can leave the one slot or counter last
programmed with fewer bits, and revokes nothing back. -/
def Obligations.KeyFusesOnlyBurn : Prop :=
  ∀ (i : Instr) (s t : State) (h : Half) (k : Nat), exec i s = .next t →
    let x := (s.half h).boot
    let y := (t.half h).boot
    (x.custRevoked.getD k false = true → y.custRevoked.getD k false = true) ∧
    (¬ CutsSlot i x k → x.custProgrammed.getD k false = true → y.custProgrammed.getD k false = true) ∧
    (¬ CutsSlot i x k → x.slotBlank k = false → y.custHash.getD k [] = x.custHash.getD k []) ∧
    (¬ CutsCounter i x k → x.rollback.getD k 0 ≤ y.rollback.getD k 0)

/-- LOCK in effect (R315): no command, the boot chain's own row among them, changes a half's region descriptors, ENFORCE or
LOCK, whether staged or in effect, until the half restarts or loses its supply, which leaves its protection block as reset
has it and its boot chain before its first stage, with no firmware running. -/
def Obligations.RegionLockHolds : Prop :=
  ∀ (i : Instr) (s t : State) (h : Half),
    (s.half h).prot.lock = true → (s.half h).prot.pending = false → exec i s = .next t →
    (t.half h).prot = (s.half h).prot ∨
    ((t.half h).prot = {} ∧ (t.half h).boot.stage = 0 ∧ (t.half h).boot.nsRunning = false ∧ (t.half h).boot.failed = false)

/-- A step takes the command at the front of the queue and runs it with the queue's rest; on an empty queue the block
idles. -/
def Obligations.StepRunsFront : Prop := Claim.FrontCommandRuns ∧ Claim.EmptyQueueIdles

/-- Every command answers a next state, and changes neither the queue nor what the part is, and never sets time back. -/
def Obligations.CommandsAnswer : Prop := Claim.EveryCommandAnswers ∧ Claim.CommandsKeepQueueAndPart

/-! ### Commands of a job -/

/-- The rows of a job's command, each with the operation and the MODE it stands for and the upset it carries. -/
def jobRows (t : Nat) (h : Half) (ctx : Nat) (u : Option Upset) (halo : Option (Nat × Nat)) :
    List (Op × Option Nat × Option Upset × Instr) :=
  [(.mmul, none, u, .mmul t h ctx u), (.conv, none, u, .conv t h ctx u), (.tconv, none, u, .tconv t h ctx u),
   (.pool, none, none, .pool t h ctx), (.rsmp, none, none, .rsmp t h ctx), (.ewise, none, none, .ewise t h ctx),
   (.norm, none, none, .norm t h ctx), (.attn, none, u, .attn t h ctx u), (.attb, none, u, .attb t h ctx u),
   (.topk, none, none, .topk t h ctx), (.cvt, none, none, .cvt t h ctx), (.move, some 0, none, .moveCopy t h ctx),
   (.move, some 1, none, .moveHalo t h ctx), (.move, some 2, none, .moveKvPage t h ctx),
   (.move, some 3, none, .moveAtomic t h ctx), (.cuew, none, none, .cuew t h ctx halo), (.cues, none, none, .cues t h ctx),
   (.fence, none, none, .fence t h ctx)]

/-- The state as the work of a command sees it, its tokens spent (R169, R170): its objects are those fetched at issue (R100). -/
def fetched (s : State) (h : Half) (ctx : Nat) (e : Exec) : State := (s.admitRequests h ctx).withObjects e.objects

/-- The state in which a command that holds its threads works: the tokens of its requests are spent (R169, R170), and the
page extents of an ATTN have joined its declared inputs (R212). -/
def atWork (s : State) (h : Half) (ctx : Nat) (e : Exec) : State :=
  let v := fetched s h ctx e
  (s.admitRequests h ctx).modJob h ctx (fun j =>
    { j with exec := j.exec.map (fun x => { x with inputs := v.chainInputs e.recs ++ v.pageInputs e.recs }) })

/-- A command at work on threads already taken, in the state `s`, completes: its pages, its accesses and its banks admit it, the
lines that its ZBM drains turn out to write find their tokens (R193), and its effect comes to the results `w` and the atomics `log`,
without a CLIP that a wide variant would take. -/
def Completes (s : State) (h : Half) (ctx : Nat) (e : Exec) (u : Option Upset) (w : Written) (log : List (BitVec 64)) :
    Prop :=
  let v := fetched s h ctx e
  let s2 := atWork s h ctx e
  e.requests.1 ≤ (s.half h).dolly.tokensFor 0 (ctx / 32) ∧ e.requests.2 ≤ (s.half h).dolly.tokensFor 1 (ctx / 32) ∧
  v.pagesRefused h ctx e.recs = none ∧ v.decodeFails h e.recs = none ∧ v.regionFails h ctx e.recs = none ∧
  v.runChain h ctx e.wide u e.recs = .done w log ∧
  (e.drained = true ∨ ((s2.drainPacked h ctx e w).job h ctx).admitted = true) ∧
  (∀ a ∈ s2.poolLines h (linesOf (w.cells ++ w.flow)),
    s2.jobOwns h ctx (bankAt h a) = true ∧ (s2.bank h (bankAt h a)).scrubbing = false) ∧
  (w.fl.clip && (e.recs.headD (parseRec [])).guard) = false

/-- What stands of a command that has written all its results: they are in its dark regions, with its flags, and it waits for
its print. Those of a move into the partner's pool are on their way there in packets, sent or waiting for a credit, whose
acknowledgements are due (R304, R307). -/
def StandsWritten (s : State) (h : Half) (ctx : Nat) (e : Exec) (w : Written) (log : List (BitVec 64)) (u : State) : Prop :=
  let v := fetched s h ctx e
  let c := e.recs.headD (parseRec [])
  let packets := runPackets ctx (!(s.jobSecure h ctx)) (v.moveRuns h c)
  (u.job h ctx).exec.map (fun x => (x.phase, x.staged, x.printLog, x.clip, x.nan, x.infIn, x.requests)) =
    some (.written, if v.pushes h c then [] else w.cells, log, w.fl.clip, w.fl.nan, w.fl.infIn, (0, 0)) ∧
  (v.pushes h c = true → (u.job h ctx).exec.map (·.acksDue) = some packets.length ∧
    ∀ p ∈ packets, p ∈ (u.half h).link.outData ∨ p ∈ (u.half h).link.unsent) ∧
  u.mem = s.mem ∧ u.hostMem = s.hostMem ∧ u.tally = s.tally ∧ u.half (otherHalf h) = s.half (otherHalf h)

/-- A dispatched command that holds its threads and the tokens of its requests, whose record the row stands for and whose
accesses are admitted, writes all its results into its dark regions (or sends them to the partner's pool), with its
flags: it stands written, and waits for its print (R28, R116). No byte of memory changes. Requests count the lines of
residuals too (log entry 137), they are counted together and the data move in one step once all are admitted (log entry 35), and
undefined bytes are free (log entry 8): the model's choices. -/
def Claim.CommandsWriteResults : Prop :=
  ∀ (t : Nat) (h : Half) (ctx : Nat) (u : Option Upset) (halo : Option (Nat × Nat)) (s0 : State) (e : Exec) (w : Written)
    (log : List (BitVec 64)) (r : Op × Option Nat × Option Upset × Instr),
    let s := s0.advance t
    r ∈ jobRows t h ctx u halo → s.live h = true → (s.half h).disp.running = some ctx → (s.job h ctx).exec = some e →
    e.phase = .resumable → e.threads ≠ [] → (parseRec e.record).isRow r.1 r.2.1 = true → Completes s h ctx e r.2.2.1 w log →
    ∃ s1 : State, exec r.2.2.2 s0 = .next s1.dispatchBoth ∧ StandsWritten s h ctx e w log s1

/-- The halo operand is CUEW's alone. -/
def rowHalo (r : Op × Option Nat × Option Upset × Instr) (halo : Option (Nat × Nat)) : Option (Nat × Nat) :=
  if r.1 = .cuew then halo else none

/-- A job's command as its row finds it at the head of the queue, ready to issue: every check of R109 passes, and a command
that uses the partner has the link (R23). -/
def Issues (s : State) (h : Half) (ctx : Nat) (p : Nat × Rec) (l : List (Nat × Rec))
    (halo : Option (Nat × Nat)) (r : Op × Option Nat × Option Upset × Instr) : Prop :=
  s.live h = true ∧ (s.half h).disp.running = some ctx ∧ (s.job h ctx).exec = none ∧ s.headChain h ctx = p :: l ∧
  p.2.isRow r.1 r.2.1 = true ∧ s.issueFail h ctx (p :: l) (s.job h ctx).wideNext = none ∧
  (s.crossHalf h ((p :: l).map (·.2)) (rowHalo r halo) = true → s.linkUp h = true ∧ (s.half h).link.waitArm = false)

/-- The state in which a command has issued: its declared outputs are dark. -/
def issued (s : State) (h : Half) (ctx : Nat) (cs : List (Nat × Rec)) (halo : Option (Nat × Nat)) : State :=
  let e := s.newExec h ctx cs (s.job h ctx).wideNext halo
  s.modJob h ctx (fun j => { j with exec := some e, dark := e.outputs, flow := e.flow })

/-- A command that issues, whose CUE_IN is met (R128, R330, R335), and for which there are threads and tokens, goes the whole way
in one row: it takes its threads, its requests are admitted, and it stands written (R109, R164, R169). This holds for each
of the eighteen rows. `e` is the command with its CUE_IN met, `f` the same with its threads. It also rests on log entry 35. -/
def Claim.IssuedCommandsWriteResults : Prop :=
  ∀ (t : Nat) (h : Half) (ctx : Nat) (u : Option Upset) (halo : Option (Nat × Nat)) (s0 : State) (p : Nat × Rec)
    (l : List (Nat × Rec)) (e f : Exec) (w : Written) (log : List (BitVec 64)) (r : Op × Option Nat × Option Upset × Instr),
    let s := s0.advance t
    let s1 := (issued s h ctx (p :: l) (rowHalo r halo)).awaitCue h ctx p.2
    let s2 := s1.stopEarly h ctx
    let plan := (s2.withObjects e.objects).plan h e.recs
    let free := (s2.half h).dolly.freeThreads (ctx / 32) plan.length
    let s3 := s2.takeThreads h ctx e plan free
    r ∈ jobRows t h ctx u halo → Issues s h ctx p l halo r → (s1.job h ctx).exec = some e → e.phase = .resumable →
    plan.length ≤ free.length → (s3.job h ctx).exec = some f → Completes s3 h ctx f r.2.2.1 w log →
    ∃ s4 : State, exec r.2.2.2 s0 = .next s4.dispatchBoth ∧ StandsWritten s3 h ctx f w log s4 ∧
      s4.mem = s.mem ∧ s4.half (otherHalf h) = s.half (otherHalf h)

/-- CUEW, CUES and FENCE read and write nothing and take no thread: as soon as one of them issues with its CUE_IN met, it
stands written, with nothing staged (R128, R129, R131). CUEW's cue is met where its counter has reached VALUE or the wait
stands recorded as satisfied (R35); CUES sends its signals at its print, and FENCE holds no early fetch. It also rests on log
entry 36. -/
def Claim.CueCommandsComplete : Prop :=
  ∀ (t : Nat) (h : Half) (ctx : Nat) (u : Option Upset) (halo : Option (Nat × Nat)) (s0 : State) (p : Nat × Rec)
    (r : Op × Option Nat × Option Upset × Instr),
    let s := s0.advance t
    r ∈ jobRows t h ctx u halo → (r.1 = .cuew ∨ r.1 = .cues ∨ r.1 = .fence) → Issues s h ctx p [] halo r →
    (∀ acq n, p.2.cueWait (s.job h ctx).satisfied = some (acq, n) → cueHome p.2.cueIn = h ∧ n ≤ (s.cue p.2.cueIn).counter ∧
      (acq = true → (s.cue p.2.cueIn).waiters = [])) →
    ∃ s1 : State, exec r.2.2.2 s0 = .next s1.dispatchBoth ∧
      (s1.job h ctx).exec.map (fun x => (x.phase, x.staged, x.printLog, x.threads, x.requests)) =
        some (.written, [], [], [], (0, 0)) ∧
      ((s1.job h ctx).satisfied = true ↔ (s.job h ctx).satisfied = true ∨
        (p.2.cueWait (s.job h ctx).satisfied).any (fun q => !q.1) = true) ∧
      (∀ n, p.2.cueWait (s.job h ctx).satisfied = some (true, n) →
        (s1.cue p.2.cueIn).counter = (s.cue p.2.cueIn).counter - n ∧
        (s1.job h ctx).exec.map (·.escrow) = some [(p.2.cueIn, n)]) ∧
      (r.1 = .fence → (s1.job h ctx).early = []) ∧
      s1.mem = s.mem ∧ s1.hostMem = s.hostMem ∧ s1.half (otherHalf h) = s.half (otherHalf h)

/-- The exact sum of products of output row `r`, channel `n` of a matrix product: activation row `r` with weight row `n`. -/
def exactDot (s : State) (g : Gemm) (r n : Nat) : Int :=
  (((s.actRow g r).zip (s.row g.c.fw g.q.wBlk g.w n)).map (fun p => p.1.raw.int * p.2.raw.int)).sum

/-- The values of an MMUL that accumulates integers (R52, R78, R97, R116): whatever the tiling, the sum of output row `r`, channel
`n` is the exact sum of products, which enters the post unit saturated to INT32, with CLIP where that changes it; and the
rows written are those sums through the stages of R112. -/
def Claim.MatrixProductsAreExact : Prop :=
  ∀ (s : State) (h : Half) (ctx : Nat) (c : Rec) (wide : Bool) (draw : Draw),
    let g := s.gemm c wide
    let entering := fun (r n : Nat) =>
      let i := exactDot s g r n
      fv32 { clip := decide (i < -(2 ^ 31) ∨ 2 ^ 31 - 1 < i) } ((max (-(2 ^ 31)) (min (2 ^ 31 - 1) i) : Int) : Rat)
    c.op = some .mmul → g.exact = true → g.q.outlier = false →
    (∀ r n, n < g.o.d0 → (s.accumulate g draw [] r n).int = exactDot s g r n ∧
      g.leave (s.accumulate g draw [] r n) = entering r n) ∧
    (g.q.gather = false → c.checked = false → c.slate = false →
      ∃ w : Written, s.runRec h ctx c wide draw none = .done w [] ∧
        w.cells = ((List.range g.o.rows).flatMap (fun r => (s.writeRow c.fo g.q g.o r
          ((List.range g.o.d0).map (fun n =>
            s.stages c g.p (draw (r * g.o.d0 + n) 1) r n (s.applyG g n (entering r n))))).cells)) ++ emitCells g.q)

/-- The values of post-unit commands without a gather, row by row through ACT (R112): CVT's are its inputs (R125), those of EWISE's
a + b are sums element by element (R122), and those of POOL's maximum are the largest of each window's elements (R120). -/
def Claim.PostUnitRowsHoldTheirValues : Prop :=
  ∀ (s : State) (h : Half) (ctx : Nat) (c : Rec) (wide : Bool) (draw : Draw) (u : Option Upset) (f : Nat → List Fv),
    let q := s.qdesc c.qPtr
    let a := s.desc c.aPtr
    let o := s.desc c.oPtr
    q.gather = false →
    (c.op = some .cvt ∧ f = s.inputRow c q a ∨
     c.op = some .ewise ∧ ewiseFunc c.param = 1 ∧
      f = (fun r => ((s.inputRow c q a r).zip (s.operandB c q a.d0 r)).map (fun x => x.1.add x.2)) ∨
     c.op = some .pool ∧ poolKind c.param % 2 = 0 ∧
      f = (fun r => (List.range a.d0).map (fun ch =>
        fvMaxList (((poolRows c a o r).map (s.inputRow c q a)).map (fun l => l.getD ch {}))))) →
    ∃ w : Written, s.runRec h ctx c wide draw u = .done w [] ∧
      w.cells = ((List.range o.rows).flatMap (fun r => (s.writeRow c.fo q o r
        ((f r).zipIdx.map (fun x => activation c.act (s.postBlk c.auxPtr) (draw (r * o.d0 + x.2) 1) x.1))).cells)) ++ emitCells q

/-- What a MOVE writes: in copy mode each destination row is the source row's bytes with zero padding (R107, R195), the rows of a
KV-page move go from page to page of its list (R197), and one in atomic mode logs its entries (R198). CUEW, CUES and FENCE
write nothing (R128). -/
def Claim.MovesCopyRows : Prop :=
  ∀ (s : State) (h : Half) (ctx : Nat) (c : Rec) (wide : Bool) (draw : Draw) (u : Option Upset),
    let src := s.desc c.aPtr
    let dst := s.desc c.oPtr
    let n := c.fa.rowBytes src.d0
    let copied := fun (i j : Nat) => cellsAt (dst.rowAddr (pRow c.fo false 0 dst.d0) j)
      (s.readBytes (src.rowAddr (pRow c.fa false 0 src.d0) i) n ++ List.replicate (pRow c.fa false 0 src.d0 - n) 0)
    (c.op = some .move → 8 ≤ c.fa.bits →
      (c.moveMode = 0 → s.runRec h ctx c wide draw u = .done { cells := (List.range dst.rows).flatMap (fun r => copied r r) } []) ∧
      (c.moveMode = 2 → s.runRec h ctx c wide draw u = .done
        { cells := (List.range (s.objLe c.auxPtr 4)).flatMap (fun k => (List.range (src.d1 * src.d2)).flatMap (fun i =>
            copied (s.objLe (c.auxPtr + 8 + 8 * k) 4 * (src.d1 * src.d2) + i)
              (s.objLe (c.auxPtr + 12 + 8 * k) 4 * (src.d1 * src.d2) + i))) } [])) ∧
    (c.op = some .move → c.moveMode = 3 → s.logAtomics h ctx 0 (s.atomicEntries c) = none →
      s.runRec h ctx c wide draw u = .done {} (s.atomicEntries c)) ∧
    ((c.op = some .cuew ∨ c.op = some .cues ∨ c.op = some .fence) → s.runRec h ctx c wide draw u = .done {} [])

/-- A chain's values (R134, R135): a chain of one record writes what the record does, and in a longer one the consumer reads the
rows its producer wrote; the flags of all are joined, and the flow region's bytes do not print. -/
def Claim.ChainsPassRowsOn : Prop :=
  ∀ (s : State) (h : Half) (ctx : Nat) (wide : Bool) (u : Option Upset) (c d : Rec) (l : List Rec) (w w' : Written)
    (log log' : List (BitVec 64)),
    let draw : Draw := fun e k => Config.freeWord s.free e k
    let flow := (s.desc c.oPtr).region
    let t := { s with free := s.free + 1 }.writeCells w.cells
    s.runChain h ctx wide u [c] = s.runRec h ctx c wide draw u ∧
    (Memory.wf s.mem = true →
      (∀ a b, List.lookup a w.cells.reverse = some b → t.readByte a = b) ∧
      (∀ a, (∀ x ∈ w.cells, x.1 ≠ a) → t.readByte a = s.readByte a)) ∧
    (s.runRec h ctx c wide draw u = .done w log → t.runChain h ctx wide u (d :: l) = .done w' log' →
      ∃ r : Written, s.runChain h ctx wide u (c :: d :: l) = .done r log' ∧ r.fl = w.fl.join w'.fl ∧
        r.cells = w.cells.filter (fun p => !(inRange flow.base flow.len p.1)) ++ w'.cells)

/-- The packets of a push (R304): they hold every byte at its address, in order, each at most 256 B to a line-aligned address or
within one line. -/
def Claim.PacketsHoldEveryByte : Prop :=
  ∀ (ctx : Nat) (nonSecure : Bool) (l : List (Nat × List Byte)),
    let ps := runPackets ctx nonSecure l
    ps.flatMap (fun p => cellsAt p.addr p.bytes) = l.flatMap (fun r => cellsAt r.1 r.2) ∧
    ∀ p ∈ ps, p.ctx = ctx ∧ p.nonSecure = nonSecure ∧ 0 < p.bytes.length ∧ p.bytes.length ≤ 256 ∧
      (p.addr % 64 = 0 ∨ p.addr % 64 + p.bytes.length ≤ 64)

/-- A command that holds its threads but not the tokens of all its requests spends those there are and waits for the rest
(R163, R169): it stays resumable with fewer requests to make. It also rests on log entry 35. -/
def Claim.CommandsWaitForTokens : Prop :=
  ∀ (t : Nat) (h : Half) (ctx : Nat) (u : Option Upset) (halo : Option (Nat × Nat)) (s0 : State) (e : Exec)
    (r : Op × Option Nat × Option Upset × Instr),
    let s := s0.advance t
    let n := (s.half h).dolly.tokensFor 0 (ctx / 32)
    let m := (s.half h).dolly.tokensFor 1 (ctx / 32)
    r ∈ jobRows t h ctx u halo → s.live h = true → (s.half h).disp.running = some ctx → (s.job h ctx).exec = some e →
    e.phase = .resumable → e.threads ≠ [] → (parseRec e.record).isRow r.1 r.2.1 = true →
    (n < e.requests.1 ∨ m < e.requests.2) →
    exec r.2.2.2 s0 = .next (s.admitRequests h ctx).dispatchBoth ∧
    ((s.admitRequests h ctx).job h ctx).exec = some { e with requests := (e.requests.1 - n, e.requests.2 - m) } ∧
    (s.admitRequests h ctx).mem = s.mem

/-- A record that fails a check at issue is refused with that check's code (R109): its job is torn down and stands
faulted with it, and no byte of memory changes. It also rests on log entries 32, 90 and 91. -/
def Obligations.IssueRefusalFaultsTheJob : Prop :=
  ∀ (t : Nat) (h : Half) (ctx : Nat) (u : Option Upset) (halo : Option (Nat × Nat)) (s0 : State) (p : Nat × Rec)
    (l : List (Nat × Rec)) (code : Nat) (r : Op × Option Nat × Option Upset × Instr),
    let s := s0.advance t
    r ∈ jobRows t h ctx u halo → s.live h = true → (s.half h).disp.running = some ctx → (s.job h ctx).exec = none →
    s.headChain h ctx = p :: l → p.2.isRow r.1 r.2.1 = true →
    s.issueFail h ctx (p :: l) (s.job h ctx).wideNext = some code → 0 < code → code < 2 ^ 16 →
    ∃ s1 : State,
      exec r.2.2.2 s0 = .next s1.dispatchBoth ∧ (s1.job h ctx).status = .faulted ∧ (s1.job h ctx).fault = code ∧
      (s1.job h ctx).exec = none ∧ (s1.half h).disp.running = none ∧ s1.mem = s.mem ∧ s1.hostMem = s.hostMem

/-- A command that issues with its CUE_IN met, on an array with too few free threads, stands resumable with its
declared outputs dark, and has written nothing: it waits for threads (R164). The early-fetch threads of its job go
back (log entry 113, the model's reading of R19). -/
def Claim.FewThreadsMakeItWait : Prop :=
  ∀ (t : Nat) (h : Half) (ctx : Nat) (u : Option Upset) (halo : Option (Nat × Nat)) (s0 : State) (p : Nat × Rec)
    (l : List (Nat × Rec)) (e : Exec) (r : Op × Option Nat × Option Upset × Instr),
    let s := s0.advance t
    let s1 := (issued s h ctx (p :: l) (rowHalo r halo)).awaitCue h ctx p.2
    let s2 := s1.stopEarly h ctx
    let n := ((s2.withObjects e.objects).plan h e.recs).length
    r ∈ jobRows t h ctx u halo → Issues s h ctx p l halo r → (s1.job h ctx).exec = some e → e.phase = .resumable →
    ((s2.half h).dolly.freeThreads (ctx / 32) n).length < n →
    exec r.2.2.2 s0 = .next s2.dispatchBoth ∧ (s2.job h ctx).exec = some e ∧ (s2.job h ctx).dark = e.outputs ∧
    (s2.job h ctx).early = [] ∧ s2.mem = s.mem

/-- A command that issues and whose CUE_IN names a cue of its own half that does not meet it is parked behind those that
wait there, and leaves the array (R128, R330, R336); it holds no thread. A cue does not meet an acquisition either that
finds an earlier one of its partition waiting, whatever the counter. One homed in the partner's half is asked for by a
message, and the command is parked until the answer (R337). It also rests on log entry 8. -/
def Claim.UnmetCueParksCommand : Prop :=
  ∀ (t : Nat) (h : Half) (ctx : Nat) (u : Option Upset) (halo : Option (Nat × Nat)) (s0 : State) (p : Nat × Rec)
    (l : List (Nat × Rec)) (acq : Bool) (amount : Nat) (r : Op × Option Nat × Option Upset × Instr),
    let s := s0.advance t
    let w : Waiter := { half := h, ctx := ctx, acquire := acq, amount := amount }
    let s1 := issued s h ctx (p :: l) (rowHalo r halo)
    r ∈ jobRows t h ctx u halo → Issues s h ctx p l halo r → p.2.cueWait (s.job h ctx).satisfied = some (acq, amount) →
    (cueHome p.2.cueIn = h → ((s.cue p.2.cueIn).counter < amount ∨
        (acq = true ∧ ∃ x ∈ (s.cue p.2.cueIn).waiters, x.acquire = true ∧ x.ctx / 32 = ctx / 32)) →
      exec r.2.2.2 s0 =
        .next ((s1.modCue p.2.cueIn (fun c => { c with waiters := c.waiters ++ [w] })).park h ctx).dispatchBoth) ∧
    (cueHome p.2.cueIn ≠ h → exec r.2.2.2 s0 =
      .next ((s1.send h (if acq then .acquire ctx p.2.cueIn amount else .wait ctx p.2.cueIn amount)).park h ctx).dispatchBoth)

/-- What a dispatched command does that holds its threads, and one that issues: it writes its results, or waits for its
tokens; and what those results are. -/
def Obligations.JobCommandsWrite : Prop :=
  Claim.CommandsWriteResults ∧ Claim.CommandsWaitForTokens ∧ Claim.IssuedCommandsWriteResults ∧ Claim.CueCommandsComplete ∧
  Claim.MatrixProductsAreExact ∧ Claim.PostUnitRowsHoldTheirValues ∧ Claim.MovesCopyRows ∧ Claim.ChainsPassRowsOn ∧
  Claim.PacketsHoldEveryByte

/-- What an issued command waits for before it works: its cue, then its threads. -/
def Obligations.IssuedCommandWaitsForThreads : Prop := Claim.FewThreadsMakeItWait ∧ Claim.UnmetCueParksCommand

/-! ### Cues, prints and the end of a command -/

/-- Step 2 of R336, waiter by waiter: a waiter whose partition is not blocked and whose amount the counter covers is granted, and
the counter falls by that amount; any other gets nothing, and neither does a later one of its partition. What all the
grants take is exactly what the counter loses. -/
def Claim.GrantsTakeFromCounter : Prop :=
  (∀ (c : Nat) (blocked : List Nat) (w : Waiter) (l : List Waiter),
    (w.ctx / 32 ∉ blocked → w.amount ≤ c →
      (grants c blocked (w :: l)).1 = w :: (grants (c - w.amount) blocked l).1 ∧
      (grants c blocked (w :: l)).2 = (grants (c - w.amount) blocked l).2) ∧
    ((w.ctx / 32 ∈ blocked ∨ c < w.amount) → grants c blocked (w :: l) = grants c (w.ctx / 32 :: blocked) l)) ∧
  ∀ (c : Nat) (blocked : List Nat) (l : List Waiter),
    let g := grants c blocked l
    g.2 + (g.1.map (·.amount)).sum = c ∧ List.Sublist g.1 l ∧ ∀ w ∈ g.1, w.ctx / 32 ∉ blocked

/-- The evaluation of a cue's waiters grants the first acquisition in the order of R336, lowest partition and then earliest
arrival, if the counter covers it: it leaves the queue with its amount taken, and its parked command is resumable. -/
def Claim.FirstAcquisitionIsGranted : Prop :=
  ∀ (s : State) (cue : Nat) (w : Waiter) (l : List Waiter) (e : Exec),
    let t := s.evalCue cue
    byPartition (s.cue cue).waiters = w :: l → w.amount ≤ (s.cue cue).counter → w.half = cueHome cue →
    (s.job w.half w.ctx).exec = some e → e.phase = .parked →
    (t.job w.half w.ctx).exec.map (fun x => (x.phase, x.startedAt)) = some (.resumable, s.now) ∧
    w ∉ (t.cue cue).waiters ∧ (t.cue cue).counter + w.amount ≤ (s.cue cue).counter ∧ t.mem = s.mem

/-- A new operation on a cue (R336): an acquisition is granted at once only where the counter is at least its amount and no earlier
acquisition of its own partition is waiting, and waits otherwise; a non-consuming wait is satisfied at once where the counter is
at least its value. One that waits stands behind all that wait there. -/
def Claim.NewCueOperations : Prop :=
  ∀ (s : State) (w : Waiter) (cue : Nat),
    let c := s.cue cue
    let r := s.askCue w cue
    let behind := ∃ x ∈ c.waiters, x.acquire = true ∧ x.ctx / 32 = w.ctx / 32
    (w.acquire = true →
      (w.amount ≤ c.counter → ¬behind → r.1 = true ∧ r.2.cue cue = { c with counter := c.counter - w.amount }) ∧
      ((c.counter < w.amount ∨ behind) → r.1 = false ∧ r.2.cue cue = { c with waiters := c.waiters ++ [w] })) ∧
    (w.acquire = false →
      (w.amount ≤ c.counter → r = (true, s)) ∧
      (c.counter < w.amount → r.1 = false ∧ r.2.cue cue = { c with waiters := c.waiters ++ [w] }))

/-- A counter that a signal or an escrow return has raised (R336): every waiting non-consuming wait is judged against it before
any grant, and each whose value it reaches is satisfied and its parked command resumable; the acquisitions are granted in
ascending partition number, then in order of arrival. -/
def Claim.RaisedCounterIsEvaluated : Prop :=
  (∀ (s : State) (cue n : Nat), s.raiseCue cue n =
      (s.modCue cue (fun c => { c with counter := min 0xFFFFFFFF (c.counter + n) })).evalCue cue ∧
    s.returnEscrow (cueHome cue) [(cue, n)] = s.raiseCue cue n ∧
    ∀ ctx tag session, (s.cue cue).counter + n ≤ 0xFFFFFFFF → s.signalCue ctx tag session cue n = s.raiseCue cue n) ∧
  (∀ (s : State) (cue : Nat),
    let c := s.cue cue
    let t := s.evalCue cue
    let g := grants c.counter [] (byPartition c.waiters)
    (t.cue cue).counter = g.2 ∧
    (∀ w ∈ c.waiters, w ∈ (t.cue cue).waiters ↔ ¬(w.acquire = false ∧ w.amount ≤ c.counter) ∧ w ∉ g.1) ∧
    ∀ w ∈ c.waiters, ∀ e, w.acquire = false → w.amount ≤ c.counter → w.half = cueHome cue →
      (s.job w.half w.ctx).exec = some e → e.phase = .parked →
      (t.job w.half w.ctx).satisfied = true ∧ (t.job w.half w.ctx).exec.map (·.phase) = some .resumable) ∧
  ∀ l : List Waiter,
    (byPartition l).Pairwise (fun a b => a.ctx / 32 ≤ b.ctx / 32) ∧
    ∀ p, p < 8 → (byPartition l).filter (fun w => w.ctx / 32 == p) = l.filter (fun w => w.acquire && w.ctx / 32 == p)

/-- The order in which a cue's waiters are served (R336). -/
def Obligations.CueGrantsConserve : Prop :=
  Claim.NewCueOperations ∧ Claim.RaisedCounterIsEvaluated ∧ Claim.GrantsTakeFromCounter ∧ Claim.FirstAcquisitionIsGranted

/-- A signal adds its amount and the counter stops at 0xFFFF_FFFF (R335): on a cue on which nothing waits, that is all it
does, but for the event CUE_SATURATED of a sum that is too large. -/
def Obligations.SignalAddsAndSaturates : Prop :=
  ∀ (s : State) (ctx tag session cue amount : Nat), (s.cue cue).waiters = [] →
    let t := s.signalCue ctx tag session cue amount
    (t.cue cue).counter = min 0xFFFFFFFF ((s.cue cue).counter + amount) ∧
    (t.half (cueHome cue)).isl.logCount =
      (if 0xFFFFFFFF < (s.cue cue).counter + amount then ((s.half (cueHome cue)).isl.logCount + 1) % 65536
       else (s.half (cueHome cue)).isl.logCount) ∧
    (∀ c, c % 16384 ≠ cue % 16384 ∨ cueHome c ≠ cueHome cue → t.cue c = s.cue c) ∧
    t.mem = s.mem ∧ t.hostMem = s.hostMem ∧ t.half (otherHalf (cueHome cue)) = s.half (otherHalf (cueHome cue))

/-- The print log executes in the order of its entries, each entry on what the one before left, and the flags of all are joined
(R188). One entry: the INT32 sum saturates and sets CLIP where that changes it; the FP32 sum is rounded and saturated as R54 and R56
say, and a NaN gives the canonical NaN and sets NAN; a swap stores OPERAND. Only the word's four bytes change. A single-bit
error of the word's line is corrected first and counted (R176, R202). What becomes of a word that cannot be corrected is log
entry 156, and free values are log entry 8: the model's choices. -/
def Claim.AtomicsExecute : Prop :=
  ∀ (s : State) (h : Half) (ctx : Nat) (cs : List LineCheck) (x : BitVec 64) (l : List (BitVec 64)),
    let a := atomicAddr h x
    let bank := bankAt h a
    let check := cs.headD .ok
    let y := s.runAtomic h ctx check x
    let z := y.1.runAtomics h ctx cs.tail l
    let sum := signedOf 32 (s.readLe a 4) + signedOf 32 (atomicOperand x)
    let real := (f32 (s.readLe a 4)).add (f32 (atomicOperand x))
    s.runAtomics h ctx cs [] = (s, {}) ∧ s.runAtomics h ctx cs (x :: l) = (z.1, y.2.join z.2) ∧
    (Memory.wf s.mem = true →
      (∀ b, inRange a 4 b = false → y.1.readByte b = s.readByte b) ∧
      ((∀ word syn, check ≠ .uncorrectable word syn) →
        (atomicOp x = 0 → signedOf 32 (y.1.readLe a 4) = max (-(2 ^ 31)) (min (2 ^ 31 - 1) sum) ∧
          y.2 = { clip := decide (sum < -(2 ^ 31) ∨ 2 ^ 31 - 1 < sum) }) ∧
        (atomicOp x = 1 → y.1.readLe a 4 = Fmt.fp32.encode real.val % 2 ^ 32 ∧ y.2 = real.fl ∧
          (real.val = none → y.1.readLe a 4 = 0x7FC00000)) ∧
        (2 ≤ atomicOp x → y.1.readLe a 4 = atomicOperand x ∧ y.2 = {})) ∧
      (∀ syn, check = .corrected syn → (y.1.bank h bank).ceCount = min 0xFFFF ((s.bank h bank).ceCount + 1)) ∧
      (∀ word syn, check = .uncorrectable word syn → y.1.mem = s.mem ∧ y.2 = {} ∧
        (y.1.bank h bank).ueCount = min 0xFF ((s.bank h bank).ueCount + 1) ∧
        ∃ u : State, y.1 = u.log h
          (bankUe bank (bankLine (a - poolBase h)) word syn ctx (s.tagOf h ctx) (s.jobSession h ctx))))

/-- PRINT of a written command whose bytes are all acknowledged and that waits for no token: the steps of R29 are taken,
its job's regions are light, and the next entry of its completion ring holds the status word (R322). Every byte
outside the
staged bytes, the flow regions, the targets of the logged atomics and that entry is unchanged, and each of the staged bytes
reads as what was staged for it last. The signals fire (R128): a cue of this half on which nothing waits rises by the amount, and one of
the partner's is on its way there. The escrow is discarded (R34): a cue of this half that the record does not signal keeps its counter.
Where Director code is to read a tag line and finds another TAG or producing half than its job expects, the job is then torn down
with HALO_TAG (R245). When a print may take effect rests on log entry 33, and free values on log entry 8. -/
def Claim.PrintTakesEffect : Prop :=
  ∀ (t : Nat) (h : Half) (ctx : Nat) (checks : List LineCheck) (s0 : State) (e : Exec) (en : JobEntry),
    let s := s0.advance t
    let j := s.job h ctx
    let ring := en.complPtr + 8 * (j.compl % 2 ^ en.complLog2)
    let fl := Flags.join { clip := e.clip, nan := e.nan, infIn := e.infIn }
      ((s.makeLight h ctx e).runAtomics h ctx checks e.printLog).2
    let u := s.printNow h ctx { e with halo := none } checks
    let signals := (e.recs.getLastD (parseRec [])).signals
    Memory.wf s.mem = true → s.live h = true → j.exec = some e → e.phase = .written →
    (s.half h).disp.running = some ctx → e.acksDue = 0 →
    e.hbmDue = [] → s.scrubHolds h e = false → s.gate h ctx e = .print → j.entry = some en →
    (e.halo = none → exec (.print t h { ctx := ctx, checks := checks }) s0 = .next u.dispatchBoth) ∧
    (∀ a tag, e.halo = some (a, tag) → exec (.print t h { ctx := ctx, checks := checks }) s0 = .next
      (if u.readLe a 4 = tag % 2 ^ 32 ∧ u.readLe (a + 4) 1 = halfNum (otherHalf h) then u
       else (u.modDisp h (Disp.leave ctx)).teardown h ctx 0x24 e.tag a).dispatchBoth) ∧
    (u.job h ctx).dark = [] ∧ (u.job h ctx).exec = none ∧ u.readLe ring 8 = statusWord e j.retakes fl ∧
    (∀ a, (∀ r ∈ e.flow, inRange r.base r.len a = false) →
      (∀ x ∈ e.printLog, inRange (atomicAddr h x) 4 a = false) → inRange ring 8 a = false →
      ((∀ c ∈ e.staged, c.1 ≠ a) → u.readByte a = s.readByte a) ∧
      (∀ b, List.lookup a e.staged.reverse = some b → u.readByte a = b)) ∧
    (∀ c n, signals.filter (fun p => p.1 == c) = [(c, n)] →
      (cueHome c = h → (s.cue c).waiters = [] → (u.cue c).counter = min 0xFFFFFFFF ((s.cue c).counter + n)) ∧
      (cueHome c ≠ h → s.linkUp h = true → .signal c n ∈ (u.half h).link.outbox)) ∧
    (∀ c, c < 32768 → cueHome c = h → (∀ p ∈ signals, p.1 ≠ c) → (u.cue c).counter = (s.cue c).counter)

/-- The fields of a completion status (R110): CMD_TAG, RETAKES, WIDE, CHECK_PASS, CLIP, NAN and INF_IN, in their bits. -/
def Claim.StatusLayout : Prop :=
  ∀ (e : Exec) (r : Nat) (fl : Flags),
    let w := statusWord e r fl
    w < 2 ^ 64 ∧ field w 63 48 = e.tag % 65536 ∧ field w 47 32 = min 0xFFFF r ∧ field w 31 16 = 0 ∧
    flag w 15 = e.wide ∧ flag w 14 = e.checkPass ∧ flag w 13 = fl.clip ∧ flag w 12 = fl.nan ∧ flag w 11 = fl.infIn ∧
    field w 10 0 = 0

/-- Where a status's CMD_TAG, WIDE and CHECK_PASS come from (R110): the tag is that of the printed record, the last of a
chain, and of the guarded record for a wide variant; CHECK_PASS is set where the command has a check column, whose failing
pass would have ended it. -/
def Claim.StatusSources : Prop :=
  (∀ (s : State) (h : Half) (ctx : Nat) (cs : List (Nat × Rec)) (wide : Bool) (halo : Option (Nat × Nat)) (en : JobEntry),
    (s.job h ctx).entry = some en →
    let e := s.newExec h ctx cs wide halo
    e.wide = wide ∧ (wide = true → e.tag = (parseRec (s.record (en.queuePtr + 64 * (s.job h ctx).queueIndex))).tag) ∧
    (wide = false → e.tag = (cs.map (·.2.tag)).getLastD 0)) ∧
  ∀ (s : State) (h : Half) (ctx : Nat) (cs : List Rec) (w : Written) (log : List (BitVec 64)) (e : Exec),
    (s.job h ctx).exec = some e →
    ((s.wrote h ctx cs w log).job h ctx).exec.map (fun x => (x.tag, x.wide, x.checkPass)) =
      some (e.tag, e.wide, cs.any (·.checked))

/-- A print is held back where its gate says so: for a token it waits (a shadow context asks the home half for it, nothing
else changes), and where its frame is withheld or has had its record it becomes a kill without retake (R277, R343,
R370). It also rests on log entry 34. -/
def Obligations.PrintIsHeldBack : Prop :=
  ∀ (t : Nat) (h : Half) (ctx : Nat) (checks : List LineCheck) (s0 : State) (e : Exec),
    let s := s0.advance t
    let asked := s.requestToken h ctx e
    let killed := s.kill h ctx .none
    s.live h = true → (s.job h ctx).exec = some e → e.phase = .written → (s.half h).disp.running = some ctx →
    e.acksDue = 0 → e.hbmDue = [] → s.scrubHolds h e = false →
    (s.gate h ctx e = .wait → exec (.print t h { ctx := ctx, checks := checks }) s0 = .next asked ∧
      (asked.job h ctx).exec = some e ∧ asked.mem = s.mem ∧ asked.hostMem = s.hostMem ∧
      asked.half (otherHalf h) = s.half (otherHalf h) ∧
      ((∀ k par, (s.half h).resultOf (e.recs.getLastD (parseRec [])) = some (k, par) →
        (s.stream h k).cfg.shadow = false) → asked = s)) ∧
    (s.gate h ctx e = .stop → exec (.print t h { ctx := ctx, checks := checks }) s0 = .next killed ∧
      (killed.job h ctx).exec.map (fun x => (x.phase, x.retake)) = some (.killing, .none) ∧
      killed.mem = s.mem ∧ killed.hostMem = s.hostMem)

/-- A kill (R36): the command is being killed; its print log, its staged bytes and what it waited for are gone, KILLS
counts
it, its packets that were not yet delivered are not sent, and no byte of either memory is written: only its output
and flow
regions become undefined. It also rests on log entry 8. -/
def Claim.KillLeavesMemory : Prop :=
  ∀ (s : State) (h : Half) (ctx : Nat) (k : RetakeKind) (e : Exec),
    (s.job h ctx).exec = some e → e.phase ≠ .killing →
    let t := s.kill h ctx k
    t.mem = s.mem ∧ t.hostMem = s.hostMem ∧
    (t.job h ctx).exec.map (fun x => (x.phase, x.retake, x.printLog, x.staged, x.acksDue, x.hbmDue)) =
      some (.killing, k, [], [], 0, []) ∧
    (t.job h ctx).kills = min 255 ((s.job h ctx).kills + 1) ∧
    (t.half h).link.outData = (s.half h).link.outData.filter (fun p => p.ctx != ctx) ∧
    (t.half h).link.unsent = (s.half h).link.unsent.filter (fun p => p.ctx != ctx) ∧
    (∀ a, (∀ r ∈ e.outputs ++ e.flow, inRange r.base r.len a = false) → t.readByte a = s.readByte a)

/-- A command is being killed and its kill is over: its notice has reached the partner (R308), and no arming waits for it. -/
def KillOver (s : State) (h : Half) (ctx : Nat) (e : Exec) : Prop :=
  s.live h = true ∧ (s.job h ctx).exec = some e ∧ e.phase = .killing ∧ s.noticeDue h ctx = false ∧
  (s.half h).disp.armRest = none

/-- The partner's amounts of an escrow are back in their cues: one on which nothing waits and that the escrow lists once rises by
its amount (R34, R337). -/
def EscrowIsBack (s : State) (h : Half) (e : Exec) (u : State) : Prop :=
  ∀ c n, cueHome c ≠ h → e.escrow.filter (fun p => cueHome p.1 == cueHome c && p.1 % 16384 == c % 16384) = [(c, n)] →
    (s.cue c).waiters = [] → (u.cue c).counter = min 0xFFFFFFFF ((s.cue c).counter + n)

/-- KILL_COMPLETE (R36, R308): while the kill notice has not reached the partner nothing happens. Afterwards the array is free, the
command's threads and its escrow are back, no byte changes, and what follows is what the kill named: the same record is
released with one retake more (R37), or the run has ended (a continuous job is released again, a once job has completed;
R321). It also rests on log entries 3, 34 and 93. -/
def Claim.KillEndsInRetakeOrRunEnd : Prop :=
  ∀ (t : Nat) (h : Half) (ctx : Nat) (s0 : State) (e : Exec),
    let s := s0.advance t
    let j := s.job h ctx
    (s.live h = true → j.exec = some e → e.phase = .killing → s.noticeDue h ctx = true →
      exec (.killComplete t h ctx) s0 = .next s) ∧
    (KillOver s h ctx e → j.status ≠ .teardown → j.deferredRelease = false → e.retake ≠ .wide →
      ∃ s1 : State, exec (.killComplete t h ctx) s0 = .next s1.dispatchBoth ∧
        let k := s1.job h ctx
        k.exec = none ∧ (s1.half h).disp.running ≠ some ctx ∧ EscrowIsBack s h e s1 ∧
        (∀ n ∈ e.threads, (tget {} (s1.half h).dolly.threads n).busy = false) ∧ s1.mem = s.mem ∧ s1.undef = s.undef ∧
        (e.retake = .same → k.status = .released ∧ k.retakes = min 0xFFFF (j.retakes + 1) ∧ k.queueIndex = j.queueIndex ∧
          k.dark = j.dark ∧ k.onceDone = j.onceDone) ∧
        (e.retake = .none → k.dark = [] ∧ k.flow = [] ∧
          (∀ en, j.entry = some en → k.onceDone = (j.onceDone || en.release == 2) ∧
            (en.release = 1 → k.status = .released ∧ k.queueIndex = 0 ∧ k.retakes = 0) ∧
            (en.release ≠ 1 → k.status = .idle))))

/-- The end of a kill that was part of a teardown: the teardown is complete, and the job stands faulted with its code, its
regions light (R36, R346). A release that waited for the kill or the teardown starts its run now, at the queue's first record
(R321). It also rests on log entries 3 and 34. -/
def Claim.KillEndsTeardownAndStartsRelease : Prop :=
  ∀ (t : Nat) (h : Half) (ctx : Nat) (s0 : State) (e : Exec),
    let s := s0.advance t
    let j := s.job h ctx
    KillOver s h ctx e → (j.status = .teardown ∨ j.deferredRelease = true) →
      ∃ s1 : State, exec (.killComplete t h ctx) s0 = .next s1.dispatchBoth ∧
        let k := s1.job h ctx
        k.exec = none ∧ (s1.half h).disp.running ≠ some ctx ∧ (e.retake ≠ .wide → EscrowIsBack s h e s1) ∧
        (∀ n ∈ e.threads, (tget {} (s1.half h).dolly.threads n).busy = false) ∧ s1.mem = s.mem ∧ s1.undef = s.undef ∧
        (j.deferredRelease = false → k.status = (if j.entry.isNone then .idle else .faulted) ∧ k.fault = j.fault ∧
          k.dark = [] ∧ k.flow = [] ∧ k.teardownAt = none) ∧
        (∀ en, j.entry = some en → j.deferredRelease = true → k.status = .released ∧ k.queueIndex = 0 ∧ k.retakes = 0 ∧
          k.dark = [] ∧ k.deferredRelease = false ∧ (en.backup = true → k.frame = j.frame))

/-- The end of a WIDE_TAKEN kill (R89): the wide variant is issued at once, on the array, with no threads yet and with the
command's escrow. It goes on unless a check of its own fails, or it needs the partner while Contrail is lost (R23); its job is then
torn down. It also rests on log entries 3, 34 and 90. -/
def Claim.KillEndsInWideVariant : Prop :=
  ∀ (t : Nat) (h : Half) (ctx : Nat) (s0 : State) (e : Exec),
    let s := s0.advance t
    let j := s.job h ctx
    let w := parseRec e.wideRecord
    let addr := (parseRec e.record).widePtr
    KillOver s h ctx e → j.status ≠ .teardown → j.deferredRelease = false → e.retake = .wide →
      ∃ u : State,
        exec (.killComplete t h ctx) s0 = .next
          (if u.wideCode h ctx addr w ≠ 0 then u.teardown h ctx (u.wideCode h ctx addr w) e.tag 0
           else if u.crossHalf h [w] e.halo = true ∧ (u.linkUp h = false ∨ (u.half h).link.waitArm = true) then
             u.teardown h ctx 0x2D e.tag 0
           else u).dispatchBoth ∧
        (u.job h ctx).status = .running ∧ (u.half h).disp.running = some ctx ∧
        (u.job h ctx).retakes = min 0xFFFF (j.retakes + 1) ∧
        (u.job h ctx).exec.map (fun x => (x.record, x.wide, x.phase, x.escrow, x.threads, x.clip)) =
          some (e.wideRecord, true, .resumable, e.escrow, [], false) ∧
        (u.half h).isl.logCount = ((s.half h).isl.logCount + 1) % 65536 ∧
        (∀ n ∈ e.threads, (tget {} (u.half h).dolly.threads n).busy = false) ∧ u.mem = s.mem ∧ u.undef = s.undef

/-- What the end of a kill brings, for each of the uses of R38. -/
def Obligations.KilledCommandIsRetaken : Prop :=
  Claim.KillEndsInRetakeOrRunEnd ∧ Claim.KillEndsTeardownAndStartsRelease ∧ Claim.KillEndsInWideVariant

/-- COMMAND_WATCHDOG (R103, R365): before its limit, while the command is parked or being killed, and while the half's
watchdogs are suspended, nothing happens; the first expiry of a record kills the command for a retake, with an event of
class 1, and the second tears its job down with CMD_WATCHDOG. The DETAIL of the event is log entry 106. It also rests on log
entry 3. -/
def Claim.WatchdogExpiry : Prop :=
  ∀ (t : Nat) (h : Half) (ctx : Nat) (s0 : State) (e : Exec),
    let s := s0.advance t
    let run := exec (.commandWatchdog t h ctx) s0
    s.live h = true → (s.job h ctx).exec = some e →
    ((16 * (s.now - e.startedAt) < e.budget ∨ e.phase = .parked ∨ e.phase = .killing ∨ (s.half h).suspended = true) →
      run = .next s) ∧
    (e.phase ≠ .parked → e.phase ≠ .killing → (s.half h).suspended = false → e.budget ≤ 16 * (s.now - e.startedAt) →
      ((s.job h ctx).expiries = 0 → ∃ u : State,
        run = .next (u.kill h ctx .same) ∧
        u = (s.modJob h ctx (fun j => { j with expiries := 1 })).log h
          { code := 0x2C, cls := 1, ctx := ctx, tag := e.tag, detail := s.jobSession h ctx } ∧
        ((u.kill h ctx .same).job h ctx).expiries = 1 ∧
        ((u.kill h ctx .same).job h ctx).exec.map (fun x => (x.phase, x.retake)) = some (.killing, .same) ∧
        (u.kill h ctx .same).mem = s.mem) ∧
      ((s.job h ctx).expiries ≠ 0 → ∃ u : State,
        run = .next u.dispatchBoth ∧ u = s.teardown h ctx 0x2C e.tag 0 ∧
        (u.job h ctx).status = .teardown ∧ (u.job h ctx).fault = 0x2C ∧
        (u.job h ctx).exec.map (fun x => (x.phase, x.retake)) = some (.killing, .none) ∧ u.mem = s.mem))

/-- CUE_HOLD_OVERRUN (R333): once a hold of the job has suspended a pre-emption for HOLD_MAX lines the job is torn
down with
0x27, and not before; `line` and `ns` are the line and the nanosecond in it at which the suspension began. The DETAIL is the model's
choice (log entry 45). It also rests on log entry 3. -/
def Claim.HoldOverrunTearsDown : Prop :=
  ∀ (t : Nat) (h : Half) (ctx line ns : Nat) (s0 : State) (sh : Sheet),
    let s := s0.advance t
    let z := (s.half h).hzn
    let run := exec (.cueHoldOverrun t h ctx) s0
    let late := line + sh.holdMax < z.lines ∨ (z.lines = line + sh.holdMax ∧ ns ≤ s.now - z.lineStart)
    s.live h = true → (s.half h).sheet = some sh →
    ((s.half h).disp.deferredPreempt.find? (fun p => p.1 == ctx) = some (ctx, line, ns) →
      (late → ∃ u : State, run = .next u.dispatchBoth ∧ u = s.teardown h ctx 0x27 (s.tagOf h ctx) sh.holdMax ∧
        (u.job h ctx).fault = 0x27 ∧ (u.job h ctx).holds = [] ∧
        (u.job h ctx).status = (if (s.job h ctx).exec.isSome then .teardown else .faulted) ∧ u.mem = s.mem) ∧
      (¬late → run = .next s)) ∧
    ((s.half h).disp.deferredPreempt.find? (fun p => p.1 == ctx) = none → run = .next s)

/-- SLOT_OVERRUN (R345): a job whose run has not ended and one of whose commands has been killed RETAKE_LIMIT times
without a
print is torn down with 0x26; with fewer kills, or a RETAKE_LIMIT of 0, nothing happens. The DETAIL is the model's choice
(log entry 45). It also rests on log entry 3. -/
def Claim.SlotOverrunTearsDown : Prop :=
  ∀ (t : Nat) (h : Half) (ctx : Nat) (s0 : State) (en : JobEntry),
    let s := s0.advance t
    let j := s.job h ctx
    let run := exec (.slotOverrun t h ctx) s0
    s.live h = true → j.entry = some en →
    (j.active = true → 0 < en.retakeLimit → en.retakeLimit ≤ j.kills →
      ∃ u : State, run = .next u.dispatchBoth ∧ u = s.teardown h ctx 0x26 (s.tagOf h ctx) j.kills ∧
        (u.job h ctx).fault = 0x26 ∧ (u.job h ctx).status = (if j.exec.isSome then .teardown else .faulted) ∧
        u.mem = s.mem) ∧
    ((j.active = false ∨ en.retakeLimit = 0 ∨ j.kills < en.retakeLimit) → run = .next s)

/-- A teardown with a fault code of a job with no command in execution is complete at once (R346): the job stands faulted
with that code, holds nothing, does not hold the array, and the event is logged as class 3. That the steps of R346 fall in one
instant where no command is to be killed is log entry 32. -/
def Claim.TeardownRecordsFault : Prop :=
  ∀ (s : State) (h : Half) (ctx code tag detail : Nat), (s.job h ctx).exec = none → 0 < code → code < 2 ^ 16 →
    let t := s.teardown h ctx code tag detail
    (t.job h ctx).status = .faulted ∧ (t.job h ctx).fault = code ∧ (t.job h ctx).holds = [] ∧
    (t.half h).disp.running ≠ some ctx ∧ t.mem = s.mem ∧ t.hostMem = s.hostMem ∧
    t.half (otherHalf h) = s.half (otherHalf h) ∧
    ∃ u : State, t = u.log h { code := code, cls := 3, ctx := ctx, tag := tag, detail := detail }

/-- PART_RESET (R347): when a teardown of the partition has lasted more than 10 µs, and not before, the event is logged as
class 4, every job of the partition with an entry or a command has lost its command, no thread of the partition's
groups is
busy, and the cues used by that partition alone are at INIT again. What waits for the teardowns of an arming then
goes on. The DETAIL is the model's choice (log entry 45). It also rests on log entries 3 and 95. -/
def Claim.PartResetClearsPartition : Prop :=
  ∀ (t : Nat) (h : Half) (p : Nat) (s0 : State),
    let s := s0.advance t
    let s1 := s.log h { code := 0x28, cls := 4, detail := p }
    let s2 := ((s1.half h).jobsOf p).foldl (fun t c => t.forceDown h c) s1
    let u := (s2.modDolly h (fun d => d.resetGroups p)).modDisp h (fun d => d.resetCues p)
    let run := exec (.partReset t h p) s0
    s.live h = true →
    (s.teardownOver h p 10000 = false → run = .next s) ∧
    (s.teardownOver h p 10000 = true →
      run = .next (u.finishArming h).dispatchBoth ∧
      (∀ c ∈ (s.half h).jobsOf p, (u.job h c).exec = none ∧ (u.job h c).dark = []) ∧
      (∀ n, (tget ({} : Group) (s2.half h).dolly.groups (n / 256)).part = p →
        (tget ({} : Thread) (u.half h).dolly.threads n).busy = false) ∧
      (∀ c ∈ (u.half h).disp.cues, c.2.users = 2 ^ p → c.2.counter = c.2.init) ∧ u.mem = s.mem ∧ u.hostMem = s.hostMem)

/-- What a print does, and the completion status that it writes (R110). -/
def Obligations.CompletionStatusFields : Prop := Claim.StatusLayout ∧ Claim.StatusSources ∧ Claim.AtomicsExecute ∧ Claim.PrintTakesEffect

/-- What a kill leaves, and what a teardown records. -/
def Obligations.KillAndTeardown : Prop := Claim.KillLeavesMemory ∧ Claim.TeardownRecordsFault

/-- The commands that end a job's command from outside, each at its limit. -/
def Obligations.WatchdogsAndOverruns : Prop :=
  Claim.WatchdogExpiry ∧ Claim.HoldOverrunTearsDown ∧ Claim.SlotOverrunTearsDown ∧ Claim.PartResetClearsPartition

/-! ### Threads, token buckets, groups and banks -/

/-- LINE_RESPONSE to a thread of a live command that awaits that request, for the line that the thread generates,
where that
is a line of the half's own bank pool that the regions admit (R162, R163, R176): a good line is delivered; a corrected one
also counts in its bank's CE_COUNT and leaves its syndrome; an uncorrectable one counts in UE_COUNT, counts as a
disagreement
of its bank group, and kills the command for a retake with BANK_UE, class 1, that names it. Where the thread feeds the K or V of
an ATTN whose page table fails its validation, no page is read: the job is torn down with ATTN_PAGES (R212). A response that the
thread does
not await, or for another line, changes nothing. The place of SESSION in DETAIL is log entry 106, and that a request answered out of
order stays among the eight is log entry 139. It also rests on log entry 3. -/
def Claim.LineResponseFollowsItsCheck : Prop :=
  ∀ (t : Nat) (h : Half) (thread gen addr syn word : Nat) (check : LineCheck) (s0 : State),
    let s := s0.advance t
    let th := s.thread h thread
    let b := bankAt h addr
    let counted := s.modBank h b (fun x => { x with ueCount := min 0xFF (x.ueCount + 1), syndrome := syn % 128 })
    s.live h = true →
    (∀ d, th.awaits gen = true → s.requestLine h th gen = some (addr / 64) → s.tableRefused h thread th = some d →
      ∃ u : State, exec (.lineResponse t h thread gen addr check) s0 = .next u ∧
        u = s.teardown h th.ctx 0x23 (s.tagOf h th.ctx) d ∧ (u.job h th.ctx).fault = 0x23 ∧
        (u.job h th.ctx).status = .teardown ∧ u.mem = s.mem) ∧
    (th.awaits gen = true → s.requestLine h th gen = some (addr / 64) → s.tableRefused h thread th = none →
      s.threadLives h thread th.ctx = true → s.reaches h th addr = true → s.target addr = .bankPool h →
      exec (.lineResponse t h thread gen addr .ok) s0 = .next (s.modThread h thread (Thread.answer gen)) ∧
      exec (.lineResponse t h thread gen addr (.corrected syn)) s0 = .next
        ((s.modBank h b (fun x => { x with ceCount := min 0xFFFF (x.ceCount + 1), syndrome := syn % 128 })).modThread h
          thread (Thread.answer gen)) ∧
      exec (.lineResponse t h thread gen addr (.uncorrectable word syn)) s0 = .next
        ((((counted.disagree h (2 + b / 64)).log h
          { code := 0x0401, cls := 1, unit := 2 + b / 64, ctx := th.ctx, tag := s.tagOf h th.ctx
            detail := s.jobSession h th.ctx + b * 2 ^ 32 + bankLine (addr - poolBase h) * 2 ^ 16 + word % 16 * 2 ^ 8 + syn % 128 }).kill h th.ctx
          .same).dispatch h)) ∧
    ((th.awaits gen = false ∨ s.requestLine h th gen ≠ some (addr / 64)) →
      exec (.lineResponse t h thread gen addr check) s0 = .next s)

/-- Responses are delivered to their thread in generation order (R163): the count delivered never falls, everything
below it
has been answered, and the generation just answered is either delivered or held until those before it are. -/
def Claim.ResponsesInOrder : Prop :=
  ∀ (gen : Nat) (t : Thread), t.awaits gen = true → t.returned.Nodup → (∀ g ∈ t.returned, t.delivered < g ∧
  g < t.delivered + 8) →
    let u := Thread.answer gen t
    t.delivered ≤ u.delivered ∧ (gen < u.delivered ∨ gen ∈ u.returned) ∧ u.delivered ∉ u.returned ∧
    (∀ g, t.delivered ≤ g → g < u.delivered → g = gen ∨ g ∈ t.returned) ∧ gen < u.generated ∧ u.stalled = false

/-- TOKEN_BUCKET_REFILL (R169, R293): every bucket gains its rate for the reference time that has passed since the last
refill, no more than asked, and holds at most its burst; tokens are never lost but by the cap. The buckets of the Horizon,
Director and PCIe ports gain likewise, up to 64 lines, after what they owe. A stalled thread goes on exactly where the regulator it
waits for now holds a line's tokens; one that waits for its level in the HBM goes on when it is answered. Landing and host writes
that wait for their port then go on as far as they can. It also rests on log entry 1. -/
def Claim.RefillAddsTokens : Prop :=
  ∀ (t : Nat) (h : Half) (ns p i k : Nat) (s0 : State),
    let s := s0.advance t
    let d := (s.half h).dolly
    let m := (s.half h).hbm
    let n := min ns (s.now - d.refilledAt)
    s.live h = true → p < 8 → i < 3 →
    ∃ u : State, exec (.tokenBucketRefill t h ns) s0 = .next (u.freeHeld h) ∧ (d.held = [] → u.freeHeld h = u) ∧
      ((u.half h).dolly.tokHbm.getD p 0 =
        min (d.tokHbm.getD p 0 + (if d.hbmRate p = 0 then 0 else d.hbmRate p * n)) (64000 * burstOf (d.regHbm.getD p 0))) ∧
      ((u.half h).dolly.tokCtr.getD p 0 =
        min (d.tokCtr.getD p 0 + (if d.ctrRate p = 0 then 0 else d.ctrRate p * n)) (64000 * burstOf (d.regCtr.getD p 0))) ∧
      ((u.half h).hbm.tokPort.getD i 0 = min (m.tokPort.getD i 0 + (portCaps.getD i 0 * n - m.owed.getD i 0)) 4096000) ∧
      ((u.half h).hbm.owed.getD i 0 = m.owed.getD i 0 - portCaps.getD i 0 * n) ∧
      (let x := tget ({} : Thread) d.threads k
       (tget ({} : Thread) (u.half h).dolly.threads k).stalled =
         (x.stalled && (x.waitsOn == 2 || !((u.half h).dolly.hasTokens x.waitsOn (x.ctx / 32) 1)))) ∧
      (u.half h).dolly.refilledAt = d.refilledAt + n ∧ (u.half h).dolly.banks = d.banks ∧
      (u.half h).dolly.groups = d.groups ∧
      u.mem = s.mem ∧ u.half (otherHalf h) = s.half (otherHalf h)

/-- SCRUBBER (R178): the background scrubber's next line is checked and it moves on, over the 8,192 lines of each of the
256 banks in turn; a corrected line counts in CE_COUNT, an uncorrectable one in UE_COUNT with its event, and no command is
killed for it. It also rests on log entry 98. -/
def Claim.ScrubberWalks : Prop :=
  ∀ (t : Nat) (h : Half) (check : LineCheck) (s0 : State),
    let s := s0.advance t
    let d := (s.half h).dolly
    s.live h = true →
    ∃ u : State, exec (.scrubber t h check) s0 = .next u ∧
      (u.half h).disp = (s.half h).disp ∧ u.mem = s.mem ∧
      (u.half h).dolly.scrubLine = (if d.scrubLine + 1 < 8192 then d.scrubLine + 1 else 0) ∧
      (u.half h).dolly.scrubBank = (if d.scrubLine + 1 < 8192 then d.scrubBank else (d.scrubBank + 1) % 256) ∧
      (match check with
       | .ok => u.bank h d.scrubBank = s.bank h d.scrubBank ∧ (u.half h).isl = (s.half h).isl
       | .corrected syn => (u.half h).isl = (s.half h).isl ∧ u.bank h d.scrubBank = { s.bank h d.scrubBank with
           ceCount := min 0xFFFF ((s.bank h d.scrubBank).ceCount + 1), syndrome := syn % 128 }
       | .uncorrectable _ syn => (u.half h).isl.logCount = ((s.half h).isl.logCount + 1) % 65536 ∧
           u.bank h d.scrubBank = { s.bank h d.scrubBank with
             ueCount := min 0xFF ((s.bank h d.scrubBank).ueCount + 1), syndrome := syn % 128 })

/-- DOLLY_APPLY, HBM_APPLY, CTR_RETRAIN and the writes of GROUP_CTL, PROT_CTL and CTR_APPLY from the secure world do what
their registers say: an apply takes the values as now written, for the next slot boundary (R13, R171, R200, R310, R315,
R316); from the non-secure world each is refused and logged, and changes nothing else (R199; log entry 14 for the entry's CODE,
45 for its DETAIL). -/
def Claim.ApplyRegisters : Prop :=
  ∀ (t : Nat) (h : Half) (g : Nat) (v : BitVec 32) (s0 : State),
    let s := s0.advance t
    let refused := fun (u d : Nat) => s.logUnlisted h .writeRefused { code := 0, unit := u, detail := d }
    s.live h = true →
    exec (.dollyApply t h .secure) s0 = .next (s.modDolly h (fun d =>
      { d with applyPending := true, takeHbm := d.stagedHbm, takeCtr := d.stagedCtr })) ∧
    exec (.hbmApply t h .secure) s0 =
      .next (s.modHbm h (fun m => { m with applyPending := true, takePort := m.stagedPort })) ∧
    exec (.ctrRetrain t h .secure) s0 =
      .next (s.modLink h (fun l => if l.state = 2 then { l with retraining := true } else l)) ∧
    exec (.ctrApply t h .secure) s0 = .next (s.modLink h (fun l =>
      if 512 < l.stagedShare.foldl (· + ·) 0 then { l with err := true }
      else { l with err := false, applyPending := true, takeShare := l.stagedShare })) ∧
    (g < 96 → ¬(((s.half h).dolly.group g).enabled = true ∧ flag v.toNat 31 = true) →
      exec (.groupCtlWrite t h g v .secure) s0 =
        .next (s.modDolly h (fun d => { d with groups := tmod {} d.groups g (Group.write v.toNat) }))) ∧
    (g < 96 → ((s.half h).dolly.group g).enabled = true → flag v.toNat 31 = true →
      exec (.groupCtlWrite t h g v .secure) s0 = .next (refused 1 (0x100400 + 4 * g))) ∧
    ((s.half h).prot.lock = false →
      exec (.protCtlApply t h v .secure) s0 = .next (s.modProt h (Prot.write h v.toNat))) ∧
    ((s.half h).prot.lock = true → exec (.protCtlApply t h v .secure) s0 = .next (refused 0xFF 0x800000)) ∧
    exec (.dollyApply t h .nonSecure) s0 = .next (refused 1 0) ∧
    exec (.hbmApply t h .nonSecure) s0 = .next (refused 10 0) ∧
    exec (.ctrRetrain t h .nonSecure) s0 = .next (refused 11 0) ∧
    exec (.ctrApply t h .nonSecure) s0 = .next (refused 11 0) ∧
    exec (.groupCtlWrite t h g v .nonSecure) s0 = .next (refused 1 0) ∧
    exec (.protCtlApply t h v .nonSecure) s0 = .next (refused 0xFF 0)

/-- What an accepted apply leaves at the next slot boundary is what the registers held at the APPLY: a value written
after it
waits for an apply of its own (R13; log entry 40, the model's reading). -/
def Claim.ApplyTakesWhatWasWritten : Prop :=
  (∀ d : Dolly, d.applyPending = true →
    d.apply.regHbm = d.takeHbm ∧ d.apply.regCtr = d.takeCtr ∧ d.apply.stagedHbm = d.stagedHbm ∧
    d.apply.applyPending = false) ∧
  (∀ m : Hbm, m.applyPending = true → m.apply.hznPrio = field m.takePort 7 6 ∧ m.apply.dirPrio = field m.takePort 5 4 ∧
    m.apply.pciePrio = field m.takePort 3 2 ∧ m.apply.applyPending = false) ∧
  (∀ l : Link, l.applyPending = true → l.apply.share = l.takeShare ∧ l.apply.applyPending = false) ∧
  (∀ p : Prot, p.pending = true → p.apply.regions = p.take ∧ p.apply.enforce = p.takeEnforce ∧
    p.apply.lock = (p.lock || p.takeLock) ∧ p.apply.pending = false) ∧
  (∀ (d : Dolly) (m : Hbm) (l : Link) (p : Prot), d.applyPending = false → m.applyPending = false →
  l.applyPending = false →
    p.pending = false → d.apply = d ∧ m.apply = m ∧ l.apply = l ∧ p.apply = p)

/-- GROUP_DISABLE_DONE (R200): when the last thread of a group whose ENABLED was cleared is free, the clear takes
effect and
the value that waits is written, and an arming that waits for it goes on (R327); a group that is not being disabled,
or has
threads, stays as it is. It also rests on log entries 3 and 114. -/
def Claim.GroupDisableTakesEffect : Prop :=
  ∀ (t : Nat) (h : Half) (g : Nat) (s0 : State),
    let s := s0.advance t
    let x := (s.half h).dolly.group g
    let u := s.modDolly h (fun d => { d with groups := tput d.groups g { x with
      enabled := flag (x.next.getD 0) 7, part := field (x.next.getD 0) 2 0, disabling := false, next := none } })
    s.live h = true →
    (x.disabling = true → x.active = 0 → exec (.groupDisableDone t h g) s0 = .next ((u.finishArming h).dispatch h)) ∧
    ((s.half h).disp.armRest = none → u.finishArming h = u) ∧
    (¬(x.disabling = true ∧ x.active = 0) → exec (.groupDisableDone t h g) s0 = .next s)

/-- BANK_CTL (R183 to R185): a write by the owning job in the secure world, while no unprinted command of that job
uses the
bank, hands the bank over as written; with SCRUB every byte of it reads 0 from then on, and every byte outside it is
unchanged. While such a command uses it the owner's write is refused and logged, and the island's first tears that
job down.
From any writer but the owner and the island a write is refused and logged. SCRUB_DONE ends the scrub, and the writes that
wait for it go on. It also rests on log entry 109. -/
def Obligations.BankHandover : Prop :=
  ∀ (t : Nat) (h : Half) (bank ctx : Nat) (w : World) (v : BitVec 32) (s0 : State),
    let s := s0.advance t
    let old := s.bank h bank
    let written : Bank := { old with
      owned := flag v.toNat 31, hostWr := flag v.toNat 30
      scrubbing := old.scrubbing || flag v.toNat 29, ownerPart := field v.toNat 7 5, ownerRole := field v.toNat 4 0 }
    let scrubbed := (s.zeroBank h bank).modBank h bank (fun b => { b with scrubbing := false })
    s.supplied h = true → Memory.wf s.mem = true →
    (bank < 256 → old.ownedBy ctx = true → s.bankBusy h bank = false →
      ∃ u : State, exec (.bankCtlWrite t h bank v (.job ctx .secure)) s0 = .next u ∧ u.bank h bank = written ∧
        (∀ a, inRange (poolBase h) poolBytes a = false ∨ bankOf (a - poolBase h) ≠ bank → u.readByte a = s.readByte a) ∧
        (flag v.toNat 29 = true → ∀ a, inRange (poolBase h) poolBytes a = true → bankOf (a - poolBase h) = bank →
          u.readByte a = 0) ∧ (flag v.toNat 29 = false → ∀ a, u.readByte a = s.readByte a)) ∧
    ((old.ownedBy ctx = false ∨ s.bankBusy h bank = true) → exec (.bankCtlWrite t h bank v (.job ctx .secure)) s0 = .next
      (s.log h { code := 0x0403, unit := 2 + bank / 64, ctx := ctx, detail := bank })) ∧
    exec (.bankCtlWrite t h bank v (.job ctx .nonSecure)) s0 = .next
      (s.log h { code := 0x0403, unit := 2 + bank / 64, ctx := ctx, detail := bank }) ∧
    exec (.bankCtlWrite t h bank v .firmware) s0 = .next
      (s.log h { code := 0x0403, unit := 2 + bank / 64, detail := bank }) ∧
    exec (.bankCtlWrite t h bank v (.host w)) s0 = .next
      (s.log h { code := 0x0403, unit := 2 + bank / 64, detail := bank }) ∧
    (s.bankBusy h bank = false → exec (.bankCtlWrite t h bank v .island) s0 = .next (s.handover h bank v.toNat)) ∧
    (s.bankBusy h bank = true → exec (.bankCtlWrite t h bank v .island) s0 =
      .next ((s.teardown h (old.ownerPart * 32 + old.ownerRole) 0 0 0).handover h bank v.toNat)) ∧
    (old.scrubbing = true → exec (.scrubDone t h bank) s0 = .next ((scrubbed.drain h).freeHeld h)) ∧
    (old.scrubbing = false → exec (.scrubDone t h bank) s0 = .next s) ∧
    ((s.half h).link.writeQueue = [] → (s.half h).dolly.held = [] → (scrubbed.drain h).freeHeld h = scrubbed)

/-! ### HBM -/

/-- Refresh, the passes that fall due, training and the stack's temperature (R290, R294 to R296). A refresh of a bank that
nothing holds blocks it for at most 160 ns, and one of a bank that is held waits; a pass falls due 1 s after the last
one or
after a change of 5 °C, and not before, and is late, once, 1 s later; training ends an untrained stack's power-up with its
spare lanes, or fails with an event, and does nothing to a stack that has been trained; refresh doubles above 85 °C. It also
rests on log entries 3, 37 and 117. -/
def Claim.HbmMaintenance : Prop :=
  ∀ (t : Nat) (h : Half) (pc bank temp lanes : Nat) (ok : Bool) (s0 : State),
    let s := s0.advance t
    let m := (s.half h).hbm
    let q := tget ({} : HbmQueue) m.queues pc
    let isDue := m.train = 2 ∧
      (m.passAt + 1000000000 ≤ s.now ∨ m.passTemp + 5 ≤ m.stackTemp ∨ m.stackTemp + 5 ≤ m.passTemp)
    s.supplied h = true →
    (q.holds s.now bank = false → ∃ (n : Nat) (u : State), n ≤ 160 ∧ exec (.hbmRefresh t h pc bank) s0 = .next u ∧
      tget ({} : HbmQueue) (u.half h).hbm.queues pc =
        { q with blocked := (bank, s.now + n) :: q.blocked.filter (fun b => decide (s.now < b.2)) } ∧
      (∀ c, c ≠ pc → tget ({} : HbmQueue) (u.half h).hbm.queues c = tget ({} : HbmQueue) m.queues c) ∧
      u.mem = s.mem ∧ (u.half h).isl = (s.half h).isl ∧ u.half (otherHalf h) = s.half (otherHalf h)) ∧
    (q.holds s.now bank = true → exec (.hbmRefresh t h pc bank) s0 = .next s) ∧
    (isDue → m.retrainDue = false →
      exec (.retrainDue t h) s0 =
        .next (s.modHbm h (fun m => { m with retrainDue := true, dueSince := some s.now }))) ∧
    ((¬isDue ∨ m.retrainDue = true) → exec (.retrainDue t h) s0 = .next s) ∧
    (∀ a, m.dueSince = some a → a + 1000000000 ≤ s.now → m.retrainLate = false →
      exec (.hbmRetrainLate t h) s0 =
        .next ((s.modHbm h (fun m => { m with retrainLate := true })).log h { code := 0x0110, unit := 10 })) ∧
    ((m.retrainLate = true ∨ ∀ a, m.dueSince = some a → s.now < a + 1000000000) →
      exec (.hbmRetrainLate t h) s0 = .next s) ∧
    (m.train < 2 → exec (.hbmTraining t h true lanes) s0 = .next (s.modHbm h (fun m =>
      { m with train := 2, lanesRepaired := min 63 lanes, passAt := s.now, passTemp := m.stackTemp }))) ∧
    (m.train < 2 → exec (.hbmTraining t h false lanes) s0 =
      .next ((s.modHbm h (fun m => { m with train := 3 })).log h { code := 0x0111, unit := 10 })) ∧
    (2 ≤ m.train → exec (.hbmTraining t h ok lanes) s0 = .next s) ∧
    exec (.hbmTempRead t h temp) s0 =
      .next (s.modHbm h (fun m => { m with stackTemp := temp % 256, refresh2x := decide (85 < temp % 256) }))

/-- HBM_RETRAIN_STEP (R295): in a retraining window, with a pass due, at least 5 µs after the pseudo-channel's last
step, it
makes one of its 16 steps on a bank that nothing holds, and blocks that bank for at most 200 ns; else it does nothing. The
step that completes the pass ends it: the pass is counted, nothing is due any more, and every pseudo-channel starts again
at 0. It also rests on log entries 3 and 37. -/
def Claim.RetrainStepAndPass : Prop :=
  ∀ (t : Nat) (h : Half) (pc bank : Nat) (s0 : State),
    let s := s0.advance t
    let m := (s.half h).hbm
    let q := tget ({} : HbmQueue) m.queues pc
    let may := m.retrainDue = true ∧ (s.half h).retrainWindow = true ∧ (∀ a, q.lastStepAt = some a → a + 5000 ≤ s.now) ∧
      q.steps < 16 ∧ q.holds s.now bank = false
    let last := ∀ c, c < 32 → (if c = pc then q.steps + 1 else (tget ({} : HbmQueue) m.queues c).steps) = 16
    s.live h = true →
    (may → ∃ (u : State) (n : Nat), n ≤ 200 ∧ exec (.hbmRetrainStep t h pc bank) s0 = .next u ∧
      (¬last → (tget ({} : HbmQueue) (u.half h).hbm.queues pc).steps = q.steps + 1 ∧ (u.half h).hbm.passes = m.passes ∧
        (u.half h).hbm.retrainDue = true) ∧
      (last → (∀ c, c < 32 → (tget ({} : HbmQueue) (u.half h).hbm.queues c).steps = 0) ∧
        (u.half h).hbm.passes = min 0xFFFFFFFF (m.passes + 1) ∧ (u.half h).hbm.retrainDue = false ∧
        (u.half h).hbm.retrainLate = false ∧ (u.half h).hbm.passAt = s.now) ∧
      (tget ({} : HbmQueue) (u.half h).hbm.queues pc).lastStepAt = some s.now ∧
      (tget ({} : HbmQueue) (u.half h).hbm.queues pc).blocked =
        (bank, s.now + n) :: q.blocked.filter (fun b => decide (s.now < b.2)) ∧
      u.mem = s.mem ∧ (u.half h).isl = (s.half h).isl ∧ u.half (otherHalf h) = s.half (otherHalf h)) ∧
    (¬may → exec (.hbmRetrainStep t h pc bank) s0 = .next s)

/-- The pick (R292): one command slot takes the head request of a bank that nothing holds, of the most urgent level that has such
a bank, and the pointer moves past its bank. -/
def Claim.PickIsMostUrgent : Prop :=
  ∀ (now : Nat) (q : HbmQueue) (r : HbmReq), (List.range 4).findSome? (q.ready now) = some r →
    q.head r.bank = some r ∧ q.holds now r.bank = false ∧ r.bank < 48 ∧
    (∀ (b : Nat) (x : HbmReq), b < 48 → q.head b = some x → q.holds now b = false → r.level ≤ x.level) ∧
    (q.pick now).reqs = q.reqs.erase r ∧ (q.pick now).pointer = (r.bank + 1) % 48

/-- HBM_READ_RESPONSE of a half's own trained stack (R292, R293, R298 to R300): a read whose port has its tokens and that stands in
its queue, or finds room there, is served once the pick takes it: it spends its port's tokens and moves its pseudo-channel's pointer
past its bank. A good one is then answered; a corrected one also counts in CE_COUNT; a failed one counts in UE_COUNT and is an error
event of its type, with its error response. One whose bank is held stands in its queue. A response after its timeout or its command's
kill is discarded, though what its checks find is still counted and logged, and one waits while its port has no tokens or its level no
room. One that the region descriptors refuse is not served (R314). It also rests on log entries 3, 20, 51 and 118. -/
def Claim.HbmReads : Prop :=
  ∀ (t : Nat) (h : Half) (port : HbmPort) (addr syn : Nat) (check : HbmCheck) (stale : Bool) (s0 : State),
    let s := s0.advance t
    let pc := hbmPc (hbmOffset h addr)
    let x := s.serveRead h port addr
    let moved := x.1.portSpend h port
    let counted := fun (c : HbmCheck) => moved.countRead h addr c
    let run := fun (c : HbmCheck) => exec (.hbmReadResponse t h port addr { check := c, stale := stale }) s0
    let err := fun (v : State) => tget ({} : HbmErr) (v.half h).hbm.pcErr pc
    let open' := s.readQueued h port addr = true ∨ s.levelRoom h port addr 1 = true
    let asked := s.discards h port addr stale = false ∧ s.portAdmits h port false (addr / 64 * 64) 64 = true
    s.supplied h = true → s.target addr = .hbm h → (s.half h).hbmServed = true →
    (asked → s.portReady h port 1 = true → open' → x.2 = true →
      run .ok = .next ((counted .ok).answerRead h addr port) ∧
      run .corrected = .next ((counted .corrected).answerRead h addr port) ∧
      run (.ue syn) = .next ((counted (.ue syn)).hbmFails h 1 port addr syn) ∧
      run .onDie = .next ((counted .onDie).hbmFails h 2 port addr 0) ∧
      run .converter = .next ((counted .converter).hbmFails h 3 port addr 0) ∧
      err (counted .ok) = err moved ∧
      err (counted .corrected) = { err moved with ce := min 0xFFFF ((err moved).ce + 1) } ∧
      (∀ c, c = .ue syn ∨ c = .onDie ∨ c = .converter →
        err (counted c) = { err moved with ue := min 0xFF ((err moved).ue + 1) }) ∧
      (counted check).mem = s.mem ∧ ((counted check).half h).isl = (s.half h).isl ∧
      ((tget ({} : HbmQueue) ((counted check).half h).hbm.queues pc).pointer = (hbmBank (hbmOffset h addr) + 1) % 48)) ∧
    (asked → s.portReady h port 1 = true → open' → x.2 = false →
      run check = .next x.1 ∧ x.1.mem = s.mem ∧ x.1.readQueued h port addr = true) ∧
    (s.discards h port addr stale = true →
      run .ok = .next ((s.dropLate h port addr).countRead h addr .ok) ∧
      run (.ue syn) = .next (((s.dropLate h port addr).countRead h addr (.ue syn)).hbmError h 1 port addr syn)) ∧
    (asked → s.portReady h port 1 = false → run check = .next s) ∧
    (asked → s.portReady h port 1 = true → ¬open' → run check = .next (s.stallFor h addr port)) ∧
    (s.discards h port addr stale = false → s.portAdmits h port false (addr / 64 * 64) 64 = false →
      run check = .next (s.readRefuse h port addr) ∧ (s.readRefuse h port addr).mem = s.mem ∧
      (portCode port ≠ 0 → s.readRefuse h port addr = s))

/-- HBM_WRITE of a half's own stack (R292, R293, R297, R300, R314). A write that the regions admit, whose port has
its tokens
and whose level has room is queued: one of a Dolly thread acknowledges its line, one of any other port stores its
bytes and no
other, and spends a line's tokens. A write that fails its check is an error event of its type. Without tokens or room it
waits; one that the regions refuse stores nothing, and a host's is logged; on a stack that failed training it is a decode
error. It also rests on log entries 3, 51, 119 and 133. -/
def Claim.HbmWrites : Prop :=
  ∀ (t : Nat) (h : Half) (port : HbmPort) (addr c : Nat) (data : List Byte) (check : HbmWriteCheck) (s0 : State),
    let s := s0.advance t
    let run := fun (p : HbmPort) (k : HbmWriteCheck) => exec (.hbmWrite t h p addr data k) s0
    let free := fun (p : HbmPort) =>
      s.discards h p addr false = false ∧ s.portReady h p 1 = true ∧ s.levelRoom h p addr 1 = true
    s.live h = true → s.target addr = .hbm h → Memory.wf s.mem = true →
    ((s.half h).hbmServed = false → run port check = .next (s.portDecode h port addr)) ∧
    ((s.half h).hbmServed = true →
      (s.discards h port addr false = true → run port .ok = .next (s.dropLate h port addr) ∧
        run port .badInput = .next ((s.dropLate h port addr).hbmError h 4 port addr 0)) ∧
      (s.discards h port addr false = false → s.portReady h port 1 = false → run port check = .next s) ∧
      (s.discards h port addr false = false → s.portReady h port 1 = true → s.levelRoom h port addr 1 = false →
        run port check = .next (s.stallFor h addr port)) ∧
      (free (.dolly c) → s.portAdmits h (.dolly c) true addr data.length = true →
        run (.dolly c) .ok = .next ((s.enqueue h (.dolly c) addr).modJob h c (fun j =>
          { j with exec := j.exec.map (fun e =>
              { e with hbmDue := e.hbmDue.filter (fun a => a != addr / 64 * 64) }) })) ∧
        run (.dolly c) .corrected = run (.dolly c) .ok ∧
        run (.dolly c) .badInput = .next (s.hbmFails h 4 (.dolly c) addr 0) ∧
        run (.dolly c) .converter = .next (s.hbmFails h 3 (.dolly c) addr 0)) ∧
      (portCode port ≠ 0 → free port → s.portAdmits h port true addr data.length = true →
        ∃ u : State, run port .ok = .next u ∧
          (∀ k, k < data.length → u.readByte (addr + k) = data.getD k 0) ∧
          (∀ b, b < addr ∨ addr + data.length ≤ b → u.readByte b = s.readByte b) ∧
          (u.half h).hbm.tokPort.getD (portCode port - 1) 0 = (s.half h).hbm.tokPort.getD (portCode port - 1) 0 - 64000 ∧
          (u.half h).disp = (s.half h).disp ∧ (u.half h).isl = (s.half h).isl) ∧
      (free port → s.portAdmits h port true addr data.length = false →
        run port check = .next (s.portRefuse h port addr) ∧ (s.portRefuse h port addr).mem = s.mem ∧
        (port = .pcie → s.portRefuse h port addr =
          s.logUnlisted h .hostRefused { code := 0, unit := 14, detail := addr })))

/-- An HBM error event is one entry of HBM_LOG, at the head, and one of the fault log with CODE 0x0100 plus its type and
class 1 (R301); its response kills a Dolly command that has the request outstanding and could still print for a
retake, and
is discarded by one that is already being killed (R300). Parity errors are counted once and reissued; a timeout is
one from
20 µs after admission on, and not before, and its late response is noted for discarding (R299). The DETAIL of the fault log's entry
is the line's address, with SESSION above it (log entries 45 and 106). It also rests on log entries 3, 20 and 116. -/
def Claim.HbmErrorEvents : Prop :=
  ∀ (t : Nat) (h : Half) (addr ctx type syn : Nat) (s0 : State) (e : Exec),
    let s := s0.advance t
    let m := (s.half h).hbm
    let logged := s.hbmError h type (.dolly ctx) addr syn
    let late := s.modHbm h (fun m => { m with late := m.late ++ [(.dolly ctx, addr / 64 * 64)] })
    ((logged.half h).hbm.logHead = m.logCount % 64 ∧ (logged.half h).hbm.logCount = m.logCount + 1 ∧
      tget [] (logged.half h).hbm.log (m.logCount % 64) = s.hbmEntry h type (.dolly ctx) addr syn ∧
      (logged.half h).isl.logCount = ((s.half h).isl.logCount + 1) % 65536 ∧ logged.mem = s.mem) ∧
    ((s.job h ctx).exec = some e →
      (e.phase ≠ .killing → e.awaits addr = true →
        s.hbmFails h type (.dolly ctx) addr syn = (logged.kill h ctx .same).dispatch h) ∧
      ((e.phase = .killing ∨ e.awaits addr = false) → s.hbmFails h type (.dolly ctx) addr syn = logged)) ∧
    (s.live h = true → s.target addr = .hbm h →
      exec (.hbmParity t h (.dolly ctx) addr false) s0 =
        .next (s.modPcErr h (hbmPc (hbmOffset h addr)) (fun x => { x with parity := min 0xFF (x.parity + 1) })) ∧
      exec (.hbmParity t h (.dolly ctx) addr true) s0 = .next
        (((s.waitersOnPc h (hbmPc (hbmOffset h addr))).foldl (fun u c => u.kill h c .same)
          ((s.hbmFails h 5 (.dolly ctx) addr 0).failQueued h (hbmPc (hbmOffset h addr)))).dispatch h) ∧
      ((s.job h ctx).exec = some e →
        (e.awaits addr = true → e.admittedAt addr + 20000 ≤ s.now →
          exec (.hbmTimeout t h (.dolly ctx) addr) s0 = .next (late.hbmFails h 6 (.dolly ctx) addr 0)) ∧
        ((e.awaits addr = false ∨ s.now < e.admittedAt addr + 20000) →
          exec (.hbmTimeout t h (.dolly ctx) addr) s0 = .next s)))

/-- A thread's lines: their checks, and the order in which they are delivered. -/
def Obligations.LinesAreDelivered : Prop := Claim.LineResponseFollowsItsCheck ∧ Claim.ResponsesInOrder

/-- Dolly's background work: the token buckets and the scrubber. -/
def Obligations.RefillAndScrubber : Prop := Claim.RefillAddsTokens ∧ Claim.ScrubberWalks

/-- Register writes that change how Dolly, HBM, Contrail and the regions act, and the end of a group's disabling. -/
def Obligations.RegisterWritesOfDolly : Prop :=
  Claim.ApplyRegisters ∧ Claim.ApplyTakesWhatWasWritten ∧ Claim.GroupDisableTakesEffect

/-- HBM's upkeep: refresh, retraining, training and temperature. -/
def Obligations.HbmUpkeep : Prop := Claim.HbmMaintenance ∧ Claim.RetrainStepAndPass

/-- HBM's accesses, the order in which they are served, and their errors. -/
def Obligations.HbmAccesses : Prop :=
  Claim.PickIsMostUrgent ∧ Claim.HbmReads ∧ Claim.HbmWrites ∧ Claim.HbmErrorEvents

/-! ### Contrail -/

/-- Contrail delivers in order (R303, R305): a flit received well brings 128 bytes of the sender's oldest packet, and with
its last flit the packet leaves the sender for the receiver's write queue, which then drains; words corrected are
counted; an
uncorrectable word delivers nothing, and nothing more is received until the flit has been replayed; a good replay delivers
it, and every replay counts. While the link does not carry, nothing happens. That the sending half counts the replays is log
entry 50, the model's reading. It also rests on log entry 3. -/
def Claim.FlitsInOrder : Prop :=
  ∀ (t : Nat) (h : Half) (n : Nat) (check : FlitCheck) (ok : Bool) (p : LinkPacket) (rest : List LinkPacket) (s0 : State),
    let s := s0.advance t
    let o := otherHalf h
    let l := (s.half h).link
    let x := (s.half o).link
    let replayed := s.modLink h (fun l => { l with
      replays := min 0xFFFF (l.replays + 1), failedReplays := if ok then 0 else l.failedReplays + 1
      replayTimes := s.now :: l.replayTimes.filter (fun a => decide (s.now < a + 1000000)) })
    s.live h = true →
    (s.carries o = true → l.naked = false →
      exec (.flitReceive t h .ok) s0 = .next (s.deliverFlit o) ∧
      exec (.flitReceive t h (.corrected n)) s0 =
        .next ((s.modLink h (fun l => { l with corrected := min 0xFFFF (l.corrected + n) })).deliverFlit o) ∧
      exec (.flitReceive t h .uncorrectable) s0 = .next (s.modLink h (fun l => { l with naked := true }))) ∧
    ((l.naked = true ∨ s.carries o = false) → exec (.flitReceive t h check) s0 = .next s) ∧
    (s.carries h = true → x.naked = true →
      exec (.flitReplay t h ok) s0 = .next (if ok then replayed.deliverFlit h else replayed)) ∧
    ((x.naked = false ∨ s.carries h = false) → exec (.flitReplay t h ok) s0 = .next s) ∧
    (x.outData = p :: rest →
      (x.flitBytes + 128 < p.bytes.length →
        ((s.deliverFlit o).half o).link.outData = p :: rest ∧
        ((s.deliverFlit o).half o).link.flitBytes = x.flitBytes + 128 ∧
        ((s.deliverFlit o).half h).link.writeQueue = l.writeQueue ∧
        ((s.deliverFlit o).half h).link.flitSeq = l.flitSeq + 1 ∧ ((s.deliverFlit o).half h).link.naked = false ∧
        (s.deliverFlit o).mem = s.mem) ∧
      (p.bytes.length ≤ x.flitBytes + 128 → ∃ u : State, s.deliverFlit o = u.drain h ∧
        (u.half o).link.outData = rest ∧ (u.half o).link.flitBytes = 0 ∧
        (u.half h).link.writeQueue = l.writeQueue ++ [p] ∧ (u.half h).link.naked = false ∧ u.mem = s.mem ∧
        (u.half h).disp = (s.half h).disp ∧ (u.half o).disp = (s.half o).disp))

/-- The end of a push (R307, R314, R182). The oldest packet of a write queue whose banks take it and whose command stands
written is in memory, where the regions admit it and its job owns its banks, with no byte outside it changed, and its
acknowledgement is sent; a packet that is not admitted, or not owned, writes nothing, and its job is faulted; one whose
command has been killed is discarded. WRITE_COMPLETE takes the acknowledgement in the order of the messages: one
fewer is due
for its command, and it is not received out of that order. It also rests on log entries 3, 34 and 109. -/
def Obligations.WriteCompleteStoresPacket : Prop :=
  ∀ (t : Nat) (h : Half) (ctx : Nat) (p : LinkPacket) (s0 : State) (e : Exec),
    let s := s0.advance t
    let o := otherHalf h
    let line : Region := { base := p.addr, len := p.bytes.length }
    let u := s.landPacket h p
    Memory.wf s.mem = true →
    ((s.half h).link.writeQueue = [p] → s.packetWaits h p = false →
      s.drain h = ((s.modLink h (fun l => { l with writeQueue := [] })).landPacket h p).dispatchBoth) ∧
    ((s.half h).link.writeQueue = [p] → s.packetWaits h p = true → s.drain h = s) ∧
    ((s.job o p.ctx).exec = some e → e.phase = .written →
      (s.ownAdmits h (.remote p.ctx) (!p.nonSecure) true line = true → s.packetOwned h p = true →
        (∀ k, k < p.bytes.length → u.readByte (p.addr + k) = p.bytes.getD k 0) ∧
        (∀ a, a < p.addr ∨ p.addr + p.bytes.length ≤ a → u.readByte a = s.readByte a) ∧
        (s.linkUp h = true → (u.half h).link.outbox = (s.half h).link.outbox ++ [.written p.ctx]) ∧
        (u.half h).disp = (s.half h).disp ∧ u.half o = s.half o) ∧
      (s.ownAdmits h (.remote p.ctx) (!p.nonSecure) true line = false →
        u = s.teardown o p.ctx 0x25 (s.tagOf o p.ctx) p.addr ∧ u.mem = s.mem ∧ (u.job o p.ctx).fault = 0x25) ∧
      (s.ownAdmits h (.remote p.ctx) (!p.nonSecure) true line = true → s.packetOwned h p = false →
        u.mem = s.mem ∧ (u.job o p.ctx).fault = 0x21 ∧
        (u.half h).isl.logCount = ((s.half h).isl.logCount + 1) % 65536)) ∧
    ((s.job o p.ctx).exec = none → u = s) ∧
    (s.live h = true →
      (s.nextMessage h = some (.written ctx) → ∃ v : State, exec (.writeComplete t h ctx) s0 = .next (v.dispatch h) ∧
        (v.job h ctx).exec.map (·.acksDue) = (s.job h ctx).exec.map (fun e => e.acksDue - 1) ∧
        (v.half o).link.outbox = (s.half o).link.outbox.drop 1 ∧ v.mem = s.mem) ∧
      (s.nextMessage h ≠ some (.written ctx) → exec (.writeComplete t h ctx) s0 = .next s))

/-- Credits and control messages (R303, R304, R306, R308, R337). A credit that returns is one fewer in use of its
partition, and the partition's packets that wait take what its share in effect admits; with no credit out nothing happens, and where
the share is used up nothing is sent. The partner's oldest
message
leaves its outbox and takes its effect, here a signal of a cue homed in the receiving half, where it is a cue
operation or a
token request, and otherwise waits for its own row. A kill notice discards the killed command's packets from the
write queue,
gives back its credits, and, but for a wide variant's, the escrow held for it. What control messages carry is log entry 34, the
model's choice. It also rests on log entry 3. -/
def Claim.ContrailMessages : Prop :=
  ∀ (t : Nat) (h : Half) (cue amount ctx part : Nat) (m : CtrMessage) (j : Nat × Job) (e : Exec) (s0 : State),
    let s := s0.advance t
    let o := otherHalf h
    let jobs := (s.half h).disp.jobs
    let returned := (s.modJob h j.1 (fun x =>
      { x with exec := x.exec.map (fun e => { e with credits := e.credits - 1 }) })).modLink h
        (fun l => { l with creditsUsed := lmod 0 l.creditsUsed part (fun n => n - 1) })
    let noted := s.noteKill h ctx
    s.live h = true →
    (s.nextMessage h = some m →
      (ordinaryMessage m = true → exec (.controlMessage t h) s0 = .next ((s.dropMessage h).takeMessage h m).dispatchBoth) ∧
      (ordinaryMessage m = false → exec (.controlMessage t h) s0 = .next s) ∧
      ((s.dropMessage h).half o).link.outbox = (s.half o).link.outbox.drop 1) ∧
    (s.nextMessage h = none → exec (.controlMessage t h) s0 = .next s) ∧
    (cueHome cue = h → ∀ u : State, u.takeMessage h (.signal cue amount) = u.signalCue 0xFF 0 0 cue amount) ∧
    (jobs.find? ((s.half h).link.spent part) = some j →
      exec (.creditReturn t h part) s0 = .next (returned.sendWaiting h part)) ∧
    (∀ v : State, ((∀ q ∈ (v.half h).link.unsent, q.ctx / 32 ≠ part) ∨
        (v.half h).link.share.getD part 0 ≤ (v.half h).link.creditsUsed.getD part 0) → v.sendWaiting h part = v) ∧
    (∀ (v : State) (q : LinkPacket) (r : List LinkPacket), (v.half h).link.unsent.filter (fun p => p.ctx / 32 == part) = q :: r →
      (v.half h).link.share.getD part 0 = (v.half h).link.creditsUsed.getD part 0 + 1 →
      ((v.sendWaiting h part).half h).link.outData = (v.half h).link.outData ++ [q] ∧
      ((v.sendWaiting h part).half h).link.unsent = (v.half h).link.unsent.erase q) ∧
    (jobs.find? ((s.half h).link.spent part) = none → exec (.creditReturn t h part) s0 = .next s) ∧
    (s.nextMessage h = some (.killed ctx) →
      exec (.killNotice t h ctx) s0 = .next ((s.dropMessage h).noteKill h ctx).dispatchBoth) ∧
    ((∀ c, s.nextMessage h ≠ some (.killed c)) → (∀ k n, s.nextMessage h ≠ some (.stopRuns k n)) →
      exec (.killNotice t h ctx) s0 = .next s) ∧
    noted.mem = s.mem ∧
    (noted.half h).link.writeQueue = (s.half h).link.writeQueue.filter (fun p => p.ctx != ctx) ∧
    ((s.job o ctx).exec = some e → e.retake = .wide → (∀ q ∈ (s.half o).link.unsent, q.ctx ≠ ctx) →
      (noted.job o ctx).exec.map (fun x => (x.credits, x.escrow)) = some (0, e.escrow)) ∧
    ((s.job o ctx).exec = some e → e.phase = .killing → e.retake ≠ .wide → (∀ q ∈ (s.half o).link.unsent, q.ctx ≠ ctx) →
      (noted.job o ctx).exec.map (fun x => (x.credits, x.escrow)) =
        some (0, e.escrow.filter (fun p => cueHome p.1 != h)))

/-- CTR_DOWN (R309): of a link that is up, once no acknowledgement has come for 10 µs or one flit has failed 16 replays, it is
logged as class 6; the link is down, its queues are empty, and it waits for the next arming. Every job with a command, not killed
yet, that waits for a halo, names a cue homed in the partner half or writes into the partner's bank pool is torn down with CTR_LOST
(R23), and so is no job but those of `lostJobs`. What the half holds in escrow for the partner's commands goes back to its cues, and
none of them waits there any more (R337). A striped frame in hand that has not printed is not delivered, and a half that waited for a
halo falls back to its degraded sheet, where it holds one (R247, R252). Before that, and on a link that is not up, nothing
happens. That a link without a response counts as one with flits outstanding, and what is dropped with it, is log entry 110; what
control messages carry is log entry 34, and which half falls back log entry 163: the model's readings. It also rests on log entry 3. -/
def Claim.LinkGoesDown : Prop :=
  ∀ (t : Nat) (h : Half) (s0 : State),
    let s := s0.advance t
    let o := otherHalf h
    let l := (s.half h).link
    let logged := s.log h { code := 0x0201, cls := 6, unit := 11 }
    let u := logged.loseLink h
    s.live h = true →
    ((s.linkUp h = false ∨ (s.now < l.ackAt + 10000 ∧ l.failedReplays < 16)) → exec (.ctrDown t h) s0 = .next s) ∧
    (s.linkUp h = true → (l.ackAt + 10000 ≤ s.now ∨ 16 ≤ l.failedReplays) →
      exec (.ctrDown t h) s0 = .next u.dispatchBoth ∧
      (u.half h).link.state = 2 ∧ (u.half h).link.waitArm = true ∧ (u.half h).link.writeQueue = [] ∧
      (u.half h).link.outData = [] ∧ (u.half h).link.unsent = [] ∧ (u.half h).link.outbox = [] ∧ u.mem = s.mem ∧
      (∀ c e, (s.job h c).exec = some e → e.phase ≠ .killing →
        (e.halo.isSome = true ∨ (∃ r ∈ e.recs, ∃ k ∈ namedCues r, cueHome k ≠ h) ∨
          (∃ r ∈ e.recs, ∃ x ∈ (s.withObjects e.objects).outputsOf r, s.targetOf x = .bankPool o)) → c ∈ s.lostJobs h) ∧
      (∀ c ∈ s.lostJobs h, (u.job h c).fault = 0x2D ∧
        (u.job h c).status = (if (s.job h c).exec.isSome then .teardown else .faulted) ∧
        (u.job h c).exec.map (·.phase) = (s.job h c).exec.map (fun _ => .killing)) ∧
      (∀ c, c ∉ s.lostJobs h → (u.job h c).fault = (s.job h c).fault ∧ (u.job h c).status = (s.job h c).status) ∧
      (∀ j e, (s.job o j).exec = some e →
        (u.job o j).exec = some { e with escrow := e.escrow.filter (fun q => cueHome q.1 != h) }) ∧
      (∀ cue w, cueHome cue = h → w ∈ (u.cue cue).waiters → w.half = o → (s.job o w.ctx).exec = none) ∧
      (∀ c n, s.lostJobs h = [] → cueHome c = h → (s.cue c).waiters = [] →
        ((l.grantsOut = [] ∧ ∃ j x e, (s.half o).disp.jobs = [(j, x)] ∧ x.exec = some e ∧ e.escrow = [(c, n)]) ∨
          (l.grantsOut = [(c, n)] ∧ (s.half o).disp.jobs = [])) →
        (u.cue c).counter = min 0xFFFFFFFF ((s.cue c).counter + n)) ∧
      (u.half h).disp.switchPending = ((s.half h).disp.switchPending ||
        (!((s.half h).haloJobs.isEmpty) && decide ((s.half h).disp.sheetState = 1) && (s.half h).disp.degraded.isSome)) ∧
      (∀ c en q f, s.stripeJob h c = true → (s.job h c).entry = some en → (s.job h c).frame = some q → en.stream < 24 →
        f ∈ (u.stream h en.stream).frames → f.seq = q → f.printed = none → f.withheldBy = true))

/-- CTR_DEGRADED and CTR_TRAIN (R309, R310): more than 64 replays within 1 ms are logged and the link stays up, and fewer are not;
training brings both ends up with the spare lanes used, where both halves run and are not failed and each end may train or is
down, one of them at its power-up, its restart or its RETRAIN; ends that may not train stay as they are, and a part with one half
has no link to train. Jobs wait on for their arming. The DETAIL of CTR_DEGRADED is log entry 45. It also rests on log
entry 3. -/
def Claim.LinkIsTrained : Prop :=
  ∀ (t : Nat) (h : Half) (spares : Nat) (s0 : State),
    let s := s0.advance t
    let late := (s.half h).link.replayTimes.filter (fun a => decide (s.now < a + 1000000))
    let up := fun (l : Link) => { l with
      state := 1, sparesUsed := min 16 spares, retraining := false, naked := false, failedReplays := 0, ackAt := s.now }
    let trains := s.twoHalves = true ∧ (s.mayTrain .a = true ∨ s.mayTrain .b = true) ∧
      ∀ k, s.supplied k = true ∧ (s.half k).boot.failed = false ∧ (s.mayTrain k = true ∨ (s.half k).link.state = 2)
    (s.live h = true →
      (64 < late.length → exec (.ctrDegraded t h) s0 = .next
        ((s.modLink h (fun x => { x with replayTimes := [] })).log h { code := 0x0202, unit := 11, detail := late.length })) ∧
      (late.length ≤ 64 → exec (.ctrDegraded t h) s0 = .next s)) ∧
    (trains → exec (.ctrTrain t spares) s0 = .next ((s.modLink .a up).modLink .b up)) ∧
    (¬trains → exec (.ctrTrain t spares) s0 = .next s)

/-- The link goes down, is reported when degraded, and is trained. -/
def Obligations.LinkDownAndTrained : Prop := Claim.LinkGoesDown ∧ Claim.LinkIsTrained

/-! ### Horizon -/

/-- Packets on an enabled port (R254 to R256, R276, R278): one bound to no context is discarded and counted (embedded data
silently, log entry 120); a corrected header counts too; one with an uncorrectable header is discarded, and marks
every open
frame of the port's streams with bit 2, unless the mark is final. A port that is not enabled takes no packet. It also rests
on log entry 3. -/
def Claim.UnboundPacketsAreCounted : Prop :=
  ∀ (t : Nat) (h : Half) (port vc dt wc : Nat) (payload : List Byte) (ok cor : Bool) (s0 : State),
    let s := s0.advance t
    let s1 := s.headerCount h port cor
    let gone := s1.modPort h port (fun x => { x with discarded := min 0xFFFF (x.discarded + 1) })
    s.live h = true →
    ((s.half h).portOn port = true →
      (cor = true → s1 = s.modPort h port (fun x => { x with corrected := min 0xFFFF (x.corrected + 1) })) ∧
      (cor = false → s1 = s) ∧
      ((s.half h).bound port vc = none →
        exec (.frameEnd t h port vc cor) s0 = .next gone ∧ exec (.lineStart t h port vc cor) s0 = .next gone ∧
        exec (.longPacket t h port vc dt wc payload ok cor) s0 = .next (if dt = 0x12 ∧ vc < 4 then s1 else gone)) ∧
      exec (.hdrUe t h port) s0 = .next ((s.modPort h port (fun x =>
        { x with discarded := min 0xFFFF (x.discarded + 1) })).modHzn h (fun z => { z with streams := z.streams.map (fun k =>
          (k.1, if k.2.cfg.enabled && k.2.cfg.port == port && k.2.open?.isSome then k.2.mark 2 else k.2)) }))) ∧
    ((s.half h).portOn port = false →
      exec (.frameStart t h port vc cor) s0 = .next s ∧ exec (.frameEnd t h port vc cor) s0 = .next s ∧
      exec (.lineStart t h port vc cor) s0 = .next s ∧ exec (.hdrUe t h port) s0 = .next s ∧
      exec (.longPacket t h port vc dt wc payload ok cor) s0 = .next s)

/-- FRAME_START of a context that an armed sheet names (R256, R264, R266, R276): the configuration that waited for it
takes
effect, and the newest frame bears the SHEET_FRAME of its output's last active edge, is not ended, its mark is not
final, and
holds what leader rows have left for that frame and UNLOCKED exactly where the timer was not LOCKED; at most 16 frames are
kept (log entry 41, the model's choice), no older one with its FRAME_SEQ. A frame still open then has come to its end early: LINE_COUNT
is in its mark, unless that was final, and the mark is final. Of a context that no armed sheet names the packet is discarded and
counted. It also rests on log entry 70. -/
def Claim.FrameStartOpensFrame : Prop :=
  ∀ (t : Nat) (h : Half) (port vc k : Nat) (cor : Bool) (s0 : State),
    let s := s0.advance t
    let s1 := ((s.headerCount h port cor).modHzn h (fun z =>
      { z with streams := z.streams.map (fun k => (k.1, k.2.adopt port vc)) })).settleSession h
    let x := s1.stream h k
    s.live h = true → (s.half h).portOn port = true → (s1.half h).bound port vc = some k →
    ((s.half h).namesStream k = true →
      ∃ (u : State) (f : Frame) (r : List Frame), exec (.frameStart t h port vc cor) s0 = .next u ∧
        (u.stream h k).frames = f :: r ∧ r.length ≤ 15 ∧
        f.seq = (tget ({} : Fsync) (s.half h).hzn.fsync x.cfg.fsyncSel).edgeFrame % 2 ^ 32 ∧ f.startedAt = s.now ∧
        f.ended = false ∧ f.final = false ∧ (∀ g ∈ r, g.seq ≠ f.seq) ∧
        f.mark = ((if x.leaderSeq = f.seq then x.leaderBits else 0) |||
          (if (s.half h).hzn.lockState = .locked then 0 else 2 ^ 7)) ∧
        (∀ p q, x.frames = p :: q → p.ended = false → p.seq ≠ f.seq → ∃ g, r.head? = some g ∧ g.seq = p.seq ∧
          g.ended = true ∧ g.final = true ∧ g.lastLanding = some (p.lastLanding.getD s.now) ∧
          g.mark = (if p.final then p.mark else p.mark ||| 2 ^ 3)) ∧
        (u.stream h k).activeLine = some 0 ∧ (u.stream h k).cfg = ((s.stream h k).adopt port vc).cfg ∧
        u.mem = s.mem ∧ (u.half h).disp = (s.half h).disp) ∧
    ((s.half h).namesStream k = false → exec (.frameStart t h port vc cor) s0 = .next
      (s1.modStream h k (fun x => { x with activeLine := some 0, discarded := min 0xFFFF (x.discarded + 1) })))

/-- The end of a frame (R271, R276). A frame-end after FRAME_ROWS line-starts ends the frame and leaves its mark open until its last
landing; after any other number it sets LINE_COUNT and the mark is final, and so does LINE_COUNT's own row at the sheet line before the
next expected frame-start (log entry 122), and not before. LINE_LATE marks a frame whose next row is past its landing bound, and only
such a one; where its frame-end has come and no line is left for the rows it lacks, that ends it too. A frame that ends early has its
last landing then (log entry 21, the model's reading); a final mark changes no more. It also rests on log entries 3 and 121. -/
def Claim.FrameEndFinalisesMark : Prop :=
  ∀ (t : Nat) (h : Half) (port vc k seq : Nat) (cor : Bool) (f : Frame) (r : List Frame) (s0 : State),
    let s := s0.advance t
    let z := (s.half h).hzn
    let c := (s.stream h k).cfg
    let early := fun (g : Frame) (mark : Nat) => g.final = true ∧ g.ended = true ∧ g.mark = mark ∧
      g.lastLanding = some (f.lastLanding.getD s.now)
    let late := f.final = false ∧ f.rowsLanded < c.outH ∧ f.expectAt + c.lastLineOf f.rowsLanded + 2 < z.lines
    let lacks := f.ended = true ∧ f.rowsFormed < c.outH
    s.live h = true → (s.stream h k).frames = f :: r → (∀ g ∈ r, g.seq ≠ f.seq) →
    (f.ended = false → f.final = false →
      ((s.half h).portOn port = true → (s.half h).bound port vc = some k →
        ∃ (u : State) (g : Frame), exec (.frameEnd t h port vc cor) s0 = .next u ∧ (u.stream h k).frames = g :: r ∧
          g.ended = true ∧ u.mem = s.mem ∧
          (f.lineStarts = c.frameRows → g = { f with ended := true }) ∧
          (f.lineStarts ≠ c.frameRows → early g (f.mark ||| 2 ^ 3) ∧ (u.stream h k).lastMark = g.mark % 65536)) ∧
      (f.expectAt + z.line.frameLines ≤ z.lines + 1 →
        ∃ (u : State) (g : Frame), exec (.lineCount t h k) s0 = .next u ∧ (u.stream h k).frames = g :: r ∧
          early g (f.mark ||| 2 ^ 3) ∧ u.mem = s.mem) ∧
      (z.lines + 1 < f.expectAt + z.line.frameLines → exec (.lineCount t h k) s0 = .next s)) ∧
    (late → ∃ (u : State) (g : Frame), exec (.lineLate t h k f.seq) s0 = .next u ∧ (u.stream h k).frames = g :: r ∧
      u.mem = s.mem ∧ (lacks → early g (f.mark ||| 2 ^ 5)) ∧ (¬lacks → g = { f with mark := f.mark ||| 2 ^ 5 })) ∧
    (¬late → exec (.lineLate t h k f.seq) s0 = .next s) ∧
    ((∀ g ∈ f :: r, g.seq ≠ seq) → exec (.lineLate t h k seq) s0 = .next s)

/-- LINE_START (R261, R262): the error is the arrival against the expected instant, none outside LINE_NS / 2. Of the
stream in
use, in ACQUIRING or LOCKED, the timer's correction becomes e / 8 toward zero, within 16 ns, and stays where there is no
error; the runs of good and bad packets count by LOCK_TOL. In HOLDOVER the correction stays, and the eighth
consecutive packet
with an error moves to ACQUIRING. Any other stream's line-start leaves the timer as it is. It also rests on log entry 49. -/
def Claim.LineStartSteersTimer : Prop :=
  ∀ (t : Nat) (h : Half) (port vc k i : Nat) (cor : Bool) (s0 : State),
    let s := s0.advance t
    let z := (s.half h).hzn
    let n := max 1 z.line.frameLines
    let want := ((s.stream h k).cfg.firstLine + i) % n
    let late : Int := (s.now : Int) - (z.lineStart : Int)
    let window := fun (e : Int) => if (2 * e).natAbs ≤ z.line.lineNs then some e else none
    let err := z.error? s.now (s.stream h k).cfg.firstLine i
    let good := ∃ e, err = some e ∧ e.natAbs ≤ z.line.lockTol
    s.live h = true → (s.half h).portOn port = true → (s.half h).bound port vc = some k →
    (s.stream h k).activeLine = some i →
    (want = z.lineNo → err = window late) ∧
    (want ≠ z.lineNo → want = (z.lineNo + 1) % n → err = window (late - (z.linePeriod : Int))) ∧
    (want ≠ z.lineNo → want ≠ (z.lineNo + 1) % n → err = none) ∧
    ∃ u : State, exec (.lineStart t h port vc cor) s0 = .next u ∧
      (u.stream h k).activeLine = some (i + 1) ∧ u.mem = s.mem ∧ (u.half h).disp = (s.half h).disp ∧
      (z.line.locked = true → z.inUse = k → (z.lockState = .acquiring ∨ z.lockState = .locked) →
        (u.half h).hzn.lockState = z.lockState ∧
        (∀ e, err = some e → (u.half h).hzn.delta = max (-16) (min 16 (Int.tdiv e 8)) ∧ (u.half h).hzn.lastE = e) ∧
        (err = none → (u.half h).hzn.delta = z.delta ∧ (u.half h).hzn.lastE = z.lastE) ∧
        (good → (u.half h).hzn.goodRun = z.goodRun + 1 ∧ (u.half h).hzn.badRun = 0) ∧
        (¬good → (u.half h).hzn.goodRun = 0 ∧ (u.half h).hzn.badRun = z.badRun + 1)) ∧
      (z.line.locked = true → z.inUse = k → z.lockState = .holdover →
        (u.half h).hzn.delta = z.delta ∧
        (err.isSome = true → 7 ≤ z.holdoverRun → (u.half h).hzn.lockState = .acquiring) ∧
        (err.isSome = true → z.holdoverRun < 7 → (u.half h).hzn.lockState = .holdover ∧
          (u.half h).hzn.holdoverRun = z.holdoverRun + 1) ∧
        (err = none → (u.half h).hzn.lockState = .holdover ∧ (u.half h).hzn.holdoverRun = 0)) ∧
      ((z.line.locked = false ∨ z.inUse ≠ k) → (u.half h).hzn.delta = z.delta ∧ (u.half h).hzn.lockState = z.lockState ∧
        (u.half h).hzn.goodRun = z.goodRun ∧ (u.half h).hzn.badRun = z.badRun)

/-- LINE_LOCK and LINE_UNLOCK (R262): 64 consecutive good packets move ACQUIRING to LOCKED, 8 consecutive bad ones move
ACQUIRING or LOCKED to HOLDOVER, or with ALT_EN to ACQUIRING on the other stream, both with their event; with fewer, or in
free-running mode, nothing happens. A sheet frame in locked mode without any line-start of the stream in use stands for eight bad
packets, so that LINE_UNLOCK follows it too. The DETAIL of the two events is log entry 45. It also rests on log entry 3. -/
def Claim.LockTransitions : Prop :=
  ∀ (t : Nat) (h : Half) (s0 : State),
    let s := s0.advance t
    let z := (s.half h).hzn
    let following := z.lockState = .acquiring ∨ z.lockState = .locked
    let lock := exec (.lineLock t h) s0
    let unlock := exec (.lineUnlock t h) s0
    s.live h = true →
    (z.line.locked = true → z.lockState = .acquiring → 64 ≤ z.goodRun →
      lock = .next ((s.modHzn h (fun z => { z with lockState := .locked, lockedAt := s.now })).log h
        { code := 0x0301, unit := 7, detail := z.inUse })) ∧
    ((z.line.locked = false ∨ z.lockState ≠ .acquiring ∨ z.goodRun < 64) → lock = .next s) ∧
    (z.line.locked = true → following → 8 ≤ z.badRun → z.line.altEn = false →
      unlock = .next ((s.modHzn h (fun z => { z with
          goodRun := 0, badRun := 0, holdoverRun := 0, seenThisFrame := true, lockState := .holdover })).log h
        { code := 0x0302, unit := 7, detail := z.inUse })) ∧
    (z.line.locked = true → following → 8 ≤ z.badRun → z.line.altEn = true →
      unlock = .next ((s.modHzn h (fun z => { z with
          goodRun := 0, badRun := 0, holdoverRun := 0, seenThisFrame := true, lockState := .acquiring, onAlt := !z.onAlt })).log
        h { code := 0x0302, unit := 7, detail := z.inUse })) ∧
    ((z.line.locked = false ∨ ¬following ∨ z.badRun < 8) → unlock = .next s) ∧
    (∀ (y : Hzn) (frame : Option Nat), y.line.locked = true → y.seenThisFrame = false → y.lineStaged = none →
      8 ≤ (Hzn.lineZero frame y).badRun) ∧
    (∀ (y : Hzn) (frame : Option Nat), y.seenThisFrame = true → y.lineStaged = none →
      (Hzn.lineZero frame y).badRun = y.badRun ∧ (Hzn.lineZero frame y).seenThisFrame = false)

/-- LONG_PACKET of the data type of a context that an armed sheet names, in an open frame (R255, R269, R276): it counts, a
bad CRC inside the crop marks bit 1, a wrong word count marks bit 4, and outside the crop no byte of memory changes.
Inside
it the line is gathered, and the last of VDEC × q lines makes an output row, which lands. It also rests on log entries 17 and
120. -/
def Claim.LongPacketMarksAndLands : Prop :=
  ∀ (t : Nat) (h : Half) (port vc k wc : Nat) (payload : List Byte) (ok cor : Bool) (f : Frame) (r : List Frame) (s0 : State),
    let s := s0.advance t
    let c := (s.stream h k).cfg
    let inCrop := c.cropY0 ≤ f.longPackets ∧ f.longPackets < c.cropY0 + c.cropH
    let line := c.cropLine (unpackLine c.dt c.linePixels payload)
    let lines := (s.stream h k).lines
    let mark := f.mark ||| (if ¬ok ∧ inCrop then 2 ^ 1 else 0) ||| (if wc ≠ lineBytes c.dt c.linePixels then 2 ^ 4 else 0)
    s.live h = true → (s.half h).portOn port = true → (s.half h).bound port vc = some k → c.dt ≠ 0x12 →
    (s.half h).namesStream k = true → (s.stream h k).frames = f :: r → f.ended = false → f.final = false →
    ∃ (u v : State) (g : Frame), exec (.longPacket t h port vc c.dt wc payload ok cor) s0 = .next u ∧
      (v.stream h k).frames = g :: r ∧ g.longPackets = f.longPackets + 1 ∧ g.mark = mark ∧ (v.stream h k).cfg = c ∧
      v.mem = s.mem ∧ (v.half h).disp = (s.half h).disp ∧
      ((¬inCrop ∨ f.lastLanding.isSome = true) → u = v) ∧
      (inCrop → f.lastLanding = none → lines.length + 1 < c.rowLines →
        u = v.modStream h k (fun x => { x with lines := lines ++ [line] })) ∧
      (inCrop → f.lastLanding = none → c.rowLines ≤ lines.length + 1 →
        u = (v.landRow h k (lines ++ [line])).modStream h k (fun x => { x with lines := [] }))

/-- A row lands (R182, R270 to R272, R276): where map, regions and owner admit it its bytes stand at its address and every
other byte is as it was; else nothing is written and LAND_ERR is marked. A saturation marks NORM_CLIP, and a row past its
bound LINE_LATE; the last row of the frame makes its mark final. The DETAIL of a refusal's entry is log entry 45. It also
rests on log entry 121. -/
def Claim.RowsLand : Prop :=
  ∀ (s : State) (h : Half) (k seq row a : Nat) (bytes : List Byte) (clip : Bool) (f : Frame) (r : List Frame),
    let c := (s.stream h k).cfg
    let v := s.landVerdict h c { base := a, len := bytes.length }
    let u := s.rowLands h k seq row a bytes clip
    let late := f.expectAt + c.lastLineOf row + 2 < (s.half h).hzn.lines
    Memory.wf s.mem = true → (s.stream h k).frames = f :: r → f.seq = seq → (∀ g ∈ r, g.seq ≠ seq) → f.final = false →
    (v = .ok → (∀ i, i < bytes.length → u.readByte (a + i) = bytes.getD i 0) ∧
      (∀ b, b < a ∨ a + bytes.length ≤ b → u.readByte b = s.readByte b)) ∧
    (v ≠ .ok → u.mem = s.mem) ∧
    (v = .owner ∨ v = .decode → (u.half h).isl.logCount = ((s.half h).isl.logCount + 1) % 65536) ∧
    ∃ g : Frame, (u.stream h k).frames = g :: r ∧ g.rowsLanded = f.rowsLanded + 1 ∧
      g.mark = f.mark ||| ((if clip then 2 ^ 8 else 0) ||| (if v = .ok then 0 else 2 ^ 6) ||| (if late then 2 ^ 5 else 0)) ∧
      (c.outH ≤ f.rowsLanded + 1 → g.final = true ∧ g.lastLanding.isSome = true ∧
        (u.stream h k).landed = min 0xFFFF ((s.stream h k).landed + 1)) ∧
      (f.rowsLanded + 1 < c.outH → g.final = false ∧ g.lastLanding = f.lastLanding)

/-- FSYNC_FAULT drives its output low, reads the other level at the ball (log entry 126, the row's word), and is logged (R266); HZN_APPLY from the secure
world takes the set as now written (log entry 40), for the slot boundary, or sets ERR and is logged with the first failing
condition, and is
refused from the non-secure world (R13, R264, R472); SHEET_FRAME_ADOPT has the later-locked of two halves locked to one
camera take the partner's SHEET_FRAME at its next line 0, and does nothing elsewhere (R268; log entry 125). It also rests on
log entry 3. -/
def Claim.HorizonControl : Prop :=
  ∀ (t : Nat) (h : Half) (out lane : Nat) (s0 : State),
    let s := s0.advance t
    let x := (s.half h).hzn
    let y := (s.half (otherHalf h)).hzn
    let may := s.live (otherHalf h) = true ∧ x.lockState = .locked ∧ y.lockState = .locked ∧
      (s.half h).masterCamera = (s.half (otherHalf h)).masterCamera ∧
      (y.lockedAt < x.lockedAt ∨ (x.lockedAt = y.lockedAt ∧ h = .b)) ∧ ((s.half h).isl.lanes.getD lane {}).silent = false
    s.live h = true →
    exec (.fsyncFault t h out) s0 = .next ((s.modHzn h (fun z => { z with fsync := tmod {} z.fsync out (fun f =>
      { f with sense := !f.driven, driven := false, linesLeft := 0, faulted := true }) })).log h
      { code := 0x0303, unit := 7, detail := out }) ∧
    (s.hznError h = 0 → ∃ u : State, exec (.hznApply t h .secure) s0 = .next u ∧ u = s.modHzn h Hzn.take ∧
      (u.half h).hzn.err = false ∧ (u.half h).hzn.pending = true ∧ (u.half h).hzn.line = x.line ∧
      (u.half h).hzn.lineTaken = x.lineWritten.or x.lineTaken ∧ (u.half h).hzn.lineWritten = none ∧
      (∀ k, (u.stream h k).taken = (s.stream h k).written.or (s.stream h k).taken ∧
        (u.stream h k).cfg = (s.stream h k).cfg)) ∧
    (s.hznError h ≠ 0 → exec (.hznApply t h .secure) s0 = .next ((s.modHzn h (fun z => { z with err := true })).logUnlisted h
      .applyRefused { code := 0, unit := 7, detail := s.hznError h })) ∧
    exec (.hznApply t h .nonSecure) s0 = .next (s.logUnlisted h .writeRefused { code := 0, unit := 7 }) ∧
    (may → exec (.sheetFrameAdopt t h lane) s0 = .next (s.modHzn h (fun z => { z with adopt := true }))) ∧
    (¬may → exec (.sheetFrameAdopt t h lane) s0 = .next s)

/-- SHEET_LINE (R260, R261, R264, R268): once the present line has lasted its period, and not before, the next one begins
where it ends (log entry 130); past the last line of the frame it is line 0 of the next sheet frame, or of the frame adopted, and the line
settings that waited take effect. Then follow, in this order, the slot boundary where one falls here, the releases, the
frame-sync outputs, the leader rows, the forecast, the session that waits, and the dispatch point; that order is log entry 86,
the model's choice. A half that a command of a released set has fenced or restarted ends the line at its slot boundary. It
also rests on log entry 3. -/
def Claim.SheetLineAdvances : Prop :=
  ∀ (t : Nat) (h : Half) (s0 : State),
    let s := s0.advance t
    let z := (s.half h).hzn
    let run := exec (.sheetLine t h) s0
    let ended := (s.half h).strictEnds
    let rest := fun (u : State) =>
      let v := if (u.half h).atSlotBoundary then u.slotBoundary h else u
      if v.lineRuns h then
        ((((((v.periodicReleases h).fsyncLine h).leaders h).cutSlices h).forecastLine h).settleSession h).dispatchWith h ended
      else v
    s.live h = true →
    (((s.half h).zen.regsOn = false ∨ s.now < z.lineStart + z.linePeriod) → run = .next s) ∧
    ((s.half h).zen.regsOn = true → z.lineStart + z.linePeriod ≤ s.now →
      (z.lineNo + 1 < z.line.frameLines → ∃ u : State, run = .next (rest u) ∧
        (u.half h).hzn = { z with
          lineStart := z.lineStart + z.linePeriod, linePeriod := z.period, lines := z.lines + 1, lineNo := z.lineNo + 1 } ∧
        u.mem = s.mem ∧ (u.half h).disp = (s.half h).disp ∧ u.half (otherHalf h) = s.half (otherHalf h)) ∧
      (z.line.frameLines ≤ z.lineNo + 1 → ∃ u : State, run = .next (rest (u.lineZero h)) ∧
        (u.half h).hzn = { z with
          lineStart := z.lineStart + z.linePeriod, linePeriod := z.period, lines := z.lines + 1, lineNo := 0
          sheetFrame := (z.sheetFrame + 1) % 2 ^ 32 } ∧
        u.mem = s.mem ∧ (u.half h).disp = (s.half h).disp ∧ u.half (otherHalf h) = s.half (otherHalf h)))

/-- What line 0 does to the timer (R261, R262, R264, R268): the partner's SHEET_FRAME is taken where it is to be adopted and is
there, and the line settings that waited are in effect, with the line's length. Free-running mode stops the correction. The timer
goes to ACQUIRING on MASTER where it becomes locked, where MASTER changes, and where ALT_MASTER changes while it is followed; any other
apply leaves the lock state, the correction and the stream in use as they are, but for a HOLDOVER that ALT_EN now ends. It
also rests on log entry 125. -/
def Claim.LineZeroTakesEffect : Prop :=
  ∀ (frame : Option Nat) (z : Hzn) (c : LineCfg),
    let y := Hzn.lineZero frame z
    let anew := z.line.locked = false ∨ c.master ≠ z.line.master ∨ (z.onAlt = true ∧ c.altMaster ≠ z.line.altMaster)
    y.sheetFrame = (if z.adopt then frame.getD z.sheetFrame else z.sheetFrame) ∧ y.adopt = false ∧ y.lineStaged = none ∧
    y.fsyncStaged = [] ∧ y.lineNo = z.lineNo ∧ y.lineStart = z.lineStart ∧ y.lines = z.lines ∧ y.linePeriod = y.period ∧
    (z.lineStaged = some c → y.line = c ∧ (c.locked = false → y.lockState = .freeRun ∧ y.delta = 0 ∧ y.onAlt = false) ∧
      (c.locked = true → anew → y.lockState = .acquiring ∧ y.onAlt = false ∧ y.goodRun = 0 ∧ y.badRun = 0 ∧
        y.delta = z.delta ∧ y.inUse = c.master) ∧
      (c.locked = true → ¬anew → ¬(c.altEn = true ∧ z.lockState = .holdover) →
        y.lockState = z.lockState ∧ y.onAlt = z.onAlt ∧ y.delta = z.delta) ∧
      (c.locked = true → ¬anew → c.altEn = true → z.lockState = .holdover →
        y.lockState = .acquiring ∧ y.onAlt = (!z.onAlt) ∧ y.delta = z.delta)) ∧
    (z.lineStaged = none → y.line = z.line ∧ y.lockState = z.lockState ∧ y.delta = z.delta ∧ y.onAlt = z.onAlt)

/-- Contrail's flits, credits, messages and notices. -/
def Obligations.ContrailInOrder : Prop := Claim.FlitsInOrder ∧ Claim.ContrailMessages

/-- A frame from its frame-start to its final mark. -/
def Obligations.FramesOpenAndClose : Prop := Claim.FrameStartOpensFrame ∧ Claim.FrameEndFinalisesMark

/-- The line timer and its lock state. -/
def Obligations.LineTimeIsSteered : Prop := Claim.LineStartSteersTimer ∧ Claim.LockTransitions

/-- Packets that are discarded, and lines that land. -/
def Obligations.PacketsAreChecked : Prop :=
  Claim.UnboundPacketsAreCounted ∧ Claim.LongPacketMarksAndLands ∧ Claim.RowsLand

/-- The start of a sheet line, and what is written to Horizon. -/
def Obligations.SheetLineAndHorizonControl : Prop :=
  Claim.SheetLineAdvances ∧ Claim.LineZeroTakesEffect ∧ Claim.HorizonControl

/-! ### Frames, tokens, records and rings -/

/-- What a data record leaves in host memory (R281, R283): the record stands in its slot, payload and header, the control
block holds PRODUCER and NEXT_SEQ counted on by one and LAST_FRAME, and every other byte of host memory is unchanged. It also
rests on log entry 4. -/
def Claim.RecordFillsSlot : Prop :=
  ∀ (s : State) (h : Half) (r : Nat) (i : RecordInfo) (payload : List Byte),
    let g := s.ring h r
    let slot := g.base + g.nextSeq % 2 ^ g.slotsLog2 * 2 ^ g.slotLog2
    let b := recordBytes g.nextSeq i payload
    let u := s.putRecord h r i payload true
    let word := fun (a n : Nat) => leNat ((List.range n).map (fun k => memGet u.hostMem (a + k)))
    Memory.wf s.hostMem = true → (g.cb + 20 ≤ slot ∨ slot + 64 + payload.length ≤ g.cb) →
    b.1.length = 64 ∧
    (∀ k, k < 64 + payload.length → memGet u.hostMem (slot + k) = (b.1 ++ payload).getD k 0) ∧
    word g.cb 4 = (g.producer + 1) % 2 ^ 32 ∧ word (g.cb + 8) 8 = (g.nextSeq + 1) % 2 ^ 64 ∧
    word (g.cb + 16) 4 = i.frameSeq % 2 ^ 32 ∧
    (∀ a, inRange slot (64 + payload.length) a = false → inRange g.cb 20 a = false →
    memGet u.hostMem a = memGet s.hostMem a) ∧
    (u.ring h r).producer = (g.producer + 1) % 2 ^ 32 ∧ (u.ring h r).nextSeq = (g.nextSeq + 1) % 2 ^ 64 ∧
    (u.ring h r).lastFrame = i.frameSeq % 2 ^ 32 ∧ u.mem = s.mem

/-- The header of a record (R281): every field at its offset, the reserved bytes 0, and the CRC over header and
payload. It also rests on log entry 12. -/
def Claim.RecordHeaderLayout : Prop :=
  ∀ (seq : Nat) (i : RecordInfo) (payload : List Byte),
    let l := (recordBytes seq i payload).1
    l.length = 64 ∧ leAt l 0 8 = seq % 2 ^ 64 ∧ leAt l 8 4 = i.frameSeq % 2 ^ 32 ∧ leAt l 0x0C 2 = i.camera % 2 ^ 16 ∧
    leAt l 0x0E 1 = i.status % 256 ∧ leAt l 0x0F 1 = i.flags % 256 ∧ leAt l 0x10 2 = i.mark % 2 ^ 16 ∧
    leAt l 0x12 2 = payload.length % 2 ^ 16 ∧ leAt l 0x14 2 = i.retakes % 2 ^ 16 ∧ leAt l 0x16 2 = i.tag % 2 ^ 16 ∧
    leAt l 0x18 4 = i.latency % 2 ^ 32 ∧ leAt l 0x1C 2 = i.printLine % 2 ^ 16 ∧
    (l.drop 0x1E).take 30 = List.replicate 30 0 ∧ leAt l 0x3C 4 = crc32c (l.take 0x3C ++ payload) % 2 ^ 32 ∧
    (recordBytes seq i payload).2 = payload

/-- What a record is, and what it leaves in host memory. -/
def Obligations.RecordStandsInItsSlot : Prop := Claim.RecordFillsSlot ∧ Claim.RecordHeaderLayout

/-- A record is written only where the ring is enabled, the endpoint can post, and two slots are free; else it is dropped,
takes no RECORD_SEQ, and host memory is as it was (R284, R453, R465). Either way the frame has had its record (R39). -/
def Claim.NoRoomDropsRecord : Prop :=
  ∀ (s : State) (h : Half) (k : Nat) (i : RecordInfo) (payload : List Byte),
    let r := (s.stream h k).cfg.ring
    let g := s.ring h r
    let u := s.deliver h k i payload
    (g.enable = false ∨ (s.half h).canPost = false ∨ g.free < 2) →
    u.hostMem = s.hostMem ∧ (u.ring h r).nextSeq = g.nextSeq ∧ (u.ring h r).producer = g.producer ∧
    (u.ring h r).dropped = min 0xFFFFFFFF (g.dropped + 1) ∧ (u.ring h r).lastDropped = i.frameSeq ∧
    (u.ring h r).firstDropped = (if g.dropped = 0 then i.frameSeq else g.firstDropped) ∧
    (∀ f, (u.stream h k).frame? i.frameSeq = some f → f.recorded = true)

/-- A record with room is written (R280, R281, R283, R284): where the ring is enabled, the endpoint can post and two slots are free, it
stands in its slot with the ring's RECORD_SEQ, and PRODUCER and NEXT_SEQ count on by one. Where records have been dropped and no GAP is
due, an OVERFLOW record goes before it, which counts them and names the first and the last; where that leaves fewer than two slots free,
the record itself is dropped, the first of a new count. -/
def Claim.RoomTakesRecord : Prop :=
  ∀ (s : State) (h : Half) (k : Nat) (i : RecordInfo) (payload : List Byte),
    let r := (s.stream h k).cfg.ring
    let s1 := s.putOverflow h r
    let g := s.ring h r
    let g1 := s1.ring h r
    let u := s.deliver h k i payload
    let slot := g1.base + g1.nextSeq % 2 ^ g1.slotsLog2 * 2 ^ g1.slotLog2
    let b := recordBytes g1.nextSeq i payload
    g.enable = true → (s.half h).canPost = true → Memory.wf s1.hostMem = true →
    (g1.cb + 20 ≤ slot ∨ slot + 64 + payload.length ≤ g1.cb) →
    (2 ≤ g1.free → u.hostMem = (s1.putRecord h r i payload true).hostMem ∧
      (∀ n, n < 64 + payload.length → memGet u.hostMem (slot + n) = (b.1 ++ payload).getD n 0) ∧
      (u.ring h r).producer = (g1.producer + 1) % 2 ^ 32 ∧ (u.ring h r).nextSeq = (g1.nextSeq + 1) % 2 ^ 64 ∧
      (u.ring h r).dropped = g1.dropped ∧ (u.stream h k).lastRecord = some i.frameSeq ∧
      (∀ f, (u.stream h k).frame? i.frameSeq = some f → f.recorded = true)) ∧
    ((g.dropped = 0 ∨ g.gapDue = true ∨ g.free < 2) → s1 = s) ∧
    (0 < g.dropped → g.gapDue = false → 2 ≤ g.free → g1.dropped = 0 ∧ g1.producer = (g.producer + 1) % 2 ^ 32 ∧
      g1.nextSeq = (g.nextSeq + 1) % 2 ^ 64 ∧
      s1.hostMem = (s.putRecord h r (s.bareInfo h 0x11)
        (toLe 4 g.dropped ++ toLe 4 g.firstDropped ++ toLe 4 g.lastDropped) false).hostMem ∧
      (g1.free < 2 → u.hostMem = s1.hostMem ∧ (u.ring h r).producer = g1.producer ∧ (u.ring h r).nextSeq = g1.nextSeq ∧
        (u.ring h r).dropped = 1 ∧ (u.ring h r).firstDropped = i.frameSeq ∧ (u.ring h r).lastDropped = i.frameSeq ∧
        (∀ f, (u.stream h k).frame? i.frameSeq = some f → f.recorded = true)))

/-- What becomes of a record: it is written where its ring has room, and dropped and counted where not. -/
def Obligations.FullRingDropsRecord : Prop := Claim.NoRoomDropsRecord ∧ Claim.RoomTakesRecord

/-- RESULT_COPY (R279, R285, R287): with an amount on the parity cue of an enabled stream, Horizon acquires it by 1,
writes
the result of its frame, or a WITHHELD record for a frame marked meanwhile, and signals FREE_CUE (also for a dropped or withheld one: log entry 42); a result without a
frame is
not copied (log entry 30, the model's choice), and one that printed before its frame's last landing is waited for. With no amount, on a disabled stream, or
while the ring's GAP is due, nothing happens. It also rests on log entry 3. -/
def Claim.ResultCopyDelivers : Prop :=
  ∀ (t : Nat) (h : Half) (k par : Nat) (f : Frame) (s0 : State),
    let s := s0.advance t
    let c := (s.stream h k).cfg
    let taken := s.modCue (c.resCue par) (fun q => { q with counter := q.counter - 1 })
    let run := exec (.resultCopy t h k par) s0
    s.live h = true →
    ((c.enabled = false ∨ (s.ring h c.ring).gapDue = true ∨ (s.cue (c.resCue par)).counter = 0) → run = .next s) ∧
    (c.enabled = true → (s.ring h c.ring).gapDue = false → 0 < (s.cue (c.resCue par)).counter →
      ((s.stream h k).copyFrame par = some f → f.marked = false →
        run = .next (({ taken with free := taken.free + 1 }.deliver h k (taken.resultInfo h k f)
          (taken.payloadOf h k f.seq)).freeResult h c).dispatchBoth) ∧
      ((s.stream h k).copyFrame par = some f → f.marked = true →
        run = .next ((taken.withhold h k f.seq).freeResult h c).dispatchBoth) ∧
      ((s.stream h k).copyFrame par = none → (s.stream h k).copyWaits par = true → run = .next s) ∧
      ((s.stream h k).copyFrame par = none → (s.stream h k).copyWaits par = false →
        run = .next (taken.freeResult h c).dispatchBoth)) ∧
    (f.fallback = true → (taken.resultInfo h k f).status = 3) ∧
    (f.fallback = false → ∀ d, taken.frameDeadline h k f = some d →
      (taken.resultInfo h k f).status = if d < f.printed.getD 0 then 1 else 0) ∧
    (f.fallback = false → taken.frameDeadline h k f = none →
      (taken.resultInfo h k f).status = if f.deadlinePassed then 1 else 0)

/-- DEADLINE_MISS at a home frame's deadline (R341): before it nothing happens; at it a frame takes note of it once,
and an
unmarked one whose token is free is logged. The DETAIL is log entry 45. It also rests on log entry 3. -/
def Claim.DeadlineIsNoted : Prop :=
  ∀ (t : Nat) (h : Half) (k seq d : Nat) (f : Frame) (s0 : State),
    let s := s0.advance t
    let noted := s.modFrame h k seq (fun f => { f with deadlinePassed := true })
    let run := exec (.deadlineMiss t h k seq) s0
    s.live h = true → (s.stream h k).frame? seq = some f →
    (s.deadline h k f = none → run = .next s) ∧
    (s.deadline h k f = some d →
      (s.now < d → run = .next s) ∧ (f.deadlinePassed = true → run = .next s) ∧
      (d ≤ s.now → f.deadlinePassed = false → f.marked = false → f.token = .free →
        run = .next (noted.log h
          { code := 0x29, unit := 7, ctx := (((s.half h).streamEntry k).map (·.jobCtx)).getD 0xFF
            detail := k * 2 ^ 32 + seq })) ∧
      (d ≤ s.now → f.deadlinePassed = false → (f.marked = true ∨ f.token ≠ .free) → run = .next noted))

/-- WITHHELD (R277, R285, R375): at its deadline a frame that has no result to come gets a record from the context that
delivers it: not before the deadline, nor while the ring's GAP is due, nor from a half that withholds its home
streams, nor
where the partner has the frame in hand (log entry 43). That a frame whose run is over has no result to come is log entry 28, and the
deadline of a shadow context log entry 111. A half that holds the partner's tokens first ends its own runs of the frame, and
does nothing for one whose result has printed or that the partner had delivered. The record has status WITHHELD, the frame
has had it, and its token is held. It also rests on log entry 3. -/
def Claim.WithheldRecords : Prop :=
  ∀ (t : Nat) (h : Half) (k seq : Nat) (f : Frame) (s0 : State),
    let s := s0.advance t
    let x := s.stream h k
    let run := exec (.withheld t h k seq) s0
    let backup := x.cfg.shadow = true ∧ ((s.half h).isl.holdsTokens = true ∨ f.kept = true)
    let may := s.deliversFrame h k f = true ∧ ((s.half h).isl.withholding = false ∨ x.cfg.shadow = true) ∧
      (s.ring h x.cfg.ring).gapDue = false ∧ s.pastDeadline h k f = true
    s.live h = true → x.frame? seq = some f → f.recorded = false →
    (¬may → run = .next s) ∧
    (may → ¬backup →
      (s.partnerHas h k f = true → run = .next s) ∧
      (s.partnerHas h k f = false → s.noResult h k f = true → run = .next (s.withhold h k seq)) ∧
      (s.partnerHas h k f = false → s.noResult h k f = false → run = .next s)) ∧
    (may → backup →
      ((f.printed.isSome = true ∨ s.reportedDelivered h k f.seq = true) → run = .next s) ∧
      (f.printed = none → s.reportedDelivered h k f.seq = false →
        run = .next ((s.stopRuns h ((s.half h).runsOf k seq)).withhold h k seq).dispatchBoth)) ∧
    (∀ d, s.deadline h k f = some d → (s.pastDeadline h k f = true ↔ d ≤ s.now)) ∧
    (f.marked = true → s.noResult h k f = true) ∧
    (s.withheldInfo h k f).status = 2 ∧ (s.withheldInfo h k f).frameSeq = seq ∧
    (∀ g, ((s.withhold h k seq).stream h k).frame? seq = some g → g.recorded = true ∧ g.token = .heldBy h) ∧
    (s.withhold h k seq).mem = s.mem

/-- A frame that has had its record gets no other by WITHHELD (R39). It also rests on log entry 3. -/
def Claim.OneRecordPerFrame : Prop :=
  ∀ (t : Nat) (h : Half) (k seq : Nat) (f : Frame) (s0 : State),
    let s := s0.advance t
    (s.stream h k).frame? seq = some f → f.recorded = true →
    exec (.withheld t h k seq) s0 = .next s ∧ s.withhold h k seq = s ∧
    ∀ par g, (s.stream h k).copyFrame par = some g → g.recorded = false

/-- BACKUP_TIME (R247, R342, R344): at its time, once, the shadow context's BACKUP job is released for the frame, and not before,
and not for a home context; a marked frame has none, and neither has a striped one (log entry 108 says which those are). None is released
either while the probe finds the frame's token held, or the link is down, or the partner is not paired; but a half that
holds the lost partner's tokens releases it without a probe, unless the partner had delivered the frame (R375). That the probe of the
home half's token is answered at that instant is log entry 132. It also rests on log entry 3. -/
def Claim.BackupIsReleased : Prop :=
  ∀ (t : Nat) (h : Half) (k seq l : Nat) (f : Frame) (en : StreamEntry) (s0 : State),
    let s := s0.advance t
    let run := exec (.backupTime t h k seq) s0
    s.live h = true → (s.stream h k).frame? seq = some f → (s.half h).streamEntry k = some en →
    (f.lastLanding = some l → f.backupDue = false → l + en.timeNs ≤ s.now → en.shadow = true → run = .next
      (((s.modFrame h k seq (fun f => { f with backupDue := true })).tryBackup h k f).dispatch h)) ∧
    (f.lastLanding = some l → s.now < l + en.timeNs → run = .next s) ∧
    (f.lastLanding = none → run = .next s) ∧ (f.backupDue = true → run = .next s) ∧ (en.shadow = false → run = .next s) ∧
    (en.shadow = true → f.marked = false → (s.half h).stripes k = false → f.recorded = false →
      (s.half h).runsOf k f.seq = [] → (s.half h).isl.holdsTokens = false → f.kept = false →
      (s.half h).isl.paired = true → s.linkUp h = true → s.probeFree h k f.seq = true →
      s.tryBackup h k f = s.release h en.jobCtx (some f.seq)) ∧
    ((f.marked = true ∨ f.recorded = true ∨ (s.half h).stripes k = true) → s.tryBackup h k f = s) ∧
    ((s.half h).isl.holdsTokens = false → f.kept = false →
      ((s.half h).isl.paired = false ∨ s.linkUp h = false ∨ s.probeFree h k f.seq = false) → s.tryBackup h k f = s) ∧
    (∀ j g, s.twin h k = some j → (s.stream (otherHalf h) j).frame? f.seq = some g →
      (s.probeFree h k f.seq = true ↔ g.token = .free ∧ g.recorded = false)) ∧
    (((s.half h).isl.holdsTokens = true ∨ f.kept = true) →
      (s.reportedDelivered h k f.seq = true → s.tryBackup h k f = s) ∧
      (en.shadow = true → f.marked = false → (s.half h).stripes k = false → f.recorded = false →
        (s.half h).runsOf k f.seq = [] → s.reportedDelivered h k f.seq = false →
        s.tryBackup h k f = s.release h en.jobCtx (some f.seq)))

/-- PRINT_TOKEN_GRANT (R343): a home half's request for a token that the partner does not hold is granted at once, and the
kill notice for the partner's run of the frame is sent; one that the partner holds is denied, and the command is
killed and
not retaken. A shadow context's request goes to the home half, whose answer grants the token or kills the command;
without a
way to the home half it is killed. An answer to a command that waits for none leaves the messages without an effect. How these messages
travel is log entry 34, the model's choice. -/
def Claim.TokensAreGranted : Prop :=
  ∀ (t : Nat) (h : Half) (k ctx par : Nat) (tie granted : Bool) (f : Frame) (e : Exec) (s0 : State),
    let s := s0.advance t
    let run := exec (.printTokenGrant t h ctx tie) s0
    let held := (s.tokenTo h k f.seq h).holdToken h ctx
    let denied := s.kill h ctx .none
    let shadow := (s.stream h k).cfg.shadow
    s.live h = true → (s.job h ctx).exec = some e → e.phase = .written →
    (e.tokenHeld = true → run = .next (s.idleAnswer h ctx)) ∧
    (s.nextMessage h = some (.tokenAnswer ctx granted) → s.idleAnswer h ctx = s.dropMessage h) ∧
    ((∀ g, s.nextMessage h ≠ some (.tokenAnswer ctx g)) → s.idleAnswer h ctx = s) ∧
    (e.tokenHeld = false → (s.half h).resultOf (e.recs.getLastD (parseRec [])) = some (k, par) →
      s.resultFrame h ctx k par = some f → f.marked = false → f.recorded = false →
      (held.job h ctx).exec = some { e with tokenHeld := true } ∧
      (denied.job h ctx).exec.map (fun x => (x.phase, x.retake)) = some (.killing, .none) ∧
      (shadow = false → f.token ≠ .heldBy (otherHalf h) → (s.twin h k).isSome = true →
        run = .next (held.send h (.stopRuns (s.stream h k).cfg.camera f.seq)).dispatchBoth) ∧
      (shadow = false → f.token ≠ .heldBy (otherHalf h) → s.twin h k = none → run = .next held.dispatchBoth) ∧
      (shadow = false → f.token = .heldBy (otherHalf h) → run = .next denied.dispatchBoth) ∧
      (shadow = true → s.deliversFrame h k f = true → f.token ≠ .heldBy (otherHalf h) → run = .next held) ∧
      (shadow = true → s.deliversFrame h k f = true → f.token = .heldBy (otherHalf h) → run = .next (denied.dispatch h)) ∧
      (shadow = true → s.deliversFrame h k f = false → s.tokenPath h = false → run = .next (denied.dispatch h)) ∧
      (shadow = true → s.deliversFrame h k f = false → s.tokenPath h = true →
        (s.nextMessage h = some (.tokenAnswer ctx granted) →
          run = .next ((s.dropMessage h).takeAnswer h ctx k f.seq granted).dispatchBoth) ∧
        (s.nextMessage h = none → run = .next (s.askToken h ctx k f.seq))))

/-- The straggler's backup and its print token. -/
def Obligations.BackupAndToken : Prop := Claim.BackupIsReleased ∧ Claim.TokensAreGranted

/-- CONSUMER_READ and GAP (R284, R285, R380): CONSUMER of an enabled ring is read while fewer than two slots are free, at
most once per µs; after a restart one GAP record follows the ring's control block, once the half may deliver, and no other
record is written before it. It also rests on log entries 3 and 16. -/
def Claim.RingReadsAndGap : Prop :=
  ∀ (t : Nat) (h : Half) (r n producer next last : Nat) (s0 : State),
    let s := s0.advance t
    let g := s.ring h r
    let read := s.modRing h r (fun g =>
      { g with producer := producer % 2 ^ 32, nextSeq := next % 2 ^ 64, lastFrame := last % 2 ^ 32 })
    let mayRead := g.enable = true ∧ g.free < 2 ∧ ∀ a, g.consumerReadAt = some a → a + 1000 ≤ s.now
    let mayGap := g.enable = true ∧ g.gapDue = true ∧ (s.half h).isl.withholding = false ∧ (s.half h).canPost = true
    s.live h = true →
    (mayRead → exec (.consumerRead t h r n) s0 = .next ((s.modRing h r (fun g =>
      { g with consumer := n % 2 ^ 32, consumerReadAt := some s.now })).putOverflow h r)) ∧
    (¬mayRead → exec (.consumerRead t h r n) s0 = .next s) ∧
    (mayGap → exec (.gap t h r producer next last) s0 = .next (({ read with free := read.free + 1 }.putRecord h r
      (read.bareInfo h 0x10) (toLe 4 last ++ toLe 4 0) false).modRing h r (fun g => { g with gapDue := false }))) ∧
    (¬mayGap → exec (.gap t h r producer next last) s0 = .next s) ∧
    (g.gapDue = true → s.putOverflow h r = s)

/-! ### Health -/

/-- The self-test slices (R394, R395): a slice that fits what is left of its SELFTEST slot, the present line included, runs; one
that does not fit changes nothing. A failed POST_FP or OUTLIER is a disagreement of its unit, a failed THREAD counts for
derating; THREAD takes a disabled group and BANK_MARCH an unowned bank, whose contents it leaves undefined. LOCALISE runs on the
map that the retirements due leave (R399). A slice within whose bound a more critical slot begins has no result: it is in
progress until then. That the row of any other stands for the whole slice is log entry 148, the model's choice. It also rests on
log entry 3. -/
def Claim.SlicesRun : Prop :=
  ∀ (t : Nat) (h : Half) (bank group : Nat) (pass : Bool) (fails : List (Nat × Nat)) (s0 : State),
    let s := s0.advance t
    let x := s.half h
    let runs := fun (k : SliceKind) => s.sliceFits h k = true ∧ s.cutShort h k = false
    let from' := fun (k : SliceKind) (u : State) => u.modIsl h (fun i => { i with slicesCut := i.slicesCut.filter (· != k) })
    let marched := s.loseBank h bank
    s.live h = true →
    (SliceKind.localise.bound = 60000 ∧ SliceKind.postFp.bound = 25000 ∧ SliceKind.outlier.bound = 15000 ∧
      (SliceKind.thread group).bound = 8000 ∧ (SliceKind.bankMarch bank).bound = 33000) ∧
    (∀ k, s.sliceFits h k = true → ∃ left, x.selftestLeft s.now = some left ∧ k.bound ≤ left) ∧
    (runs .postFp → exec (.postFp t h true) s0 = .next ((from' .postFp s).healthPath h 8 true) ∧
      exec (.postFp t h false) s0 = .next (((from' .postFp s).disagree h 8).healthPath h 8 false)) ∧
    (runs .outlier → exec (.outlierSlice t h true) s0 = .next ((from' .outlier s).healthPath h 9 true) ∧
      exec (.outlierSlice t h false) s0 = .next (((from' .outlier s).disagree h 9).healthPath h 9 false)) ∧
    (runs (.thread group) →
      exec (.threadSlice t h group true) s0 = .next ((from' (.thread group) s).healthPath h 1 true) ∧
      exec (.threadSlice t h group false) s0 = .next (((from' (.thread group) s).countDerate h 1).healthPath h 1 false)) ∧
    (runs (.bankMarch bank) →
      exec (.bankMarch t h bank pass) s0 = .next ((from' (.bankMarch bank) marched).healthPath h (2 + bank / 64) pass)) ∧
    (runs .localise → exec (.localise t h []) s0 =
      .next ((((from' .localise s).retireAll h).clearDue h 16).healthPath h 0 true)) ∧
    (runs .localise → 2 ≤ fails.eraseDups.length →
      exec (.localise t h fails) s0 = .next ((((from' .localise s).retireAll h).clearDue h 16).healthPath h 0 false)) ∧
    (x.isl.retireDue = [] → s.retireAll h = s) ∧
    ((tget ({} : Group) x.dolly.groups group).enabled = true → s.sliceFits h (.thread group) = false) ∧
    ((s.bank h bank).owned = true → s.sliceFits h (.bankMarch bank) = false) ∧
    (s.sliceFits h .postFp = false → exec (.postFp t h pass) s0 = .next s) ∧
    (s.sliceFits h .outlier = false → exec (.outlierSlice t h pass) s0 = .next s) ∧
    (s.sliceFits h (.thread group) = false → exec (.threadSlice t h group pass) s0 = .next s) ∧
    (s.sliceFits h (.bankMarch bank) = false → exec (.bankMarch t h bank pass) s0 = .next s) ∧
    (s.sliceFits h .localise = false → exec (.localise t h fails) s0 = .next s)

/-- A slice that a more critical slot cuts short (R395): within its bound a slot of a partition below SELFTEST_PART begins. It
starts, its row's result is not its own, and it is in progress until such a slot begins, or no SELFTEST slot covers the line
any longer: the line then kills it and makes its retake due (R36, R37), which its next run settles. A march that is cut short has
left its bank undefined. What holds between these instants is log entry 148, the model's choice. -/
def Claim.SlicesCutShort : Prop :=
  ∀ (t : Nat) (h : Half) (bank group : Nat) (pass : Bool) (fails : List (Nat × Nat)) (s0 : State),
    let s := s0.advance t
    let x := s.half h
    let cut := fun (k : SliceKind) => s.live h = true ∧ s.sliceFits h k = true ∧ s.cutShort h k = true
    let goes := fun (k : SliceKind) (u : State) => u.modIsl h (fun i => { i with slices := k :: i.slices.filter (· != k) })
    let more := fun (sh : Sheet) (e : SlotEntry) => e ∈ sh.slots ∧ e.part < sh.selftestPart
    let killed := s.modIsl h (fun i =>
      { i with slices := [], slicesCut := i.slices ++ i.slicesCut.filter (fun k => !(i.slices.contains k)) })
    (∀ k, s.cutShort h k = true ↔ ∃ sh e, x.sheet = some sh ∧ more sh e ∧ x.untilSlot sh s.now e < k.bound) ∧
    (cut .postFp → exec (.postFp t h pass) s0 = .next (goes .postFp s)) ∧
    (cut .outlier → exec (.outlierSlice t h pass) s0 = .next (goes .outlier s)) ∧
    (cut (.thread group) → exec (.threadSlice t h group pass) s0 = .next (goes (.thread group) s)) ∧
    (cut (.bankMarch bank) → exec (.bankMarch t h bank pass) s0 =
      .next (goes (.bankMarch bank) (s.loseBank h bank))) ∧
    (cut .localise → exec (.localise t h fails) s0 = .next (goes .localise s)) ∧
    ((∃ sh e, x.sheet = some sh ∧ more sh e ∧ e.startLine = x.periodLine sh) → s.cutSlices h = killed) ∧
    (x.selftestLeft s.now = none → s.cutSlices h = killed) ∧
    ((∀ sh e, x.sheet = some sh → more sh e → e.startLine ≠ x.periodLine sh) → (∃ n, x.selftestLeft s.now = some n) →
      s.cutSlices h = s)

/-- The health path that a slice ends (R371, R372): of a unit whose slices are due, a pass is HEALTH_WATCH and a failure
fences the half with UNIT_SELFTEST_FAIL; either way they are due no more. That of any other unit nothing follows, so that a march
fences only where it is due, is log entry 44, the model's reading; the entries' DETAIL is log entry 45. -/
def Claim.HealthPathEnds : Prop :=
  ∀ (s : State) (h : Half) (unit : Nat),
    let due := (s.half h).isl.slicesDue
    let cleared := s.modIsl h (fun i => { i with slicesDue := i.slicesDue.filter (· != unit) })
    (unit ∈ due → s.healthPath h unit true = cleared.log h { code := 0x0512, unit := unit, detail := unit } ∧
      s.healthPath h unit false = cleared.halfFault h { code := 0x0511, unit := unit, detail := unit } ∧
      ¬(unit ∈ ((s.healthPath h unit true).half h).isl.slicesDue)) ∧
    (¬(unit ∈ due) → ∀ pass, s.healthPath h unit pass = s)

/-- A march leaves the bytes outside its bank as they were (R394). -/
def Claim.BankMarchTouchesItsBank : Prop :=
  ∀ (s : State) (h : Half) (bank a : Nat), bank < 256 →
    (inRange (poolBase h) poolBytes a = false ∨ bankOf (a - poolBase h) ≠ bank) →
    (s.loseBank h bank).readByte a = s.readByte a

/-- A slab's score (R385, R386): an event adds 32, up to 255, and each full 10 s without one takes 1 off; LOCALISE with
exactly one failing segment gives the event to the active slab that serves it once the retirements due have taken place (R399), and a
slab at 128 or more falls due; where no active slab serves that segment, nothing has an event, and the array's slices stay due. A
row of a half without supply changes nothing. It also rests on log entries 3 and 148. -/
def Claim.SlabScores : Prop :=
  ∀ (t : Nat) (h : Half) (r c k : Nat) (s0 : State),
    let s := s0.advance t
    let b := s.slab h k
    let n := (s.now - b.lastEvent) / 10000000000
    let s1 := ((s.modIsl h (fun i => { i with slicesCut := i.slicesCut.filter (· != .localise) })).retireAll h).modIsl h (fun i =>
      { i with slicesDue := i.slicesDue.filter (· != 16) })
    let b1 := s1.slab h k
    let score := min 255 (b1.score - (s.now - b1.lastEvent) / 10000000000 + 32)
    let s2 := (s1.modIsl h (fun i => { i with slicesDue := i.slicesDue.filter (· != 0) })).modSlab h k (fun b =>
      { b with score := score, lastEvent := s.now })
    let runs := s.live h = true ∧ s.sliceFits h .localise = true ∧ s.cutShort h .localise = false
    let newly := 128 ≤ score ∧ ¬(k ∈ (s1.half h).isl.retireDue.map (·.1))
    (s.supplied h = true → exec (.slabScoreDecay t h k) s0 = .next (s.modSlab h k (fun b =>
      { b with score := b.score - n, lastEvent := b.lastEvent + n * 10000000000 }))) ∧
    (s.supplied h = false → exec (.slabScoreDecay t h k) s0 = .next s) ∧
    (runs → s1.slabServing h r c = some k →
      (newly → exec (.localise t h [(r, c)]) s0 = .next (s2.modIsl h (fun i =>
        { i with retireDue := i.retireDue ++ [(k, (s.half h).hzn.sheetFrame)] }))) ∧
      (¬newly → exec (.localise t h [(r, c)]) s0 = .next s2)) ∧
    (runs → s1.slabServing h r c = none → exec (.localise t h [(r, c)]) s0 = .next s1) ∧
    (∀ u : State, u.slabServing h r c = some k → (u.slab h k).state = .active ∧ (u.slab h k).col = c ∧ k / 17 = r)

/-- SLAB_RETIRED (R386, R387): at a command boundary in a later sheet frame than the one in which the slab fell due, it is
retired and its row's spare takes its column, with SLAB_RETIRED, and it is due no more; the repair record takes the map. After
two retirements, or with no spare, SLAB_ADVISORY is logged instead, and no slab changes; the DETAIL is log entry 45. A slab
that is not due, in the same frame, or while a command holds the array, stays as it is. It also rests on log entry 3. -/
def Claim.SlabRetirement : Prop :=
  ∀ (t : Nat) (h : Half) (k frame j : Nat) (s0 : State),
    let s := s0.advance t
    let i := (s.half h).isl
    let due := i.retireDue.find? (fun p => p.1 == k)
    s.live h = true →
    (due = some (k, frame) → frame ≠ (s.half h).hzn.sheetFrame → s.arrayFree h = true → (s.slab h k).state = .active →
      (i.retirements < 2 → s.spareOf h k = some j →
        ∃ v : State, exec (.slabRetired t h k) s0 = .next (v.log h { code := 0x050C, unit := 0, detail := slabDetail k }) ∧
          (v.slab h j).state = .active ∧ (v.slab h j).col = (s.slab h k).col ∧ (v.slab h k).state = .retired ∧
          (v.slab h k).passCount = 0 ∧ (∀ m, m ≠ j → m ≠ k → v.slab h m = s.slab h m) ∧
          (v.half h).isl.retirements = i.retirements + 1 ∧
          (v.half h).isl.retireDue = i.retireDue.filter (fun p => p.1 != k) ∧
          (∀ m, let o := tget (slabReset m) (v.half h).isl.repair.slabs m
            o.state = (v.slab h m).state ∧ o.col = (v.slab h m).col ∧ o.passCount = (v.slab h m).passCount) ∧
          (v.half h).isl.log = i.log ∧ (v.half h).disp = (s.half h).disp ∧ v.mem = s.mem) ∧
      ((2 ≤ i.retirements ∨ s.spareOf h k = none) →
        exec (.slabRetired t h k) s0 = .next ((s.modIsl h (fun i =>
          { i with retireDue := i.retireDue.filter (fun p => p.1 != k) })).log h
          { code := 0x050D, unit := 0, detail := slabDetail k }))) ∧
    ((due = none ∨ due = some (k, (s.half h).hzn.sheetFrame) ∨ s.arrayFree h = false ∨ (s.slab h k).state ≠ .active) →
      exec (.slabRetired t h k) s0 = .next s)

/-- DERATE (R392, R393): three derate-counted events of a unit of 0 to 7 in one band within 100 powered hours set its
derate, once, also in a half that the third of them has fenced (R399); the derate is kept in the repair record and logged, and
reported where the armed sheet's floor for the unit is below 2 steps; fewer than three, or a derate already set, change
nothing. It also rests on log entry 3. -/
def Claim.DerateAfterThree : Prop :=
  ∀ (t : Nat) (h : Half) (unit band : Nat) (s0 : State),
    let s := s0.advance t
    let i := (s.half h).isl
    let bit := 8 * unit + band
    s.supplied h = true →
    (unit ≤ 7 → band ≤ 7 → 3 ≤ (s.half h).derateCount unit band → flag i.derate bit = false →
      let u := (s.modIsl h (fun i =>
        { i with
          derate := i.derate + 2 ^ bit
          repair := { i.repair with derate := i.derate + 2 ^ bit, derateEvents := i.derateEvents } })).log h
        { code := 0x050F, unit := unit, detail := bit }
      ((∀ sh, (s.half h).sheet = some sh → 2 ≤ sh.floorOf unit) → exec (.derate t h unit band) s0 = .next u) ∧
      (∀ sh, (s.half h).sheet = some sh → sh.floorOf unit < 2 →
        exec (.derate t h unit band) s0 = .next (u.log h { code := 0x0510, unit := unit, detail := unit })) ∧
      flag (u.half h).isl.derate bit = true ∧
      (∀ n, n ≠ bit → flag (u.half h).isl.derate n = flag i.derate n)) ∧
    ((7 < unit ∨ 7 < band ∨ (s.half h).derateCount unit band < 3 ∨ flag i.derate bit = true) →
      exec (.derate t h unit band) s0 = .next s)

/-- Results copied to their rings, and the rings' own reads. -/
def Obligations.ResultRings : Prop := Claim.ResultCopyDelivers ∧ Claim.RingReadsAndGap

/-- Deadlines, withheld frames, and one record a frame. -/
def Obligations.DeadlinesAndOneRecord : Prop :=
  Claim.DeadlineIsNoted ∧ Claim.WithheldRecords ∧ Claim.OneRecordPerFrame

/-- The self-test slices. -/
def Obligations.SelfTestSlices : Prop :=
  Claim.SlicesRun ∧ Claim.SlicesCutShort ∧ Claim.HealthPathEnds ∧ Claim.BankMarchTouchesItsBank

/-- Slab scores, retirement and derating. -/
def Obligations.SlabHealthAndDerating : Prop := Claim.SlabScores ∧ Claim.SlabRetirement ∧ Claim.DerateAfterThree

/-! ### The continuity island -/

/-- What a class 5 event does (R363, R374): it is logged, LAST_HALF_FAULT names it, and the half is fenced: none of
its rows
for a live half acts, ISL_FAULT_N is asserted, it is unpaired and its frame-sync outputs are low. A half that was not
fenced
forms its HALF_DOWN message of the last FRAME_SEQ counted for each of its home streams, and its HALF_STATE reads
restarting
unless it is held out, failed or retired (from the fence on: log entry 22, the model's reading). The partner's state, both memories and the Tally unit are untouched. -/
def Claim.ClassFiveEffect : Prop :=
  ∀ (s : State) (h : Half) (e : Event),
    let t := s.halfFault h e
    let x := s.half h
    t.live h = false ∧ (t.half h).isl.fenced = true ∧ (t.half h).isl.faultN = false ∧ (t.half h).isl.paired = false ∧
    (t.half h).isl.lastHalfFault = e.code ∧ (t.half h).isl.lastClass5 = s.now ∧
    (t.half h).isl.logCount = (x.isl.logCount + 1) % 65536 ∧
    tget [] (t.half h).isl.log (x.isl.logCount % 256) = s.logEntry h { e with cls := 5 } ∧
    (x.isl.fenced = false → (t.half h).isl.downMessage = x.hzn.downMessage) ∧
    (x.isl.fenced = true → (t.half h).isl.downMessage = x.isl.downMessage) ∧
    ((x.isl.halfState < 5 ∨ (x.isl.halfState = 5 ∧ x.isl.unconfigured = true)) →
      (t.half h).isl.halfState = 4 ∧ (t.half h).boot.phase = 5) ∧
    ((x.isl.halfState = 6 ∨ x.isl.halfState = 7) → (t.half h).isl.halfState = x.isl.halfState) ∧
    (∀ p ∈ (t.half h).hzn.fsync, p.2.driven = false) ∧ (t.half h).disp = x.disp ∧
    t.half (otherHalf h) = s.half (otherHalf h) ∧ t.mem = s.mem ∧ t.hostMem = s.hostMem ∧ t.tally = s.tally

/-- The commands that report a class 5 condition fence the half where it stands (R347, R348, R353, R357, R405, R406), and
change nothing where it does not. The entries' DETAIL is log entry 45. It also rests on log entry 3. -/
def Claim.ClassFiveConditions : Prop :=
  ∀ (t : Nat) (h : Half) (pair part rail mv : Nat) (s0 : State),
    let s := s0.advance t
    let r := (s.half h).zen.rails.getD rail {}
    s.live h = true →
    ((s.pair h pair).halted = false → (s.pair h pair).comparing = true → exec (.lockstepMismatch t h pair) s0 = .next
      ((s.modPair h pair (fun p => { p with testing := true, entryAt := (s.half h).isl.logCount % 256 })).halfFault h
        { code := if pair = 2 then 0x0504 else 0x0503, unit := if pair = 2 then 12 else 6 })) ∧
    ((s.pair h pair).halted = true → exec (.lockstepMismatch t h pair) s0 = .next s) ∧
    ((s.pair h pair).comparing = false → exec (.lockstepMismatch t h pair) s0 = .next s) ∧
    exec (.lockstepInput t h pair) s0 =
      .next (s.halfFault h { code := 0x0505, unit := if pair = 2 then 12 else 6 }) ∧
    ((s.half h).suspended = false → exec (.dirWatchdog t h) s0 =
      .next (s.halfFault h { code := 0x0506, unit := 6, detail := (s.half h).disp.dirWdg })) ∧
    ((s.half h).suspended = false → exec (.islWatchdog t h) s0 = .next (s.halfFault h { code := 0x0507, unit := 12 })) ∧
    ((s.half h).suspended = true → exec (.dirWatchdog t h) s0 = .next s ∧ exec (.islWatchdog t h) s0 = .next s) ∧
    (s.teardownOver h part 40000 = true → exec (.partResetOverrun t h part) s0 =
      .next (s.halfFault h { code := 0x0516, unit := 6, detail := part })) ∧
    (s.teardownOver h part 40000 = false → exec (.partResetOverrun t h part) s0 = .next s) ∧
    (r.setpoint < 20 * ((mv : Int) - (r.setpoint : Int)).natAbs → exec (.regFault t h rail mv) s0 =
      .next ((s.modZen h (fun z => { z with rails := lmod {} z.rails rail (fun r => { r with measured := mv }) })).halfFault h
        { code := 0x0605, unit := 13, detail := rail * 2 ^ 32 + mv })) ∧
    (20 * ((mv : Int) - (r.setpoint : Int)).natAbs ≤ r.setpoint → exec (.regFault t h rail mv) s0 = .next s) ∧
    exec (.clockFault t h) s0 =
      .next ((s.modZen h (fun z => { z with refOk := false })).halfFault h { code := 0x0606, unit := 13 })

/-- The core self-test (R357): the verdict is the DETAIL of the mismatch's log entry and goes to the repair record; a
transient mismatch of a Director pair counts for derating (R391); where no test runs, nothing happens. It also rests on log
entry 3. -/
def Claim.CoreSelftestVerdict : Prop :=
  ∀ (t : Nat) (h : Half) (p : Nat) (verdict : Verdict) (s0 : State),
    let s := s0.advance t
    let i := (s.half h).isl
    let x := s.pair h p
    let v := verdictCode verdict
    s.supplied h = true → p < i.pairs.length →
    (x.testing = true → ∃ u : State, exec (.coreSelftest t h p verdict) s0 = .next u ∧ (u.pair h p).testing = false ∧
      (u.pair h p).verdict = v ∧ (u.half h).isl.coreFailed = (if v = 3 then 0 else v) ∧
      (tget [] (u.half h).isl.log x.entryAt).drop 24 = toLe 8 v ∧
      (u.half h).isl.repair.verdicts = i.repair.verdicts ++ [v] ∧ (u.half h).isl.fenced = i.fenced ∧
      ((v ≠ 3 ∨ p = 2) → (u.half h).isl.derateEvents = i.derateEvents ∧ (u.half h).isl.derate = i.derate) ∧
      (v = 3 → p ≠ 2 → (u.half h).isl.derateEvents =
        (6, tjBand (s.unit h 6).temp16, (s.half h).zen.poweredHours) :: i.derateEvents) ∧
      (u.half h).disp = (s.half h).disp ∧ (u.half h).hzn = (s.half h).hzn ∧
      u.half (otherHalf h) = s.half (otherHalf h) ∧ u.mem = s.mem) ∧
    (x.testing = false → exec (.coreSelftest t h p verdict) s0 = .next s)

/-- The debugger (R355, R356): halting is for development mode alone, and a request in any other mode is logged; a halted
pair's comparison is off, the half's watchdogs are suspended and ISL_FAULT_N is asserted; the island pair halts every
pair of
the half. It also rests on log entry 14. -/
def Claim.DebugHalts : Prop :=
  ∀ (t : Nat) (h : Half) (p : Nat) (s0 : State),
    let s := s0.advance t
    let i := (s.half h).isl
    s.supplied h = true → p < i.pairs.length →
    (i.safetyMode = 1 → ∃ u : State, exec (.debugHalt t h p) s0 = .next u ∧ (u.pair h p).halted = true ∧
      (u.pair h p).comparing = false ∧ (u.half h).suspended = true ∧ (u.half h).isl.faultN = false ∧
      (p = 2 → ∀ q, q < i.pairs.length → (u.pair h q).halted = true ∧ (u.pair h q).comparing = false) ∧
      (p ≠ 2 → ∀ q, q ≠ p → u.pair h q = s.pair h q) ∧ (u.half h).isl.logCount = i.logCount ∧
      (u.half h).disp = (s.half h).disp ∧ u.half (otherHalf h) = s.half (otherHalf h) ∧ u.mem = s.mem) ∧
    (i.safetyMode ≠ 1 → exec (.debugHalt t h p) s0 =
      .next (s.logUnlisted h .debugRefused { code := 0, unit := if p = 2 then 12 else 6 }))

/-- A debugger's writes (R356): one to the main copy is replayed into the checker copy, or the copies have diverged;
one to
memory is made once and changes neither copy: in the half's own HBM in service, once its port has the tokens and the room (R292,
R293), or for the island in its own bank pool, its bytes are stored where the region descriptors admit it; a Director pair's write to a bank is refused and logged as one the
bank does not own, and an address outside both is logged as a decode error. Where the pair is not halted, nothing
happens. It also rests on log entries 3 and 119. -/
def Claim.DebugWrites : Prop :=
  ∀ (t : Nat) (h : Half) (p reg addr : Nat) (bytes : List Byte) (rep : Bool) (s0 : State),
    let s := s0.advance t
    let x := s.pair h p
    let r : Region := { base := addr, len := bytes.length }
    let port : HbmPort := if p = 2 then .island else .director none
    let store := exec (.debugWrite t h p (.memory addr) bytes rep) s0
    s.supplied h = true → p < (s.half h).isl.pairs.length →
    (x.halted = true →
      (∃ u : State, exec (.debugWrite t h p (.copy reg) bytes rep) s0 = .next u ∧
        tget 0 (u.pair h p).main reg = leNat bytes ∧ (rep = true → tget 0 (u.pair h p).checker reg = leNat bytes) ∧
        (rep = false → (u.pair h p).checker = x.checker) ∧ (∀ g, g ≠ reg → tget 0 (u.pair h p).main g = tget 0 x.main g) ∧
        (u.pair h p).diverged = (x.diverged || !rep) ∧ (u.pair h p).halted = true ∧ (∀ q, q ≠ p →
        u.pair h q = s.pair h q) ∧
        u.half (otherHalf h) = s.half (otherHalf h) ∧ u.mem = s.mem) ∧
      (s.targetOf r = .hbm h → (s.half h).hbmServed = true →
        (s.half h).admits (if p = 2 then .island else .firmware) true true addr bytes.length = true →
        (s.portOpen h port r = true →
          store = .next ((s.portUse h port r).writeBytes addr bytes) ∧ (s.portUse h port r).mem = s.mem) ∧
        (s.portOpen h port r = false → store = .next s)) ∧
      (p = 2 → s.targetOf r = .bankPool h → (s.half h).admits .island true true addr bytes.length = true →
        store = .next (s.writeBytes addr bytes)) ∧
      (p ≠ 2 → s.targetOf r = .bankPool h → (s.half h).admits .firmware true true addr bytes.length = true → store =
        .next (s.log h { code := 0x0402, unit := 2 + bankAt h addr / 64, ctx := 0xFF, detail := bankDetail h 0xFF addr })) ∧
      ((s.targetOf r = .bankPool h ∨ s.targetOf r = .hbm h ∧ (s.half h).hbmServed = true) →
        (s.half h).admits (if p = 2 then .island else .firmware) true true addr bytes.length = false → store = .next s) ∧
      (s.targetOf r ≠ .bankPool h → (s.targetOf r ≠ .hbm h ∨ (s.half h).hbmServed = false) → store =
        .next (s.log h { code := 0x0112, unit := if p = 2 then 12 else 6, ctx := 0xFF, detail := addr }))) ∧
    (x.halted = false → exec (.debugWrite t h p (.copy reg) bytes rep) s0 = .next s ∧ store = .next s)

/-- Resuming (R356): comparison is re-armed; a pair with a write that was not replayed mismatches at once, its half
is fenced
and its self-test runs. A pair that is not halted does not resume. It also rests on log entry 3. -/
def Claim.DebugResumes : Prop :=
  ∀ (t : Nat) (h : Half) (p : Nat) (s0 : State),
    let s := s0.advance t
    let i := (s.half h).isl
    let x := s.pair h p
    s.supplied h = true → p < i.pairs.length →
    (x.halted = true → x.diverged = false → ∃ u : State, exec (.debugResume t h p) s0 = .next u ∧
      (u.pair h p).halted = false ∧ (u.pair h p).comparing = true ∧ (u.half h).isl.fenced = i.fenced ∧
      (u.half h).isl.logCount = i.logCount ∧ (∀ q, q ≠ p → u.pair h q = s.pair h q) ∧ (u.half h).disp = (s.half h).disp ∧
      u.mem = s.mem) ∧
    (x.halted = true → x.diverged = true → ∃ u : State, exec (.debugResume t h p) s0 = .next u ∧ u.live h = false ∧
      (u.pair h p).testing = true ∧ (u.pair h p).halted = false ∧ (u.half h).isl.logCount = (i.logCount + 1) % 65536 ∧
      (u.half h).isl.lastHalfFault = (if p = 2 then 0x0504 else 0x0503) ∧ u.mem = s.mem) ∧
    (x.halted = false → exec (.debugResume t h p) s0 = .next s)

/-- The core self-test and the debugger. -/
def Obligations.LockstepAndDebug : Prop :=
  Claim.CoreSelftestVerdict ∧ Claim.DebugHalts ∧ Claim.DebugWrites ∧ Claim.DebugResumes

/-- What one half sends in a heartbeat the other receives (R358): the 128 bytes are accepted, and the receiver then holds
the sender's state, SHEET_FRAME, the last frame of each stream context, and its coolant readings where COOL_VALID is
set. It also rests on log entries 12 and 39. -/
def Claim.HeartbeatRoundTrip : Prop :=
  ∀ (t : Nat) (h : Half) (lane seq : Nat) (s0 : State),
    let s := s0.advance t
    let o := otherHalf h
    let b := s.heartbeat o seq
    s.supplied h = true → s.twoHalves = true → lane < (s.half h).isl.lanes.length →
    (s.half o).isl.halfState < 256 → (s.half o).hzn.sheetFrame < 2 ^ 32 →
    (∀ k, (s.stream o k).lastFrame < 2 ^ 32) →
    b.length = 128 ∧
    ∃ u : State, exec (.heartbeatReceive t h lane b) s0 = .next u ∧
      (u.half h).isl.partnerState = (s.half o).isl.halfState ∧ (u.half h).isl.partnerFrame = (s.half o).hzn.sheetFrame ∧
      (∀ k, k < 24 → (u.half h).isl.partnerLast.getD k 0 = (s.stream o k).lastFrame) ∧
      ((s.half o).zen.coolSrc ≠ 0 → (u.half h).isl.partnerCool = none) ∧
      (∀ a b : Int, (s.half o).zen.coolSrc = 0 → (s.half o).zen.coolIn16 = some a → (s.half o).zen.coolOut16 = some b →
        -32768 ≤ a → a < 32768 → -32768 ≤ b → b < 32768 →
        (u.half h).isl.partnerCool = some (a, b, min 65535 (100 * (s.half o).zen.localFlow s.now).floor.toNat)) ∧
      ((u.half h).isl.lanes.getD lane {}).lastSeq = some (seq % 2 ^ 32) ∧
      ((u.half h).isl.lanes.getD lane {}).lastAt = some s.now ∧ ((u.half h).isl.lanes.getD lane {}).silent = false ∧
      (∀ m, m ≠ lane → (u.half h).isl.lanes.getD m {} = (s.half h).isl.lanes.getD m {}) ∧
      (u.half h).disp = (s.half h).disp ∧ u.half o = s.half o ∧ u.mem = s.mem

/-- A heartbeat that is not 128 bytes, or whose HB_CRC fails, is discarded; each lane sends the next heartbeat with its
HB_SEQ counted on, from the boot stage in which the island runs; one lane that has been silent for 12 µs while the other
continues is reported, once; the path is absent on FBZ1200-AN (R358, R359). It also rests on log entry 3. -/
def Claim.HeartbeatLanes : Prop :=
  ∀ (t : Nat) (h : Half) (lane : Nat) (b : List Byte) (s0 : State),
    let s := s0.advance t
    let i := (s.half h).isl
    let l := i.lanes.getD lane {}
    let sent := fun (l : HbLane) => { l with sent := s.heartbeat h l.txSeq, txSeq := (l.txSeq + 1) % 2 ^ 32 }
    let run := exec (.hbLane t h lane) s0
    s.supplied h = true →
    ((b.length ≠ 128 ∨ leAt b 0x7C 4 ≠ crc32c (b.take 0x7C)) → exec (.heartbeatReceive t h lane b) s0 = .next s) ∧
    (s.twoHalves = true → 2 ≤ (s.half h).boot.stage → exec (.heartbeatSend t h) s0 =
      .next (s.modIsl h (fun i => { i with lanes := i.lanes.map sent }))) ∧
    ((s.half h).boot.stage < 2 → exec (.heartbeatSend t h) s0 = .next s) ∧
    (s.twoHalves = false → exec (.heartbeatSend t h) s0 = .next s ∧ exec (.heartbeatReceive t h lane b) s0 = .next s ∧
      run = .next s) ∧
    (s.live h = true → s.twoHalves = true →
      (∀ a, l.lastAt = some a → a + 12000 ≤ s.now → l.silent = false → (i.lanes.getD (1 - lane) {}).quiet s.now = false →
        run = .next ((s.modIsl h (fun i =>
          { i with lanes := lmod {} i.lanes lane (fun l => { l with silent := true }) })).log h
          { code := 0x0509, unit := 12, detail := lane })) ∧
      (∀ a, l.lastAt = some a → s.now < a + 12000 → run = .next s) ∧
      (l.silent = true → run = .next s) ∧ (l.lastAt = none → run = .next s) ∧
      ((i.lanes.getD (1 - lane) {}).quiet s.now = true → run = .next s))

/-- Losing the partner (R359, R374 to R376): a paired half whose lanes are both silent asserts RESTART_REQ and takes
over; one
whose partner reports another state than in service or degraded takes over, and so does one that the fenced partner's
HALF_DOWN reaches; a list that is not the partner's message, or a partner that is not fenced, changes nothing; an unpaired
half to which the partner reports 0x05 to 0x07 gives it up. It also rests on log entry 3. -/
def Claim.PartnerIsLost : Prop :=
  ∀ (t : Nat) (h : Half) (frames : List (Nat × Nat)) (s0 : State),
    let s := s0.advance t
    let i := (s.half h).isl
    let p := (s.half (otherHalf h)).isl
    let silent := i.lanes.all (fun l => l.quiet s.now)
    let run := exec (.partnerLost t h) s0
    let down := exec (.halfDown t h frames) s0
    let told := s.modIsl h (fun i => { i with downFrames := frames })
    s.live h = true →
    (s.twoHalves = false → run = .next s ∧ down = .next s) ∧
    (s.twoHalves = true → i.paired = true →
      (silent = true → run = .next ((s.modIsl h (fun i => { i with restartReq := true })).takeover h)) ∧
      (silent = false → ((i.partnerState ≠ 2 ∧ i.partnerState ≠ 3) ∨ p.pairs.any (·.halted) = true) →
        run = .next (s.takeover h)) ∧
      (silent = false → (i.partnerState = 2 ∨ i.partnerState = 3) → p.pairs.any (·.halted) = false → run = .next s) ∧
      (p.fenced = true → frames = p.downMessage → down = .next (told.takeover h))) ∧
    (s.twoHalves = true → i.paired = false →
      ((s.half h).inService = true → i.partnerLost = false → i.partnerReported = false → i.withholding = false →
        5 ≤ i.partnerState → i.partnerState ≤ 7 → run = .next (s.giveUp h)) ∧
      ((i.partnerLost = true ∨ i.partnerReported = true ∨ i.partnerState < 5 ∨ 7 < i.partnerState) → run = .next s) ∧
      (p.fenced = true → frames = p.downMessage → i.partnerLost = true → i.partnerReported = false →
        down = .next (told.noteDelivered h)) ∧
      ((i.partnerLost = false ∨ i.partnerReported = true) → down = .next s)) ∧
    ((p.fenced = false ∨ frames ≠ p.downMessage) → down = .next s)

/-- What taking over does (R375, R376): the half is unpaired, holds the partner's tokens and counts it as lost. Giving the
partner up (R360) does the same to the tokens and logs PARTNER_LOST, and a half that runs its active sheet and holds a
degraded one switches to it at its next slot boundary. -/
def Claim.TakeoverEffects : Prop :=
  ∀ (s : State) (h : Half),
    let u := (s.takeover h).half h
    let v := (s.giveUp h).half h
    let x := s.half h
    u.isl.paired = false ∧ u.isl.holdsTokens = true ∧ u.isl.partnerLost = true ∧
    v.isl.holdsTokens = true ∧ v.isl.partnerLost = true ∧ v.isl.partnerReported = true ∧
    v.isl.logCount = (x.isl.logCount + 1) % 65536 ∧
    v.disp.switchPending = (decide (x.disp.sheetState = 1) && x.disp.degraded.isSome) ∧
    (s.giveUp h).half (otherHalf h) = s.half (otherHalf h) ∧ (s.giveUp h).mem = s.mem

/-- Pairing (R360, R380): a half in service that holds no tokens pairs after 1 ms of good heartbeats on both lanes,
and not
before; one that holds its partner's tokens sets the boundary of the return instead, where the partner is in service
and none
is set; a half that is not paired 1 s after its service-ready gives the partner up, and not before. It also rests on log
entries 3 and 25. -/
def Claim.HalvesPair : Prop :=
  ∀ (t : Nat) (h : Half) (s0 : State),
    let s := s0.advance t
    let i := (s.half h).isl
    let o := otherHalf h
    let run := exec (.pairing t h) s0
    let late := exec (.pairingTimeout t h) s0
    s.live h = true → s.twoHalves = true →
    (i.paired = false → i.withholding = false → (s.half h).inService = true → i.goodFor1ms s.now = true →
      (i.holdsTokens = false → run = .next (s.modIsl h (fun i => { i with
        paired := true, partnerLost := false, partnerReported := false }))) ∧
      (i.holdsTokens = true → i.returnFrame = none → s.live o = true → (s.half o).inService = true →
        run = .next (s.setReturn h)) ∧
      (i.holdsTokens = true → (i.returnFrame.isSome = true ∨ s.live o = false ∨ (s.half o).inService = false) →
        run = .next s)) ∧
    ((i.paired = true ∨ i.withholding = true ∨ (s.half h).inService = false ∨ i.goodFor1ms s.now = false) →
      run = .next s) ∧
    (∀ a, i.readyAt = some a →
      (a + 1000000000 ≤ s.now → i.paired = false → i.partnerReported = false → i.partnerLost = false →
        i.withholding = false → (s.half h).inService = true → late = .next (s.giveUp h)) ∧
      (s.now < a + 1000000000 → late = .next s)) ∧
    ((i.readyAt = none ∨ i.paired = true ∨ i.partnerReported = true ∨ i.partnerLost = true ∨ i.withholding = true ∨
      (s.half h).inService = false) → late = .next s)

/-- Pairing, the loss of the partner, and the takeover. -/
def Obligations.PairingAndTakeover : Prop := Claim.PartnerIsLost ∧ Claim.TakeoverEffects ∧ Claim.HalvesPair

/-- RESTART_REQ, which the partner's island has asserted, fences the half and asserts ISL_FAULT_N, and where it is
not asserted
nothing happens; HALF_RESTART resets a fenced half (R358, R378, R379): its contexts,
cues, sheets, banks' owners, streams, rings and sessions are as at reset, the bank pool's contents are undefined,
while the
key fuses, the boot flash, the fault log (log entry 47) and the repair record are kept; all other memory is untouched. A half that is
held out stays so (R399). Every restart logs HALF_RESTART (log entry 24), and HALF_STATE reads restarting from the fence on (log entry
22): these three are the model's readings. The third restart
within 1,000 s, a self-test that found both copies failed, and one that finds the failing copy again leave the half failed
(R357, R382); a half that is not fenced, whose self-test runs, or whose trip still holds does not restart (R416). It also
rests on log entry 3. -/
def Obligations.HalfRestartResets : Prop :=
  ∀ (t : Nat) (h : Half) (ok coreOk : Bool) (s0 : State),
    let s := s0.advance t
    let i := (s.half h).isl
    (s.live h = true → s.twoHalves = true → (s.half (otherHalf h)).isl.restartReq = true → exec (.restartReq t h) s0 =
      .next ((s.modIsl (otherHalf h) (fun i => { i with restartReq := false })).modHalf h (HalfState.fence s.now))) ∧
    (s.live h = true → (s.twoHalves = false ∨ (s.half (otherHalf h)).isl.restartReq = false) →
      exec (.restartReq t h) s0 = .next s) ∧
    (s.supplied h = true → i.fenced = true → i.halfState ≠ 6 → i.halfState ≠ 7 → i.pairs.any (·.testing) = false →
      (s.half h).zen.tripHolds s.now = false → (i.coreFailed = 0 ∨ i.coreFailed = 3 ∨ (i.coreFailed ≠ 4 ∧
      coreOk = true)) →
      (i.restartTimes.filter (fun a => decide (s.now < a + 1000000000000))).length < 2 →
      ∃ u : State, exec (.halfRestart t h ok coreOk) s0 = .next (u.dispatch (otherHalf h)) ∧
        (u.half h).isl.fenced = false ∧ (u.half h).disp = (if h = .b then HalfState.resetB else ({} : HalfState)).disp ∧
        (u.half h).link = (if h = .b then HalfState.resetB else ({} : HalfState)).link ∧ (u.half h).prot = {} ∧
        (u.half h).session = (if h = .b then HalfState.resetB else ({} : HalfState)).session ∧
        (u.half h).hzn.streams = [] ∧ (u.half h).hzn.rings = [] ∧
        (u.half h).isl.logCount = (i.logCount + 1) % 65536 ∧
        u.undef = (s.markUndef { base := poolBase h, len := poolBytes }).undef ∧
        (∀ b, (u.bank h b).owned = false ∧ (u.bank h b).hostWr = false ∧ (u.bank h b).scrubbing = false) ∧
        (i.halfState = 5 → i.unconfigured = false → (u.half h).isl.halfState = 5 ∧ (u.half h).isl.unconfigured = false) ∧
        (i.halfState ≠ 5 → ok = true → i.snapshot.good = true → (u.half h).isl.halfState = 4) ∧
        (u.half h).isl.repair = i.repair ∧ (u.half h).isl.restarts = min 0xFFFF (i.restarts + 1) ∧
        (u.half h).boot.flashA = (s.half h).boot.flashA ∧ (u.half h).boot.flashB = (s.half h).boot.flashB ∧
        (u.half h).boot.custHash = (s.half h).boot.custHash ∧ (u.half h).boot.rollback = (s.half h).boot.rollback ∧
        u.mem = s.mem ∧ u.hostMem = s.hostMem ∧ u.tally = s.tally ∧
        (∀ a, inRange (poolBase h) poolBytes a = false → u.readByte a = s.readByte a)) ∧
    (s.supplied h = true → i.fenced = true → i.halfState ≠ 6 → i.halfState ≠ 7 → i.pairs.any (·.testing) = false →
      (s.half h).zen.tripHolds s.now = false → (i.coreFailed = 0 ∨ i.coreFailed = 3 ∨ (i.coreFailed ≠ 4 ∧
      coreOk = true)) →
      2 ≤ (i.restartTimes.filter (fun a => decide (s.now < a + 1000000000000))).length →
      exec (.halfRestart t h ok coreOk) s0 = .next (s.failHalf h)) ∧
    (s.supplied h = true → i.fenced = true → i.halfState ≠ 6 → i.halfState ≠ 7 → i.pairs.any (·.testing) = false →
      (s.half h).zen.tripHolds s.now = false →
      (i.coreFailed = 4 ∨ ((i.coreFailed = 1 ∨ i.coreFailed = 2) ∧ coreOk = false)) →
      exec (.halfRestart t h ok coreOk) s0 = .next (s.failHalf h)) ∧
    ((s.failHalf h).half h).isl.halfState = 6 ∧ ((s.failHalf h).half h).isl.fenced = true ∧
    ((s.failHalf h).half h).isl.faultN = false ∧ ((s.failHalf h).half h).disp = (s.half h).disp ∧
    ((s.failHalf h).half h).isl.logCount = (i.logCount + 1) % 65536 ∧ (s.failHalf h).mem = s.mem ∧
    ((i.fenced = false ∨ i.halfState = 6 ∨ i.halfState = 7 ∨ i.pairs.any (·.testing) = true ∨
      (s.half h).zen.tripHolds s.now = true) → exec (.halfRestart t h ok coreOk) s0 = .next s)

/-- SERVICE_READY (R469, R379): with a sheet in effect, the timer locked where it must be, and an HBM whose training
has not
failed, a half that powers
up or restarts is in service; one held out stays so and delivers nothing; while a condition is missing, or when the half is already in service,
nothing happens. It also rests on log entry 3. -/
def Claim.ServiceIsReady : Prop :=
  ∀ (t : Nat) (h : Half) (s0 : State),
    let s := s0.advance t
    let x := s.half h
    let run := exec (.serviceReady t h) s0
    let ready := x.disp.sheetState ≠ 0 ∧ (x.hzn.line.locked = false ∨ x.hzn.lockState = .locked) ∧ x.hbm.train ≠ 3
    s.live h = true →
    (ready → (x.isl.halfState = 1 ∨ x.isl.halfState = 4 ∨ x.isl.halfState = 5) →
      ∃ u : State, run = .next u ∧
        (u.half h).isl.halfState = (if x.isl.halfState = 5 ∧ x.isl.unconfigured = false then 5 else 2) ∧
        (u.half h).isl.readyAt = some s.now ∧ (u.half h).isl.unconfigured = false ∧ (u.half h).boot.phase = 4 ∧
        (u.half h).isl.faultN = (((u.half h).isl.halfState == 2) && !(x.isl.pairs.any (·.halted))) ∧
        (u.half h).isl.withholding = ((u.half h).isl.halfState == 5 ||
          s.live (otherHalf h) && (s.half (otherHalf h)).isl.holdsTokens) ∧
        (u.half h).disp = x.disp ∧ (u.half h).hzn = x.hzn ∧ u.mem = s.mem) ∧
    (¬ready → run = .next s) ∧
    (x.isl.halfState ≠ 1 → x.isl.halfState ≠ 4 → x.isl.halfState ≠ 5 → run = .next s)

/-- DISAGREEMENT_LIMIT: three disagreements of a unit make its slices due, once, and start its count again, and fewer do
nothing; Horizon, which has no slice, is watched at once (R371, R372). LEADER_REPEAT: eight frames in a row are reported,
fewer are not (R373). The entries' DETAIL is log entry 45. It also rests on log entry 3. -/
def Claim.LimitsAreActedOn : Prop :=
  ∀ (t : Nat) (h : Half) (unit k : Nat) (s0 : State),
    let s := s0.advance t
    let x := s.half h
    let run := exec (.disagreementLimit t h unit) s0
    s.live h = true →
    (unit < x.isl.disagree.length → 3 ≤ x.isl.disagree.getD unit 0 →
      ∃ u : State, run = .next u ∧ (u.half h).isl.disagree.getD unit 0 = 0 ∧
        (∀ v, v ≠ unit → (u.half h).isl.disagree.getD v 0 = x.isl.disagree.getD v 0) ∧
        (unit ≠ 7 → unit ∈ (u.half h).isl.slicesDue ∧ (u.half h).isl.logCount = x.isl.logCount) ∧
        (unit = 7 → (u.half h).isl.slicesDue = x.isl.slicesDue ∧
          (u.half h).isl.logCount = (x.isl.logCount + 1) % 65536) ∧
        (u.half h).disp = x.disp ∧ u.mem = s.mem) ∧
    (x.isl.disagree.getD unit 0 < 3 → run = .next s) ∧
    (8 ≤ (s.stream h k).leaderFails → exec (.leaderRepeat t h k) s0 =
      .next ((s.modStream h k (fun x => { x with leaderFails := 0 })).log h { code := 0x0515, unit := 7, detail := k })) ∧
    ((s.stream h k).leaderFails < 8 → exec (.leaderRepeat t h k) s0 = .next s)

/-- Service-ready, and the limits on disagreements and leader failures. -/
def Obligations.ServiceAndLimits : Prop := Claim.ServiceIsReady ∧ Claim.LimitsAreActedOn

/-- Class 5 conditions and what they do. -/
def Obligations.ClassFiveFences : Prop := Claim.ClassFiveEffect ∧ Claim.ClassFiveConditions

/-- Heartbeats and their lanes. -/
def Obligations.Heartbeats : Prop := Claim.HeartbeatRoundTrip ∧ Claim.HeartbeatLanes

/-! ### Power-up, boot and Zenith -/

/-- A half at the start of Boot or without supply (R400, R402, R433): every block is as at reset, but for what fuses, flash and
repair record keep, the instants that run from `now`, and what each statement below says itself: the island's repair record,
Zenith's power state, events and fuse rows, and the fuses of the boot chain. -/
def ColdHalf (h : Half) (now : Nat) (x y : HalfState) : Prop :=
  let r : HalfState := if h = .b then HalfState.resetB else {}
  let p := x.isl.repair
  y.disp = r.disp ∧ y.hzn = { r.hzn with lineStart := now } ∧ y.link = r.link ∧ y.hbm = r.hbm ∧ y.prot = r.prot ∧
  y.session = r.session ∧ y.chans = r.chans ∧ y.rotor = r.rotor ∧ y.can = r.can ∧ y.pcie = r.pcie ∧
  y.dolly = { r.dolly with refilledAt := now, banks := y.dolly.banks } ∧
  (∀ b, tget ({} : Bank) y.dolly.banks b =
    let o := tget ({} : Bank) x.dolly.banks b
    { sparesUsed := o.sparesUsed, factory := o.factory, retired := o.retired }) ∧
  y.isl = { r.isl with
    slabs := y.isl.slabs, retireDue := p.pendingSlabs.map (fun k => (k, r.hzn.sheetFrame)), derate := p.derate
    derateEvents := p.derateEvents, repair := y.isl.repair } ∧
  (∀ k,
    let o := tget (slabReset k) p.slabs k
    let n := tget (slabReset k) y.isl.slabs k
    n.state = o.state ∧ n.col = o.col ∧ n.passCount = o.passCount ∧
      n.score = (if p.pendingSlabs.contains k then 128 else o.score)) ∧
  y.zen = { r.zen with
    power := y.zen.power, powerEvents := y.zen.powerEvents, fuseRows := y.zen.fuseRows, age := p.age, ageTemp := p.ageTemp
    poweredHours := p.poweredHours, hourAt := now, startedAt := now, units := y.zen.units, lastBist := y.zen.lastBist
    rails := y.zen.rails } ∧
  (∀ u, tget ({} : Machine.Unit) y.zen.units u =
    if throttleUnits.contains u && wornOut (p.age.getD u 0) then { ageStep := 1, steps := 1 } else {}) ∧
  y.zen.rails.length = r.zen.rails.length ∧
  (∀ i, i < r.zen.rails.length →
    let q := r.zen.rails.getD i {}
    let g := p.guards.getD i 0
    y.zen.rails.getD i {} = { q with guard := g, setpoint := q.setpoint + g / 2, measured := q.setpoint + g / 2 }) ∧
  y.boot = { r.boot with
    flashA := x.boot.flashA, flashB := x.boot.flashB, vendorHash := x.boot.vendorHash, custHash := y.boot.custHash
    custProgrammed := y.boot.custProgrammed, custRevoked := x.boot.custRevoked, rollback := y.boot.rollback
    uds := x.boot.uds, cert := x.boot.cert, hbmCode := x.boot.hbmCode, powerOnAt := now }

/-- POWER_ON and FUSE_SENSE (R400, R402, R508): an unsupplied half enters Boot with every block as at reset, its contents of
HBM and bank pool undefined, and reports the units that the last BIST found failing (R424); what the halves share starts with
Half A. A supplied one ignores POWER_ON. Fuses are sensed once, and not while a VIO rail is out of
range; HBM training begins with it (log entry 117). It also rests on log entries 3, 4, 8 and 10. -/
def Claim.PowerComes : Prop :=
  ∀ (t : Nat) (h : Half) (s0 : State),
    let s := s0.advance t
    let x := s.half h
    (s.hasHalf h = true → x.powered = false →
      ∃ u : State,
        exec (.powerOn t h) s0 = .next (
          let v := x.isl.repair.failedUnits.foldl (fun v f => v.log h { code := 0x060C, unit := f.1, detail := f.1 % 256 * 2 ^ 32 + f.2 % 2 ^ 32 }) u
          if h = .a then
            { v with sdio := {}, sdioWorld := false, canAWorld := false, canBWorld := false, pkgLimit := defaultLimit s.part }
          else v) ∧
        ColdHalf h s.now x (u.half h) ∧ (u.half h).zen.power = .boot ∧ (u.half h).zen.powerEvents = x.zen.powerEvents ∧
        (u.half h).zen.fuseRows = x.zen.fuseRows ∧ (u.half h).zen.lastBist = x.isl.repair.lastBist ∧
        (u.half h).isl.repair = { x.isl.repair with pendingSlabs := [] } ∧
        (u.half h).boot.custHash = x.boot.custHash ∧ (u.half h).boot.custProgrammed = x.boot.custProgrammed ∧
        (u.half h).boot.rollback = x.boot.rollback ∧
        u.undef = (s.loseMemory h).undef ∧ u.half (otherHalf h) = s.half (otherHalf h) ∧ u.mem = s.mem ∧
        u.hostMem = s.hostMem ∧ u.tally = s.tally ∧ u.now = s.now ∧
        (∀ a, inRange (hbmBase h) hbmBytes a = false → inRange (poolBase h) poolBytes a = false →
          u.readByte a = s.readByte a)) ∧
    ((x.powered = true ∨ s.hasHalf h = false) → exec (.powerOn t h) s0 = .next s) ∧
    (s.supplied h = true → x.boot.fusesSensed = false →
      (∃ u : State, exec (.fuseSense t h true) s0 = .next u ∧
        (u.half h).boot = { x.boot with
          fusesSensed := true, vioOk := true, powerOnAt := if x.boot.vioOk then x.boot.powerOnAt else s.now
          keysAtBoot := (List.range 2).map (fun k =>
            (x.boot.custHash.getD k [], x.boot.custProgrammed.getD k false, x.boot.custRevoked.getD k false)) } ∧
        (∀ b, tget ({} : Bank) (u.half h).dolly.banks b =
          if b < 256 then (tget ({} : Bank) x.dolly.banks b).sense x.zen b else tget {} x.dolly.banks b) ∧
        (u.half h).hbm = { x.hbm with train := max 1 x.hbm.train } ∧ (u.half h).disp = x.disp ∧ (u.half h).hzn = x.hzn ∧
        (u.half h).isl = x.isl ∧ (u.half h).zen = x.zen ∧ u.half (otherHalf h) = s.half (otherHalf h) ∧ u.mem = s.mem) ∧
      exec (.fuseSense t h false) s0 = .next (s.modBoot h (fun b => { b with vioOk := false }))) ∧
    (s.supplied h = true → x.boot.fusesSensed = true → ∀ ok, exec (.fuseSense t h ok) s0 = .next s)

/-- BROWN_OUT (R402, R425, R430, R482, R501): every supplied half is off, with every block as at reset; flash, the identity, the
revoke fuses and the repair record stay. A fuse row changes only where a BIST is running, and then at most the first free row,
to a word that fails its parity (log entry 149). A key slot or a counter changes only where it is being programmed, within the
time that log entry 131 leaves free: the slot then has PROGRAMMED clear and some bits of its hash, and the counter stands
between its old number and its new one. It also rests on log entry 46. -/
def Claim.PowerGoes : Prop :=
  ∀ (t : Nat) (s0 : State),
    let s := s0.advance t
    ∃ u : State, exec (.brownOut t) s0 = .next u ∧ u.mem = s.mem ∧ u.hostMem = s.hostMem ∧ u.tally = s.tally ∧
      u.sdio = {} ∧ u.now = s.now ∧
      ∀ k,
        let x := s.half k
        let y := u.half k
        (s.supplied k = false → y = x) ∧
        (s.supplied k = true →
          u.live k = false ∧ ColdHalf k s.now x y ∧ y.zen.power = .off ∧
          y.zen.powerEvents = (if x.zen.power = .testDone then 0 else 1) ∧ y.zen.lastBist = y.isl.repair.lastBist ∧
          y.isl.repair = { x.isl.repair with lastBist := if x.zen.bistRunning then 7 else x.isl.repair.lastBist } ∧
          (x.zen.bistRunning = false → y.zen.fuseRows = x.zen.fuseRows) ∧
          (∀ i, y.zen.row i ≠ x.zen.row i → x.zen.bistRunning = true ∧ x.zen.row i = 0 ∧ rowParityOk (y.zen.row i) = false ∧
            ∀ j < i, rowFree (x.zen.row j) = false) ∧
          ((∀ n b, x.boot.keyBurnt = some (n, b) → b + Config.fuseTime ≤ s.now) →
            y.boot.custHash = x.boot.custHash ∧ y.boot.custProgrammed = x.boot.custProgrammed) ∧
          (∀ n b, x.boot.keyBurnt = some (n, b) → s.now < b + Config.fuseTime →
            y.boot.custProgrammed.getD n false = false ∧
            (∀ i, (y.boot.custHash.getD n []).getD i 0 &&& (x.boot.custHash.getD n []).getD i 0 =
              (y.boot.custHash.getD n []).getD i 0) ∧
            ∀ m, m ≠ n → y.boot.custProgrammed.getD m false = x.boot.custProgrammed.getD m false ∧
              y.boot.custHash.getD m [] = x.boot.custHash.getD m []) ∧
          ((∀ n b old, x.boot.rollBurnt = some (n, b, old) → b + Config.fuseTime ≤ s.now) →
            y.boot.rollback = x.boot.rollback) ∧
          (∀ n b old, x.boot.rollBurnt = some (n, b, old) → s.now < b + Config.fuseTime → n - 1 < x.boot.rollback.length →
            old ≤ y.boot.rollback.getD (n - 1) 0 ∧
            y.boot.rollback.getD (n - 1) 0 ≤ max old (x.boot.rollback.getD (n - 1) 0) ∧
            ∀ m, m ≠ n - 1 → y.boot.rollback.getD m 0 = x.boot.rollback.getD m 0))

/-- Power-up, the fuses and the removal of the supply. -/
def Obligations.PowerComesAndGoes : Prop := Claim.PowerComes ∧ Claim.PowerGoes

/-- The boot chain (R478, R479, R480, R481): each stage follows the one before it; a required image that verifies brings its
stage, one that does not leaves the half failed in Boot, and no stage completes in a half that has failed. The non-secure
firmware and the slate image follow the fourth stage, each once, the first where BOOT_CFG asks for it and the second
once HBM
is trained and only with a body of its form; either may fail without stopping the half. Which row of the dictionary and of the SDIO port a stage
opens is log entry 55, and when BOOT_CFG's image is read log entry 58. It also rests on log entry 3. -/
def Claim.BootStagesFollow : Prop :=
  ∀ (t : Nat) (h : Half) (s1 : State) (body : List Byte) (s0 : State),
    let s := s0.advance t
    let b := (s.half h).boot
    let n := b.stage
    let run := fun (g : BootStage) => exec (.bootStageDone t h g) s0
    let loaded := fun (k : Nat) => s.load h k (fun _ => true) = (s1, some body)
    let refused := fun (k : Nat) => s.load h k (fun _ => true) = (s1, none)
    let slate := fun (r : Option (List Byte)) => s.load h 5 slateForm = (s1, r)
    s.live h = true →
    (b.failed = true → ∀ g, run g = .next s) ∧
    (b.failed = false →
      (n = 0 → b.fusesSensed = true → (loaded 1 → run .fs = .next (s1.modHalf h (HalfState.reach 1 1 0 1))) ∧
        (refused 1 → run .fs = .next (s1.bootFails h))) ∧
      (n = 1 → (loaded 2 → run .isl = .next (s1.modHalf h (HalfState.reach 2 1 1 1))) ∧
        (refused 2 → run .isl = .next (s1.bootFails h))) ∧
      (n = 2 → (loaded 3 → run .zen = .next (((s1.load h 7 (fun _ => true)).1.bootCfg h
          ((s1.load h 7 (fun _ => true)).2.getD [])).modHalf h (HalfState.reach 3 2 2 1))) ∧
        (refused 3 → run .zen = .next (s1.bootFails h))) ∧
      (n = 3 → (loaded 4 →
          run .dirS = .next ((s1.modHalf h (HalfState.reach 4 2 2 1)).modHalf h (HalfState.directorRuns h s1.now))) ∧
        (refused 4 → run .dirS = .next (s1.bootFails h))) ∧
      (n = 4 → run .services = .next (s.modHalf h (HalfState.reach 4 4 2 3))) ∧
      (n = 4 → b.nsFw = true → b.nsRunning = false →
        (loaded 6 → run .dirNs = .next (s1.modBoot h (fun b => { b with nsRunning := true }))) ∧
        (refused 6 → run .dirNs = .next s1)) ∧
      (n = 4 → (s.half h).hbm.train = 2 → b.slateVerified = false →
        (slate (some body) → run .slate = .next (s1.modBoot h (fun b => { b with slateVerified := true }))) ∧
        (slate none → run .slate = .next s1)) ∧
      ((n ≠ 0 ∨ b.fusesSensed = false) → run .fs = .next s) ∧ (n ≠ 1 → run .isl = .next s) ∧
      (n ≠ 2 → run .zen = .next s) ∧ (n ≠ 3 → run .dirS = .next s) ∧ (n ≠ 4 → run .services = .next s) ∧
      ((n ≠ 4 ∨ b.nsFw = false ∨ b.nsRunning = true) → run .dirNs = .next s) ∧
      ((n ≠ 4 ∨ (s.half h).hbm.train ≠ 2 ∨ b.slateVerified = true) → run .slate = .next s))

/-- Loading an image (R478): of its two copies the one first in order is taken where it passes every check, else the other
where that one does; where neither does, the image is not loaded. It also rests on log entries 19 and 54. -/
def Claim.LoadTriesBothCopies : Prop :=
  ∀ (s : State) (h : Half) (k c d : Nat),
    let b := (s.half h).boot
    let r := (s.load h k (fun _ => true)).2
    k ≠ 7 → b.order k = [c, d] →
    (s.verify h k (b.copy k c) = 0 → r = some (imgBody (b.copy k c))) ∧
    (s.verify h k (b.copy k c) ≠ 0 → s.verify h k (b.copy k d) = 0 → r = some (imgBody (b.copy k d))) ∧
    (s.verify h k (b.copy k c) ≠ 0 → s.verify h k (b.copy k d) ≠ 0 → r = none)

/-- What the stages bring (R400, R467, R473, R474, R481): the stage's number and at least its row of the dictionary
and the
SDIO port, and the controller on its bus; a half that powers up starts its Director with the boot region set enforced, and so
does a restarted one without a good snapshot, while one that has it gets its regions, ENFORCE and LOCK back (R379), and LOCK in
effect keeps them all (R315); a half whose required image fails reads as failed and answers on CAN FD, and its partner's link, where it was up, goes down (log entry 153). Which
row a stage opens is log entry 55. -/
def Claim.BootStageEffects : Prop :=
  ∀ (s : State) (h : Half) (stage dict sdio phase : Nat),
    let x := s.half h
    let y := HalfState.reach stage dict sdio phase x
    let z := (s.bootFails h).half h
    y.boot.stage = stage ∧ dict ≤ y.boot.dictLevel ∧ sdio ≤ y.boot.sdioLevel ∧ x.boot.dictLevel ≤ y.boot.dictLevel ∧
    x.boot.sdioLevel ≤ y.boot.sdioLevel ∧ y.can.onBus = true ∧ y.disp = x.disp ∧ y.hzn = x.hzn ∧
    (x.isl.halfState = 1 → phase ≤ y.boot.phase) ∧ (x.isl.halfState ≠ 1 → y.boot.phase = x.boot.phase) ∧
    (let w := (HalfState.directorRuns h s.now x).prot
     let again := x.isl.halfState = 4 ∨ (x.isl.halfState = 5 ∧ x.isl.unconfigured = false)
     let p := x.isl.snapshot
     (x.prot.lock = true → w = x.prot) ∧
     (x.prot.lock = false → x.isl.halfState = 1 → w = x.prot.bootSet h) ∧
     (x.prot.lock = false → again → p.good = true → p.taken = true →
       w.regions = p.regions ∧ w.enforce = p.enforce ∧ w.lock = p.lock) ∧
     (x.prot.lock = false → again → (p.good = false ∨ p.taken = false) →
       w.regions = (x.prot.bootSet h).regions ∧ w.enforce = true)) ∧
    (x.prot.bootSet h).enforce = true ∧
    z.boot.failed = true ∧ z.isl.halfState = 6 ∧ z.can.onBus = true ∧ z.link.state = 0 ∧
    (s.linkUp (otherHalf h) = true →
      (s.bootFails h).half (otherHalf h) = ((s.loseLink (otherHalf h)).dispatch (otherHalf h)).half (otherHalf h)) ∧
    (s.linkUp (otherHalf h) = false →
      z.boot.stage = x.boot.stage ∧ (s.bootFails h).half (otherHalf h) = s.half (otherHalf h) ∧ (s.bootFails h).mem = s.mem)

/-- SLATE_FILL (R479): with the slate image verified and HBM trained, the first copy whose generated data have the CRCs it
states is filled in, its measurement taken, and the slate is ready; where neither copy's data do, the image counts as not
verified. Before that, and once the slate is ready, nothing happens. It also rests on log entries 3 and 57. -/
def Claim.SlateIsFilled : Prop :=
  ∀ (t : Nat) (h : Half) (s1 : State) (c e : Nat) (s0 : State),
    let s := s0.advance t
    let b := (s.half h).boot
    let run := exec (.slateFill t h) s0
    s.live h = true →
    (b.slateVerified = true → b.slateReady = false → (s.half h).hbm.train = 2 →
      (s.tryCopies h 5 slateOk (b.order 5) = (s1, some c, e) →
        ∃ u : State, run = .next u ∧ (u.half h).boot.slateReady = true ∧
          (u.half h).disp.slateSigs = Config.slateSigs (imgBody (b.copy 5 c)) ∧
          measureOf c (b.copy 5 c) ∈ (u.half h).boot.measures ∧
          u.mem = (s1.fillSlate h (leAt (b.copy 5 c) 0x10 8) (imgBody (b.copy 5 c))).mem) ∧
      (s.tryCopies h 5 slateOk (b.order 5) = (s1, none, e) →
        run = .next ((s.load h 5 slateOk).1.modBoot h (fun b => { b with slateVerified := false })))) ∧
    ((b.slateVerified = false ∨ b.slateReady = true ∨ (s.half h).hbm.train ≠ 2) → run = .next s)

/-- The boot chain up to the slate (R478 to R481; log entries 55, 58, 152, 153). -/
def Obligations.BootChain : Prop :=
  Claim.BootStagesFollow ∧ Claim.LoadTriesBothCopies ∧ Claim.BootStageEffects ∧ Claim.SlateIsFilled

/-- Supplies, sensors and flow (R400, R401, R404, R405, R409, R417): a supply out of range is logged when it leaves its
range, and a half in Run is then Degraded; every sensor's reading is taken and each unit's temperature is its hottest
sensor's (HBM's the stack's), and so are the power and the coolant's temperatures; a flow pulse counts; Degraded ends 10 s
after its last condition, with its emergency message, and not before. It also rests on log entries 3, 18, 39 and 98. -/
def Claim.ZenithReadings : Prop :=
  ∀ (t : Nat) (h : Half) (mv pw ni no a k : Nat) (readings : List Int) (s0 : State),
    let s := s0.advance t
    let z := (s.half h).zen
    let bad := decide (mv < 1710) || decide (1890 < mv)
    let noted := s.modZen h (fun z =>
      Zen.trackClear s.now (Zen.enterDegraded 0x060E { z with vinMv := mv, supplyBad := bad }))
    let leave := exec (.degradedExit t h) s0
    s.supplied h = true →
    ((bad = false ∨ z.supplyBad = true) → exec (.supplyRange t h mv) s0 = .next noted) ∧
    (bad = true → z.supplyBad = false →
      exec (.supplyRange t h mv) s0 = .next (noted.log h { code := 0x060E, unit := 13, detail := mv })) ∧
    (noted.half h).zen.vinMv = mv ∧ (noted.half h).zen.supplyBad = bad ∧
    (bad = true → (noted.half h).zen.degradedClear = none ∧
      (z.power = .run → (noted.half h).zen.power = .degraded ∧ (noted.half h).zen.degradedCause = 0x060E)) ∧
    (z.power ≠ .run → (noted.half h).zen.power = z.power) ∧
    (∃ u : State, exec (.sensorRead t h readings pw ni no) s0 = .next u ∧ (u.half h).zen.power16 = pw ∧
      (k < readings.length → tget 0 (u.half h).zen.sensors k = readings.getD k 0) ∧
      (u.unit h 10).temp16 = ((s.half h).hbm.stackTemp : Int) * 16 ∧
      (∀ v ∈ throttleUnits, (u.unit h v).temp16 = hottestOf readings (s.half h).hbm.stackTemp (s.unit h v).temp16 v) ∧
      (u.half h).zen.coolIn16 = ntcTemp z.ntcR25 z.ntcB ni ∧ (u.half h).zen.coolOut16 = ntcTemp z.ntcR25 z.ntcB no ∧
      (u.half h).zen.sensorHigh = trackHigh s.now z.sensorHigh readings ∧ (u.half h).zen.rails = z.rails ∧
      u.mem = s.mem ∧ (u.half h).disp = (s.half h).disp ∧ (u.half h).isl = (s.half h).isl) ∧
    exec (.flowPulse t h) s0 = .next (s.modZen h (fun z => { z with
      flowPulses := s.now :: z.flowPulses.filter (fun a => decide (s.now < a + 1000000000)), lastFlow := some s.now })) ∧
    (z.degradedClear = some a → z.power = .degraded → a + 10000000000 ≤ s.now →
      leave = .next ((s.modZen h (fun z => { z with power := .run })).sendCause h false) ∧
      ∃ u : State, leave = .next u ∧ (u.half h).zen.power = .run ∧ (u.half h).isl = (s.half h).isl) ∧
    (z.degradedClear = some a → s.now < a + 10000000000 → leave = .next s) ∧
    ((z.degradedClear = none ∨ z.power ≠ .degraded) → leave = .next s)

/-- THROTTLE_UPDATE (R413, R414): afterwards every unit's steps are the larger of its derate, its ageing step and its
forecast plus reactive steps, the last at most 15. The hottest unit takes a reactive step when it has reached its onset or
the half its power limit, 1 ms after the last such step and unless its temperature has fallen; the unit with the most
gives
one back when every unit is 3 °C below its onset and the power below its limit, 10 ms after the last; no other
reactive step
changes, and no step by more than one. -/
def Claim.ThrottleSteps : Prop :=
  ∀ (t : Nat) (h : Half) (s0 : State),
    let s := s0.advance t
    let z := (s.half h).zen
    let hot := decide (0 ≤ z.margin z.hot) || s.overLimit h
    let under := throttleUnits.all (fun u => decide (z.margin u < -48)) && s.underLimit h
    s.supplied h = true →
    ∃ u : State, exec (.throttleUpdate t h) s0 = .next u ∧
      (∀ v ∈ throttleUnits,
        let y := u.unit h v
        let r := (s.unit h v).react
        y.steps = max (max (s.half h |>.derateOf v) y.ageStep) (min 15 (y.forecast + y.react)) ∧
        min 15 r ≤ y.react + 1 ∧ y.react ≤ r + 1 ∧
        (hot = true → v = z.hot → rested s.now 1000000 z.lastAdd = true → z.fallen s.now z.hot = false →
          y.react = min (r + 1) 15) ∧
        (hot = true → (v ≠ z.hot ∨ rested s.now 1000000 z.lastAdd = false ∨ z.fallen s.now z.hot = true) → y.react = r) ∧
        (hot = false → under = true → v = z.coolest → rested s.now 10000000 z.lastRemove = true → y.react = r - 1) ∧
        (hot = false → (under = false ∨ v ≠ z.coolest ∨ rested s.now 10000000 z.lastRemove = false) → y.react = r) ∧
        y.forecast = (s.unit h v).forecast ∧ y.temp16 = (s.unit h v).temp16 ∧ y.ageStep = (s.unit h v).ageStep) ∧
      u.mem = s.mem ∧ (u.half h).disp = (s.half h).disp ∧ u.half (otherHalf h) = s.half (otherHalf h)

/-- Thermal trips and cooling (R416, R418): a sensor at 115 °C for 1 ms, or the comparator at 125 °C, fences the half and
switches its compute-die regulators off, once; a cooling status bit changes when its condition has differed from it for
10 s, and not before; a sensor fault that becomes one of its bits sets COOL_DEGRADED as well. It also rests on log entries 3
and 45. -/
def Claim.TripsAndCooling : Prop :=
  ∀ (t : Nat) (h : Half) (bit a : Nat) (p : Nat × Nat) (s0 : State),
    let s := s0.advance t
    let z := (s.half h).zen
    let off := fun (d : Nat) => (s.halfFault h { code := 0x0604, unit := 13, detail := d }).modZen h (fun z =>
      { z with tripped := true, regsOn := false, coolSince := none })
    s.supplied h = true →
    (z.tripped = false → z.sensorHigh.find? (fun p => decide (p.2 + 1000000 ≤ s.now)) = some p →
      exec (.thermalTrip t h) s0 = .next (off p.1)) ∧
    (z.sensorHigh.find? (fun p => decide (p.2 + 1000000 ≤ s.now)) = none → exec (.thermalTrip t h) s0 = .next s) ∧
    (z.tripped = false → exec (.thermalTripHw t h) s0 = .next (off 0xFF)) ∧
    (z.tripped = true → exec (.thermalTripHw t h) s0 = .next s ∧ exec (.thermalTrip t h) s0 = .next s) ∧
    (bit < 2 → z.coolTimers.getD bit none = some a → a + 10000000000 ≤ s.now →
      ∃ u : State, exec (.coolStatusChange t h bit) s0 = .next u ∧
        flag (u.half h).zen.coolStatus bit = !(flag z.coolStatus bit) ∧
        (∀ n, n ≠ bit → flag (u.half h).zen.coolStatus n = flag z.coolStatus n) ∧
        (u.half h).isl.logCount = ((s.half h).isl.logCount + 1) % 65536 ∧ u.mem = s.mem) ∧
    (z.coolTimers.getD 2 none = some a → a + 10000000000 ≤ s.now →
      ∃ u : State, exec (.coolStatusChange t h 2) s0 = .next u ∧
      flag (u.half h).zen.coolStatus 2 = !(flag z.coolStatus 2) ∧
        (flag z.coolStatus 2 = false → flag (u.half h).zen.coolStatus 1 = true) ∧
        (flag z.coolStatus 2 = true → flag (u.half h).zen.coolStatus 1 = flag z.coolStatus 1) ∧
        flag (u.half h).zen.coolStatus 0 = flag z.coolStatus 0 ∧ u.mem = s.mem) ∧
    (z.coolTimers.getD bit none = none → exec (.coolStatusChange t h bit) s0 = .next s) ∧
    (z.coolTimers.getD bit none = some a → s.now < a + 10000000000 → exec (.coolStatusChange t h bit) s0 = .next s)

/-- AGE_MEASURE and BIST_DONE (R419, R420, R423 to R426): an hour after the last one, and not before, one powered
hour more; a measurement within 5 °C of the last one
is taken, and no rail's guard passes 20 mV. A BIST that ran is done: its verdict is in LAST_BIST and the repair
record with the units that failed (their DETAIL is log entry 45), and
the regulators are off and the bank pool's contents undefined; one that did not run changes nothing. It also rests on log
entries 3 and 98. -/
def Claim.AgeingAndBist : Prop :=
  ∀ (t : Nat) (h : Half) (temp : Int) (slow slabs : List Nat) (units : List (Nat × Nat)) (columns : List BistColumn) (s0 : State),
    let s := s0.advance t
    let z := (s.half h).zen
    s.supplied h = true →
    (s.now < z.hourAt + 3600000000000 → exec (.ageMeasure t h temp slow) s0 = .next s) ∧
    (z.hourAt + 3600000000000 ≤ s.now → ∃ u : State, exec (.ageMeasure t h temp slow) s0 = .next u ∧
      (u.half h).zen.poweredHours = (z.poweredHours + 1) % 2 ^ 32 ∧ (u.half h).zen.hourAt = z.hourAt + 3600000000000 ∧
      ((temp - z.ageTemp).natAbs ≤ 80 → (u.half h).zen.ageTemp = temp ∧
        (∀ v ∈ throttleUnits, (u.half h).zen.age.getD v 0 = slow.getD v 0 % 65536) ∧
        (∀ r ∈ (u.half h).zen.rails, r.guard ≤ 40)) ∧
      (80 < (temp - z.ageTemp).natAbs → z.poweredHours ≠ 0 → (u.half h).zen.age = z.age ∧
      (u.half h).zen.rails = z.rails) ∧
      (u.half h).isl.repair.poweredHours = (u.half h).zen.poweredHours ∧
      (u.half h).isl.repair.ageTemp = (u.half h).zen.ageTemp ∧ u.mem = s.mem ∧
      (u.half h).disp = (s.half h).disp) ∧
    (z.bistRunning = true → z.power = .testing →
      ∃ u : State, exec (.bistDone t h columns slabs units) s0 = .next u ∧ (u.half h).zen.power = .testDone ∧
        (u.half h).zen.bistRunning = false ∧ (u.half h).zen.regsOn = false ∧
        (u.half h).isl.repair.failedUnits = units ∧ (∀ a, inRange (poolBase h) poolBytes a = true → (undefAt u.undef a).isSome = true) ∧
        (u.half h).isl.repair.lastBist = (u.half h).zen.lastBist ∧
        (columns = [] → slabs = [] → units = [] → (u.half h).zen.lastBist = 1) ∧
        (units ≠ [] → (u.half h).zen.lastBist = 3) ∧ u.mem = s.mem) ∧
    ((z.bistRunning = false ∨ z.power ≠ .testing) → exec (.bistDone t h columns slabs units) s0 = .next s)

/-- Zenith's own rows. -/
def Obligations.ZenithActs : Prop :=
  Claim.ZenithReadings ∧ Claim.ThrottleSteps ∧ Claim.TripsAndCooling ∧ Claim.AgeingAndBist

/-! ### The dictionary -/

/-- The state after the note a write by a session's holder leaves (R450). -/
def Noted (s : State) (ch : Channel) (index : Nat) : State :=
  if s.holds ch (s.answerer index) then s.modSession (s.answerer index) (fun x => { x with lastWrite := s.now }) else s

/-- A whole write of an entry on a channel passes every condition of R432: the channel serves requests and the half that
answers has none in flight on it, the dictionary is ready, and access, length, range and state are in order. -/
def Admits (s : State) (ch : Channel) (index sub : Nat) (data : List Byte) : Prop :=
  s.channelOpen ch = true ∧ (s.chan ch (s.chanHome ch index)).inFlight = false ∧ s.notReady ch index = false ∧
  s.accessAbort ch index sub true = 0 ∧ ∃ e, entryAt (entryIndex index) sub = some e ∧
    lengthAbort (entryIndex index) sub e data = 0 ∧
    (Noted s ch index).rangeAbort (s.answerer index) (entryIndex index) sub e data = 0 ∧
    (Noted s ch index).stateAbort ch index sub e true = 0

/-- The same, outside a session of the channel: the write acts at once (R446). -/
def Acts (s : State) (ch : Channel) (index sub : Nat) (data : List Byte) : Prop :=
  Admits s ch index sub data ∧ s.holds ch (s.answerer index) = false

/-- A whole write is answered with an abort code; 0 reports success. -/
def wrote (s : State) (ch : Channel) (index sub code : Nat) : State :=
  s.answer ch { op := 2, txn := 0, index := index, sub := sub } code

/-- The fields of a response (R440), and those of one that answers a write or carries no data: FLAGS and TOTAL 0. -/
def Claim.ResponseFields : Prop :=
  (∀ (s : State) (ch : Channel) (q : Request) (abort : Nat),
    s.answer ch q abort = s.respond ch (s.chanHome ch q.index) (responseBytes q.op q.txn q.index q.sub 0 abort 0 [])) ∧
  ∀ (op txn index sub flags abort total : Nat) (data : List Byte), op < 0x80 → txn < 256 → index < 2 ^ 16 → sub < 256 →
    flags < 256 → abort < 2 ^ 16 → total < 2 ^ 32 → data.length < 2 ^ 16 →
    let r := responseBytes op txn index sub flags abort total data
    r.length = 16 + data.length ∧ leAt r 0 1 = op + 0x80 ∧ leAt r 1 1 = txn ∧ leAt r 2 2 = index ∧ leAt r 4 1 = sub ∧
    leAt r 5 1 = flags ∧ leAt r 6 2 = abort ∧ leAt r 8 4 = total ∧ leAt r 12 2 = data.length ∧ leAt r 14 2 = 0 ∧
    r.drop 16 = data

/-- DICT_READ (R441, R467, R481): a read that is admitted answers with the value's length and as many of its bytes from OFFSET
on as fit; one that is not is answered with the first failing condition's abort (their order is log entry 65), and one from beyond
the value's end with 0xA104. A channel that does not serve requests takes none, and one whose half has no dictionary yet answers
0xA301; but HALF_STATE of a half whose boot failed is read over SDIO (log entry 153). It also rests on log entry 3. -/
def Claim.DictReads : Prop :=
  ∀ (t : Nat) (ch : Channel) (txn index sub off mx a : Nat) (e : Entry) (s0 : State),
    let s := s0.advance t
    let home := s.chanHome ch index
    let v := s.entryValue (s.answerer index) (entryIndex index) sub
    let d := (v.drop off).take (if mx = 0 then capacityOf ch else min mx (capacityOf ch))
    let q : Request := { op := 1, txn := txn, index := index, sub := sub, offset := off, max := mx }
    let run := exec (.dictRead t ch txn index sub off mx) s0
    let served := s.partnerReports ch q = true ∨
      (2 ≤ s.servedLevel ch index ∧ (s.chan ch home).inFlight = false ∧ s.notReady ch index = false)
    (s.channelOpen ch = false → run = .next s) ∧
    (s.channelOpen ch = true →
    (s.partnerReports ch q = false →
      (s.servedLevel ch index < 2 → run = .next (s.answer ch q 0xA301)) ∧
      (2 ≤ s.servedLevel ch index → (s.chan ch home).inFlight = true → run = .next (s.answer ch q 0xA302)) ∧
      (2 ≤ s.servedLevel ch index → (s.chan ch home).inFlight = false → s.notReady ch index = true →
        run = .next (s.answer ch q 0xA301))) ∧
    (served → s.accessAbort ch index sub false = a → a ≠ 0 → run = .next (s.answer ch q a)) ∧
    (served → s.accessAbort ch index sub false = 0 → entryAt (entryIndex index) sub = some e →
      (s.stateAbort ch index sub e false = 0 → off ≤ v.length → run = .next (s.respond ch home
        (responseBytes 1 txn index sub (bitOf (decide (v.length ≤ off + d.length))) 0 v.length d))) ∧
      (s.stateAbort ch index sub e false = 0 → v.length < off → run = .next (s.answer ch q 0xA104)) ∧
      (s.stateAbort ch index sub e false ≠ 0 → run = .next (s.answer ch q (s.stateAbort ch index sub e false)))) ∧
    (s.servedLevel ch 0 < 2 → exec (.dictCancel t ch txn) s0 =
      .next (s.answer ch { op := 5, txn := txn, index := 0, sub := 0 } 0xA301)))

/-- DICT_WRITE, DICT_CANCEL and DICT_TIMEOUT (R442 to R444): an RW entry written whole outside a session takes its value and
the write is answered with 0; a segment that is not the last is gathered and applies nothing; one out of order discards what
was gathered with 0xA103, and one whose access is refused with that refusal's code; a cancel ends the transaction in flight
unapplied, over SDIO in each half (log entry 151); and a segment more than 50 ms late, and not one in time, ends a half's
transaction with 0xA303 (each segment starts the 50 ms again: log entry 129). It also rests on log entries 3 and 64. -/
def Claim.DictWrites : Prop :=
  ∀ (t : Nat) (ch : Channel) (txn index sub off : Nat) (last : Bool) (data : List Byte) (e : Entry) (k : Half) (s0 : State),
    let s := s0.advance t
    let home := s.chanHome ch index
    let c := s.chan ch home
    let got := if c.inFlight then c.gathered else []
    let q : Request := { op := 2, txn := txn, index := index, sub := sub, last := last, offset := off, data := data }
    let run := exec (.dictWrite t ch txn index sub off last data) s0
    let done := s.modChan ch home Chan.done
    let goes := c.inFlight = false ∨ (c.txn = txn ∧ c.index = index ∧ c.sub = sub)
    let late := fun (j : Half) => (s.chan ch j).inFlight = true ∧ (s.chan ch j).startedAt + 50000000 < s.now
    let ended := { op := 5, txn := txn, index := 0, sub := 0 : Request }
    s.channelOpen ch = true → 2 ≤ s.servedLevel ch index → s.notReady ch index = false →
    (goes → s.accessAbort ch index sub true = 0 → off = got.length → data.length ≤ capacityOf ch → last = true →
      entryAt (entryIndex index) sub = some e → e.access = .rw → e.session = false →
      lengthAbort (entryIndex index) sub e (got ++ data) = 0 → sessionControl (entryIndex index) = false →
      done.holds ch (done.answerer index) = false →
      done.rangeAbort (done.answerer index) (entryIndex index) sub e (got ++ data) = 0 →
      done.stateAbort ch index sub e true = 0 →
      run = .next ((done.putEntry (done.answerer index) (entryIndex index) sub (got ++ data)).answer ch q 0)) ∧
    (goes → s.accessAbort ch index sub true = 0 → off = got.length → data.length ≤ capacityOf ch → last = false →
      run = .next ((s.modChan ch home (fun c => { c with
        inFlight := true, startedAt := s.now, txn := txn, index := index, sub := sub, gathered := got ++ data })).answer ch q
        0)) ∧
    (goes → s.accessAbort ch index sub true = 0 → (off ≠ got.length ∨ capacityOf ch < data.length) →
      run = .next (done.answer ch q 0xA103)) ∧
    (goes → s.accessAbort ch index sub true ≠ 0 → run = .next (done.answer ch q (s.accessAbort ch index sub true))) ∧
    (¬goes → run = .next (s.answer ch q 0xA302)) ∧
    (2 ≤ s.servedLevel ch 0 → exec (.dictCancel t ch txn) s0 = .next ((s.cancel ch).answer ch ended 0)) ∧
    (∀ j ∈ s.chanHalves ch, (s.cancel ch).chan ch j = (s.chan ch j).done) ∧
    ((∀ j ∈ s.chanHalves ch, ¬ late j) → exec (.dictTimeout t ch) s0 = .next s) ∧
    (k ∈ s.chanHalves ch → late k → (∀ j ∈ s.chanHalves ch, j ≠ k → ¬ late j) → exec (.dictTimeout t ch) s0 = .next
      ((s.modChan ch k Chan.done).respond ch k
        (responseBytes 2 (s.chan ch k).txn (s.chan ch k).index (s.chan ch k).sub 0 0xA303 0 [])))

/-- The layout of a response (R440), and what a read puts into LAST, TOTAL and DATA (R441, R467, R432). -/
def Obligations.ResponseLayout : Prop := Claim.ResponseFields ∧ Claim.DictReads

/-- Writes of dictionary entries, whole and in segments. -/
def Obligations.DictionaryRequests : Prop := Claim.DictWrites

/-- HALF_CTL and DERATE_CLEAR (R380, R382, R396): hold out, return, restart (a class 5 event with LAST_HALF_FAULT 0x050A)
and retire, each with its answer 0; a failed half leaves its reset by any of them, and stays held out where it is held out; a
retired half
refuses all of them with 0xA201, a half that restarts refuses a restart, and one in service a return; and the derates
written
1 are cleared with their counters, in the repair record too; outside a session of the channel, each at once. It also rests on
log entry 72. -/
def Claim.HalfControl : Prop :=
  ∀ (t : Nat) (ch : Channel) (h : Half) (mask : BitVec 64) (s0 : State),
    let s := s0.advance t
    let i := indexOf h 0x5000
    let st := (s.half h).isl.halfState
    (Acts s ch i 2 [2] → st ≠ 6 → st ≠ 7 →
      exec (.halfCtlHoldOut t ch h) s0 = .next (wrote (s.holdOut h) ch i 2 0) ∧
      ((s.holdOut h).half h).isl.halfState = 5 ∧ ((s.holdOut h).half h).isl.withholding = true ∧
      ((s.holdOut h).half h).isl.paired = false) ∧
    (Acts s ch i 2 [1] → st = 5 → (s.half h).isl.unconfigured = false →
      exec (.halfCtlReturn t ch h) s0 = .next (wrote (s.returnToService h) ch i 2 0)) ∧
    (Acts s ch i 2 [1] → st = 6 → exec (.halfCtlReturn t ch h) s0 =
      .next (wrote (s.modIsl h (fun i => { i with halfState := 4, restartTimes := [] })) ch i 2 0)) ∧
    (Acts s ch i 2 [2] → st = 6 → ∃ u : State, u = s.modIsl h (fun i => { i with halfState := 4, restartTimes := [] }) ∧
      exec (.halfCtlHoldOut t ch h) s0 = .next (wrote (u.holdOut h) ch i 2 0) ∧
      ((u.holdOut h).half h).isl.halfState = 5 ∧ ((u.holdOut h).half h).isl.withholding = true ∧
      ((u.holdOut h).half h).isl.restartTimes = []) ∧
    (Acts s ch i 2 [1] → st = 4 → exec (.halfCtlReturn t ch h) s0 = .next (wrote s ch i 2 0)) ∧
    (Acts s ch i 2 [1] → (st < 4 ∨ (st = 5 ∧ (s.half h).isl.unconfigured = true)) →
      exec (.halfCtlReturn t ch h) s0 = .next (wrote s ch i 2 0xA201)) ∧
    ((s.half h).isl.readyAt.isSome = true → (s.half h).isl.fenced = false →
      ((s.returnToService h).half h).isl.halfState = 2) ∧
    ((s.half h).isl.readyAt = none →
      let lost := (s.half h).boot.phase = 5 ∧ (s.half h).isl.fenced = false ∧ (s.half h).isl.snapshot.good = false
      ((s.returnToService h).half h).isl.halfState =
        (if lost then 5 else if (s.half h).boot.phase = 5 ∨ (s.half h).isl.fenced = true then 4 else 1) ∧
      (((s.returnToService h).half h).isl.unconfigured = true ↔ lost)) ∧
    (Acts s ch i 2 [3] → st = 4 → exec (.halfCtlRestart t ch h) s0 = .next (wrote s ch i 2 0xA201)) ∧
    (Acts s ch i 2 [3] → st = 6 → exec (.halfCtlRestart t ch h) s0 = .next (wrote
      ((s.modIsl h (fun i => { i with halfState := 4, restartTimes := [] })).halfFault h { code := 0x050A, unit := 12 })
      ch i 2 0)) ∧
    (Acts s ch i 2 [3] → st ≠ 4 → st ≠ 6 → st ≠ 7 →
      exec (.halfCtlRestart t ch h) s0 = .next (wrote (s.halfFault h { code := 0x050A, unit := 12 }) ch i 2 0)) ∧
    (Acts s ch i 2 [4] → st ≠ 7 → exec (.halfCtlRetire t ch h) s0 =
      .next (wrote ((s.modHalf h (HalfState.fence s.now)).modIsl h (fun i => { i with halfState := 7, faultN := false }))
        ch i 2 0)) ∧
    (st = 7 →
      (Acts s ch i 2 [1] → exec (.halfCtlReturn t ch h) s0 = .next (wrote s ch i 2 0xA201)) ∧
      (Acts s ch i 2 [2] → exec (.halfCtlHoldOut t ch h) s0 = .next (wrote s ch i 2 0xA201)) ∧
      (Acts s ch i 2 [3] → exec (.halfCtlRestart t ch h) s0 = .next (wrote s ch i 2 0xA201)) ∧
      (Acts s ch i 2 [4] → exec (.halfCtlRetire t ch h) s0 = .next (wrote s ch i 2 0xA201))) ∧
    (Acts s ch i 0x31 (toLe 8 mask.toNat) →
      exec (.derateClear t ch h mask) s0 = .next (wrote (s.derateClear h mask.toNat) ch i 0x31 0) ∧
      (∀ n, n < 64 → flag ((s.derateClear h mask.toNat).half h).isl.derate n =
        (flag (s.half h).isl.derate n && !(flag mask.toNat n))) ∧
      ((s.derateClear h mask.toNat).half h).isl.repair.derate = ((s.derateClear h mask.toNat).half h).isl.derate ∧
      ((s.derateClear h mask.toNat).half h).isl.repair.derateEvents = ((s.derateClear h mask.toNat).half h).isl.derateEvents)

/-- POWER_CTL (R421, R422): from Run or Degraded, SHUTDOWN and SHUTDOWN_BIST take both halves into Shutdown-test; in
Boot or
Off they are refused with 0xA201, and in Shutdown-test they are ignored; RESTART takes a device in Shutdown-test back
through
Boot, and is refused elsewhere. Each half is judged by its own supply and reference. It also rests on log entry 73. -/
def Claim.PowerControl : Prop :=
  ∀ (t : Nat) (ch : Channel) (vin ppm : Nat × Nat) (s0 : State),
    let s := s0.advance t
    let p := s.powerState
    let answer := fun (v : State) (code : Nat) => (Host.Outcome.next (wrote v ch 0x6000 1 code) :
      Host.Outcome State Fault Refusal)
    ((p = .run ∨ p = .degraded) →
      (Acts s ch 0x6000 1 [3] → ∀ v m,
        exec (.shutdown t ch) s0 = answer ((s.shutHalf false v m .a).shutHalf false v m .b) 0) ∧
      (Acts s ch 0x6000 1 [2] →
        exec (.shutdownBist t ch vin ppm) s0 = answer ((s.shutHalf true vin.1 ppm.1 .a).shutHalf true vin.2 ppm.2 .b) 0) ∧
      (Acts s ch 0x6000 1 [4] → exec (.restart t ch) s0 = answer s 0xA201)) ∧
    ((p = .testing ∨ p = .testDone) →
      (Acts s ch 0x6000 1 [4] → exec (.restart t ch) s0 =
        answer (if s.supplied .b then (s.enterBoot .a).enterBoot .b else s.enterBoot .a) 0) ∧
      (Acts s ch 0x6000 1 [3] → exec (.shutdown t ch) s0 = answer s 0) ∧
      (Acts s ch 0x6000 1 [2] → exec (.shutdownBist t ch vin ppm) s0 = answer s 0)) ∧
    ((p = .boot ∨ p = .off) →
      (Acts s ch 0x6000 1 [3] → exec (.shutdown t ch) s0 = answer s 0xA201) ∧
      (Acts s ch 0x6000 1 [2] → exec (.shutdownBist t ch vin ppm) s0 = answer s 0xA201) ∧
      (Acts s ch 0x6000 1 [4] → exec (.restart t ch) s0 = answer s 0xA201))

/-- What Shutdown-test and the restart through Boot do to a half (R400, R421 to R423): its teardown waits for the
next slot
boundary, its frame-sync outputs are low, BIST runs where it was asked for and the supply and the clock allow it, and
where it
does not LAST_BIST says why; a half that enters Boot is at its first stage. It also rests on log entry 73. -/
def Claim.ShutdownEffects : Prop :=
  ∀ (s : State) (h : Half) (bist : Bool) (vin ppm : Nat),
    let x := s.half h
    let y := (s.shutHalf bist vin ppm h).half h
    let skip := x.bistSkip vin ppm
    (s.supplied h = false → s.shutHalf bist vin ppm h = s) ∧
    (s.supplied h = true →
      y.disp.shutdownPending = true ∧ (∀ p ∈ y.hzn.fsync, p.2.driven = false) ∧
      y.zen.bistRunning = (bist && skip == 0) ∧
      y.zen.power = (if (bist = true ∧ skip = 0) ∨ s.live h = true then .testing else .testDone) ∧
      (bist = true → skip ≠ 0 → y.zen.lastBist = skip ∧ y.isl.logCount = (x.isl.logCount + 1) % 65536) ∧
      (bist = false → y.zen.lastBist = x.zen.lastBist ∧ y.isl.logCount = x.isl.logCount) ∧
      (y.zen.power = .testDone → y.zen.regsOn = false ∧
        ∀ a, inRange (poolBase h) poolBytes a = true → (undefAt (s.shutHalf bist vin ppm h).undef a).isSome = true) ∧
      (s.shutHalf bist vin ppm h).half (otherHalf h) = s.half (otherHalf h) ∧
      (s.shutHalf bist vin ppm h).mem = s.mem) ∧
    ((s.enterBoot h).half h).boot.stage = 0 ∧ ((s.enterBoot h).half h).zen.power = .boot ∧
    (s.enterBoot h).half (otherHalf h) = s.half (otherHalf h) ∧ (s.enterBoot h).mem = s.mem

/-- The commands of HALF_CTL, DERATE_CLEAR and POWER_CTL. -/
def Obligations.HalfAndPowerControl : Prop := Claim.HalfControl ∧ Claim.PowerControl ∧ Claim.ShutdownEffects

/-- Edit sessions (R445 to R450): OPEN takes a session no one holds, and 0xA004 answers where one is held; ARM and
DISARM are
staged in it, in index order, up to its 256 entries; COMMIT by the holder of a set that breaks no condition commits
it whole,
with RESULT 0, and a set that breaks one, or that arms images which fail a check, is refused whole with 0xA204, the second
with its ARM_ERROR; DISCARD drops what is staged, and both are refused where the session is another's; a session with
no write
for 1 s expires, and not before. It also rests on log entries 3, 65, 68 and 69. -/
def Claim.SessionsOpenAndClose : Prop :=
  ∀ (t : Nat) (ch : Channel) (h : Half) (s0 : State),
    let s := s0.advance t
    let x := (s.half h).session
    let i := indexOf h 0x1F00
    let g := indexOf h 0x4000
    let u := Noted s ch i
    let put := fun (v : Byte) => stageIn (0x4000, 3, [v]) x.staged
    (Admits s ch i 1 [1] → x.state ≠ 1 → (s.half h).down = false → exec (.openSession t ch h) s0 =
      .next (wrote (s.modSession h (fun x => { x with state := 1, holder := codeOf ch, staged := [], lastWrite := s.now }))
        ch i 1 0)) ∧
    (Admits s ch i 1 [1] → x.state = 1 → exec (.openSession t ch h) s0 = .next (wrote u ch i 1 0xA004)) ∧
    (Admits s ch i 1 [1] → x.state ≠ 1 → (s.half h).down = true →
      exec (.openSession t ch h) s0 = .next (wrote u ch i 1 0xA205)) ∧
    (s.holds ch h = true →
      (Admits s ch g 3 [1] → (put 1).length ≤ 256 → stagedBytes (put 1) ≤ 65536 → exec (.arm t ch h) s0 =
        .next (wrote (s.modSession h (fun x => { x with lastWrite := s.now, staged := put 1 })) ch g 3 0)) ∧
      (Admits s ch g 3 [2] → (put 2).length ≤ 256 → stagedBytes (put 2) ≤ 65536 → exec (.disarm t ch h) s0 =
        .next (wrote (s.modSession h (fun x => { x with lastWrite := s.now, staged := put 2 })) ch g 3 0)) ∧
      (Admits s ch g 3 [1] → (256 < (put 1).length ∨ 65536 < stagedBytes (put 1)) → exec (.arm t ch h) s0 =
        .next (wrote (Noted s ch g) ch g 3 0xA101)) ∧
      (Admits s ch g 3 [2] → (256 < (put 2).length ∨ 65536 < stagedBytes (put 2)) → exec (.disarm t ch h) s0 =
        .next (wrote (Noted s ch g) ch g 3 0xA101)) ∧
      (Admits s ch i 2 [1] → (s.half h).down = true → exec (.commit t ch h) s0 =
        .next (wrote (u.modSession h (fun x => { x with state := 0, holder := 0xFF, staged := [] })) ch i 2 0xA205)) ∧
      (Admits s ch i 2 [1] → (s.half h).down = false → u.commitArmError (u.putAll h x.staged) h x.staged ≠ 0 →
        exec (.commit t ch h) s0 = .next (wrote ((u.modDisp h (fun d => { d with
          armError := u.commitArmError (u.putAll h x.staged) h x.staged })).modSession h (fun x => { x with
          state := 4, holder := 0xFF, staged := [], result := 0xA204 })) ch i 2 0xA204)) ∧
      (Admits s ch i 3 [1] → (s.half h).down = false → exec (.discard t ch h) s0 =
        .next (wrote (u.modSession h (fun x => { x with state := 0, holder := 0xFF, staged := [] })) ch i 3 0)) ∧
      (Admits s ch i 2 [1] → (s.half h).down = false → u.commitBad (u.putAll h x.staged) h x.staged = false →
        u.commitArmError (u.putAll h x.staged) h x.staged = 0 → exec (.commit t ch h) s0 =
        .next (wrote (u.modSession h (fun x => { x with
          state := 2, holder := 0xFF, staged := [], result := 0
          committedAt := if x.committedAt < s.now then s.now else x.committedAt
          committed := if x.committedAt < s.now then joinSets x.committed x.newest else x.committed
          newest := if x.committedAt < s.now then x.staged else joinSets x.newest x.staged })) ch i 2 0)) ∧
      (Admits s ch i 2 [1] → (s.half h).down = false → u.commitBad (u.putAll h x.staged) h x.staged = true →
        u.commitArmError (u.putAll h x.staged) h x.staged = 0 → exec (.commit t ch h) s0 =
          .next (wrote (u.modSession h (fun x => { x with
          state := 4, holder := 0xFF, staged := [], result := 0xA204 })) ch i 2 0xA204))) ∧
    (s.holds ch h = false →
      (Admits s ch i 2 [1] → exec (.commit t ch h) s0 =
        .next (wrote s ch i 2 (if (s.half h).down = true then 0xA205 else 0xA203))) ∧
      (Admits s ch i 3 [1] → exec (.discard t ch h) s0 =
        .next (wrote s ch i 3 (if (s.half h).down = true then 0xA205 else 0xA203)))) ∧
    (x.state ≠ 1 → exec (.sessionExpire t h) s0 = .next s) ∧
    (s.supplied h = true → x.state = 1 → x.lastWrite + 1000000000 ≤ s.now → exec (.sessionExpire t h) s0 =
      .next (s.modSession h (fun x => { x with state := 5, holder := 0xFF, staged := [] }))) ∧
    (s.now < x.lastWrite + 1000000000 → exec (.sessionExpire t h) s0 = .next s)

/-- The rows that write a WO entry other than a session's, with the entry and the value each writes. -/
def commandRow : Instr → Option (Nat × Channel × Nat × Nat × List Byte)
  | .halfCtlReturn t ch h => some (t, ch, indexOf h 0x5000, 2, [1])
  | .halfCtlHoldOut t ch h => some (t, ch, indexOf h 0x5000, 2, [2])
  | .halfCtlRestart t ch h => some (t, ch, indexOf h 0x5000, 2, [3])
  | .halfCtlRetire t ch h => some (t, ch, indexOf h 0x5000, 2, [4])
  | .derateClear t ch h mask => some (t, ch, indexOf h 0x5000, 0x31, toLe 8 mask.toNat)
  | .shutdownBist t ch _ _ => some (t, ch, 0x6000, 1, [2])
  | .shutdown t ch => some (t, ch, 0x6000, 1, [3])
  | .restart t ch => some (t, ch, 0x6000, 1, [4])
  | .clear t ch h ctx => some (t, ch, indexOf h (0x8000 + ctx), 4, [1])
  | .rollbackCommit t ch type => some (t, ch, 0x9001, 3, toLe 1 type)
  | .keyProgram t ch slot hash => some (t, ch, 0x9002, 2, toLe 1 slot ++ hash)
  | .revokeKey t ch slot => some (t, ch, 0x9002, 3, toLe 1 slot)
  | .attestNonce t ch nonce => some (t, ch, 0x9004, 1, nonce)
  | .updateImage t ch image => some (t, ch, 0x9006, 1, image)
  | _ => none

/-- A command written by a session's holder (R446, R449): it is staged and has no effect yet, or, where it would be refused now,
is refused with that code and not staged, and so it is where the session is full. That commands wait for the release is log
entry 67. -/
def Claim.HolderStagesCommands : Prop :=
  ∀ (i : Instr) (t : Nat) (ch : Channel) (index sub : Nat) (data : List Byte) (s0 : State),
    let s := s0.advance t
    let h := s.answerer index
    let u := Noted s ch index
    let code := (u.command' h (entryIndex index) sub data).2
    let l := stageIn (entryIndex index, sub, data) (s.half h).session.staged
    commandRow i = some (t, ch, index, sub, data) → actsAtOnce (entryIndex index) sub = true →
    Admits s ch index sub data → s.holds ch h = true →
    (code ≠ 0 → exec i s0 = .next (wrote u ch index sub code)) ∧
    (code = 0 → l.length ≤ 256 → stagedBytes l ≤ 65536 →
      exec i s0 = .next (wrote (u.modSession h (fun x => { x with staged := l })) ch index sub 0)) ∧
    (code = 0 → (256 < l.length ∨ 65536 < stagedBytes l) → exec i s0 = .next (wrote u ch index sub 0xA101))

/-- The index order of a set (R449). -/
def InIndexOrder (l : List Staged) : Prop :=
  l.Pairwise (fun e f => e.1 * 256 + e.2.1 < f.1 * 256 + f.2.1) ∧ ∀ e ∈ l, e.2.1 < 256

/-- A staged value takes its place in index order, replaces one of its entry, and leaves every other (R446, R449). -/
def Claim.StagingKeepsOrder : Prop :=
  ∀ (e : Staged) (l : List Staged), e.2.1 < 256 → InIndexOrder l →
    InIndexOrder (stageIn e l) ∧
    ∀ f, f ∈ stageIn e l ↔ f = e ∨ (f ∈ l ∧ (f.1, f.2.1) ≠ (e.1, e.2.1))

/-- The release of a set (R449, R470): a boundary releases what was committed before it, not what is committed in its own cycle;
the values are written, the blocks concerned apply, and then the set's commands act (log entry 67), each in index order. With
nothing due, nothing happens. It also rests on log entry 70. -/
def Claim.SetsAreReleased : Prop :=
  ∀ (s : State) (h : Half),
    let x := (s.half h).session
    let l := x.due s.now
    (x.committedAt < s.now → l = joinSets x.committed x.newest) ∧ (x.committedAt = s.now → l = x.committed) ∧
    (InIndexOrder x.committed → InIndexOrder x.newest → InIndexOrder l) ∧
    (l = [] → s.releaseSession h = s) ∧
    (l ≠ [] → ∃ v : State, s.releaseSession h = v.actAll h l ∧ (v.half h).session.committed = [] ∧ v.now = s.now ∧
      ∀ e ∈ l, e ∈ (v.half h).session.released) ∧
    ((∀ e ∈ l, actsAtOnce e.1 e.2.1 = false) → s.actAll h l = s)

/-- Edit sessions: their rows, what a holder's commands do, and the release. -/
def Obligations.EditSessions : Prop :=
  Claim.SessionsOpenAndClose ∧ Claim.HolderStagesCommands ∧ Claim.StagingKeepsOrder ∧ Claim.SetsAreReleased

/-- Keys, rollback counters, attestation and updates (R350, R483, R484, R488, R499). A blank slot takes its hash in both
halves, and a programmed one refuses with 0xA201; a slot is revoked only while the other is programmed and not revoked; a
counter rises to its running image's ROLLBACK and never falls; a report is signed over the nonce; a verified image is
being
written, and UPDATE_WRITTEN puts it into its copy; CLEAR zeroes a job's accounts. Keys and counters
are changed only while both halves run, an image only in a half that runs, and one that fails its checks, or for which its
copy has no room (log entry 152), is refused. Outside a session of the channel each acts at once. It also rests on log
entries 3, 19 and 59. -/
def Obligations.SecurityCommands : Prop :=
  ∀ (t : Nat) (ch : Channel) (h : Half) (slot type ctx k c : Nat) (hash nonce image img : List Byte) (s0 : State),
    let s := s0.advance t
    let b := (s.half s.answering).boot
    let burnt : Event := { code := 0x0905, unit := 13, detail := slot }
    (Acts s ch 0x9002 2 (toLe 1 slot ++ hash) → slot ≤ 1 → s.partnerRuns = true →
      (b.slotBlank slot = true → exec (.keyProgram t ch slot hash) s0 = .next (wrote
        ((s.modBoth (fun x => { x with boot := Boot.burnKey s.now slot hash x.boot })).logBoth burnt)
        ch 0x9002 2 0)) ∧
      (b.slotBlank slot = false →
        exec (.keyProgram t ch slot hash) s0 = .next (wrote s ch 0x9002 2 0xA201))) ∧
    (Acts s ch 0x9002 3 (toLe 1 slot) → slot ≤ 1 → s.partnerRuns = true →
      (b.custProgrammed.getD (1 - slot) false = true → b.custRevoked.getD (1 - slot) false = false →
        exec (.revokeKey t ch slot) s0 = .next (wrote ((s.modBoth (fun x =>
          { x with boot := { x.boot with custRevoked := lset x.boot.custRevoked slot true } })).logBoth burnt) ch 0x9002 3 0)) ∧
      (b.custProgrammed.getD (1 - slot) false = false →
        exec (.revokeKey t ch slot) s0 = .next (wrote s ch 0x9002 3 0xA201))) ∧
    (Acts s ch 0x9002 3 (toLe 1 slot) → slot ≤ 1 → s.partnerRuns = true → b.custRevoked.getD (1 - slot) false = true →
      exec (.revokeKey t ch slot) s0 = .next (wrote s ch 0x9002 3 0xA201)) ∧
    (s.partnerRuns = false →
      (Acts s ch 0x9002 2 (toLe 1 slot ++ hash) → slot ≤ 1 →
        exec (.keyProgram t ch slot hash) s0 = .next (wrote s ch 0x9002 2 0xA205)) ∧
      (Acts s ch 0x9002 3 (toLe 1 slot) → slot ≤ 1 →
        exec (.revokeKey t ch slot) s0 = .next (wrote s ch 0x9002 3 0xA205)) ∧
      (Acts s ch 0x9001 3 (toLe 1 type) → 1 ≤ type → type ≤ 7 →
        exec (.rollbackCommit t ch type) s0 = .next (wrote s ch 0x9001 3 0xA205))) ∧
    (Acts s ch 0x9001 3 (toLe 1 type) → 1 ≤ type → type ≤ 7 → s.twoHalves = false →
      exec (.rollbackCommit t ch type) s0 = .next (wrote (s.commitRollback type .a) ch 0x9001 3 0)) ∧
    (nonce.length = 32 → ((s.report nonce).drop 16).take 32 = nonce ∧
      s.report nonce = s.reportBody nonce ++ edSign b.identitySeed (sha512 (s.reportBody nonce))) ∧
    (Acts s ch 0x9001 3 (toLe 1 type) → 1 ≤ type → type ≤ 7 → s.partnerRuns = true → s.twoHalves = true →
      exec (.rollbackCommit t ch type) s0 = .next (wrote
        ((s.commitRollback type .a).commitRollback type .b) ch 0x9001 3 0)) ∧
    (∀ (x : Boot) (m : Measure) (now : Nat), x.measures.find? (fun m => m.type == type) = some m → type - 1 < x.rollback.length →
      (Boot.commitRollback now type x).rollback.getD (type - 1) 0 = max (x.rollback.getD (type - 1) 0) m.rollback) ∧
    (Acts s ch 0x9004 1 nonce → nonce.length = 32 → exec (.attestNonce t ch nonce) s0 = .next (wrote
      (s.modBoot s.answering (fun b => { b with nonce := nonce, report := s.report nonce }))
      ch 0x9004 1 0)) ∧
    (Acts s ch 0x9006 1 image → exec (.updateImage t ch image) s0 = .next (wrote
      (s.updateImage image).1 ch 0x9006 1 (s.updateImage image).2)) ∧
    (Acts s ch 0x9006 1 image → s.running .a = true → s.running .b = false → 1 ≤ imgType image → imgType image ≤ 7 →
      s.verify .a (imgType image) image = 0 →
      ((s.half .a).boot.region ((s.half .a).boot.updateCopy (imgType image))).place (imgType image) image.length ≠ none →
      exec (.updateImage t ch image) s0 = .next (wrote
        (s.modBoot .a (fun b => { b with
          updateStatus := 1, updating := some (imgType image, b.updateCopy (imgType image), image) })) ch 0x9006 1 0)) ∧
    (Acts s ch 0x9006 1 image → s.running .a = false → s.running .b = false →
      exec (.updateImage t ch image) s0 = .next (wrote s ch 0x9006 1 0xA205)) ∧
    (Acts s ch 0x9006 1 image → s.running .a = true → s.running .b = false →
      (imgType image < 1 ∨ 7 < imgType image ∨ s.verify .a (imgType image) image ∈ [1, 2, 3, 4, 6] ∨
        (s.verify .a (imgType image) image = 0 ∧
          ((s.half .a).boot.region ((s.half .a).boot.updateCopy (imgType image))).place (imgType image) image.length = none)) →
      exec (.updateImage t ch image) s0 = .next (wrote
        (s.modBoot .a (fun b => { b with updateStatus := 3 })) ch 0x9006 1 0xA101)) ∧
    ((s.half h).boot.updating = none → exec (.updateWritten t h) s0 = .next s) ∧
    (s.supplied h = true → (s.half h).boot.updating = some (k, c, img) →
      ∃ u : State, exec (.updateWritten t h) s0 = .next u ∧ (u.half h).boot.updating = none ∧
        (u.half h).boot.updateStatus = 2 ∧ (c = 0 → (u.half h).boot.flashB = (s.half h).boot.flashB) ∧
        (c ≠ 0 → (u.half h).boot.flashA = (s.half h).boot.flashA) ∧
        (((s.half h).boot.region c).place k img.length ≠ none → (∃ o, (k, o) ∈ ((s.half h).boot.region c).dir ∨
          (0, o) ∈ ((s.half h).boot.region c).dir) → (u.half h).boot.copy k c = img)) ∧
    (Acts s ch (indexOf h (0x8000 + ctx)) 4 [1] → ctx < 256 → exec (.clear t ch h ctx) s0 = .next (wrote
      (s.modJob h ctx (fun j => { j with
        waitSum := 0, waitMax := 0, preemptions := 0, waitingSince := j.waitingSince.map (fun _ => s.now) }))
      ch (indexOf h (0x8000 + ctx)) 4 0))

/-! ### The host ports -/

/-- The SDIO card's commands (R454, R457): CMD0 resets the card; CMD5 answers that it is ready once Half A has reached its
row; CMD3 takes an address of 1 to 65535; CMD7 selects the card by that address alone; CMD11 switches to 1.8 V when
the host
asked for it; CMD15 makes the addressed card inactive, and an inactive card answers nothing; CMD19 sends the tuning
block at
1.8 V; a data phase that has stopped for 1 s ends its transfer, and not before; and the bits of Function 0 that R454 fixes read
so, whatever the host has written (their places are the SD standard's, PRESUMED in log entry 67). It also rests on log
entries 3 and 75. -/
def Claim.SdioCard : Prop :=
  ∀ (t : Nat) (arg : BitVec 32) (s0 : State),
    let s := s0.advance t
    let p := s.sdio
    s.sdioAnswers = true →
    exec (.cmd0 t) s0 = .next (s.modSdio (fun p => { p with
      ocrSeen := false, rca := 0, selected := false, s18r := false, transfer := false, cmdResponse := [] })) ∧
    (∃ u : State, exec (.cmd5 t arg) s0 = .next u ∧ u.sdio.cmdResponse.length = 4 ∧
      flag (leNat u.sdio.cmdResponse) 31 = decide (2 ≤ s.a.boot.sdioLevel) ∧ field (leNat u.sdio.cmdResponse) 30 28 = 2 ∧
      flag (leNat u.sdio.cmdResponse) 24 = (flag arg.toNat 24 && !p.v18) ∧
      u.sdio.ocrSeen = (p.ocrSeen || decide (2 ≤ s.a.boot.sdioLevel)) ∧ u.a = s.a ∧ u.b = s.b ∧ u.mem = s.mem) ∧
    (p.ocrSeen = true → ∃ u : State, exec (.cmd3 t) s0 = .next u ∧ 1 ≤ u.sdio.rca ∧ u.sdio.rca ≤ 65535 ∧
      u.sdio.cmdResponse = toLe 2 u.sdio.rca ∧ u.a = s.a ∧ u.b = s.b ∧ u.mem = s.mem) ∧
    exec (.cmd7 t arg) s0 = .next (s.modSdio (fun p => { p with
      selected := p.rca != 0 && field arg.toNat 31 16 == p.rca, cmdResponse := [] })) ∧
    exec (.cmd11 t) s0 = .next (s.modSdio (fun p => { p with
      v18 := p.v18 || (p.s18r && p.ocrSeen), cmdResponse := [] })) ∧
    (p.rca ≠ 0 → field arg.toNat 31 16 = p.rca →
      ∃ u : State, exec (.cmd15 t arg) s0 = .next u ∧ u.sdioAnswers = false ∧ u.sdio.selected = false) ∧
    (p.selected = true → p.v18 = true →
      exec (.cmd19 t) s0 = .next (s.modSdio (fun p => { p with cmdResponse := tuningBlock }))) ∧
    ((p.selected = false ∨ p.v18 = false) → exec (.cmd19 t) s0 = .next s) ∧ (p.ocrSeen = false →
    exec (.cmd3 t) s0 = .next s) ∧
    ((p.rca = 0 ∨ field arg.toNat 31 16 ≠ p.rca) → exec (.cmd15 t arg) s0 = .next s) ∧
    (p.stoppedAt + 1000000000 ≤ s.now →
      exec (.sdioDataTimeout t) s0 = .next (s.modSdio (fun p => { p with transfer := false }))) ∧
    (s.now < p.stoppedAt + 1000000000 → exec (.sdioDataTimeout t) s0 = .next s) ∧
    (∀ a, a ≠ 5 → (a < cisTuple ∨ cisTuple + 6 ≤ a) → (s.cccrByte a).toNat &&& (cardBits a).1 = (cardBits a).2) ∧
    (∀ k, k < 6 → s.cccrByte (cisTuple + k) = manufacturerTuple.getD k 0) ∧
    (s.cccrByte 5).toNat = 2 * bitOf p.rspReady

/-- A port that does not answer (R454, R467): Half A has not reached its row, or CMD15 has made the card inactive. No
command has an effect. It also rests on log entry 3. -/
def Claim.SdioSilent : Prop :=
  ∀ (t f : Nat) (v : Byte) (arg : BitVec 32) (data : List Byte) (s0 : State),
    let s := s0.advance t
    s.sdioAnswers = false →
    exec (.cmd0 t) s0 = .next s ∧ exec (.cmd5 t arg) s0 = .next s ∧ exec (.cmd3 t) s0 = .next s ∧
    exec (.cmd7 t arg) s0 = .next s ∧ exec (.cmd11 t) s0 = .next s ∧ exec (.cmd15 t arg) s0 = .next s ∧
    exec (.cmd19 t) s0 = .next s ∧ exec (.cmd52 t arg) s0 = .next s ∧ exec (.cmd53 t arg data) s0 = .next s ∧
    exec (.doorbell t v) s0 = .next s ∧ exec (.rspRead t) s0 = .next s ∧ exec (.ioAbort t f) s0 = .next s ∧
    exec (.sdioDataTimeout t) s0 = .next s

/-- The mailbox and Function 2 (R455 to R457) of a card that is ready: DOORBELL bit 0 submits the 256 bytes of REQ, and no
other bit does anything; RSP_READ clears RSP_READY alone; IO_ABORT ends a function's transfer; CMD52 writes or reads
one byte;
a whole CMD53 write in the memory window stores its bytes where the host access is admitted and nothing holds it, and waits
behind the scrub of a bank, its port's tokens and level and its earlier writes (R185, R292, R293; that Function 2 takes the host's
port is log entry 143); one that is not admitted stores nothing and sets F2_STATUS.ERROR; a read answers the bytes there, once its
port lets it; a write whose data stop early leaves its transfer open. It also rests on log entries 3, 76 and 77. -/
def Claim.SdioMailbox : Prop :=
  ∀ (t f n : Nat) (v : Byte) (arg : BitVec 32) (data : List Byte) (s0 : State),
    let s := s0.advance t
    let w := arg.toNat
    let s1 := s.modSdio (fun p => { p with respFlags := 0, cmdResponse := [] })
    let a := s.sdio.f2Base + field w 25 9
    s.sdioAnswers = true → s.sdioReady = true → Memory.wf s.mem = true →
    (flag v.toNat 0 = true → exec (.doorbell t v) s0 = .next ((s.modSdio (fun p => { p with busy := true })).rawRequest
      .sdio ((s.sdio.req ++ List.replicate 256 0).take 256))) ∧
    (flag v.toNat 0 = false → exec (.doorbell t v) s0 = .next s) ∧
    exec (.rspRead t) s0 = .next (s.modSdio (fun p => { p with rspReady := false })) ∧
    ((f = 1 ∨ f = 2) → exec (.ioAbort t f) s0 = .next (s.modSdio (fun p => { p with transfer := false }))) ∧
    (flag w 31 = true → flag w 27 = false → exec (.cmd52 t arg) s0 = .next
      ((s1.ioWrite (field w 30 28) (field w 25 9) (BitVec.ofNat 8 (field w 7 0))).modSdio (fun p =>
        { p with cmdResponse := [BitVec.ofNat 8 (field w 7 0)] }))) ∧
    (flag w 31 = true → flag w 27 = true → exec (.cmd52 t arg) s0 = .next
      (let x := (s1.ioWrite (field w 30 28) (field w 25 9) (BitVec.ofNat 8 (field w 7 0))).ioRead (field w 30 28)
        (field w 25 9)
       x.1.modSdio (fun p => { p with cmdResponse := [x.2] }))) ∧
    (flag w 31 = false → (field w 30 28 ≠ 2 ∨ s.f2Waits (field w 25 9) 1 = false) → exec (.cmd52 t arg) s0 = .next
      ((s1.ioRead (field w 30 28) (field w 25 9)).1.modSdio (fun p =>
        { p with cmdResponse := [(s1.ioRead (field w 30 28) (field w 25 9)).2] }))) ∧
    (flag w 31 = false → field w 30 28 = 2 → s.f2Waits (field w 25 9) 1 = true → exec (.cmd52 t arg) s0 = .next s) ∧
    (field w 30 28 = 2 → flag w 26 = true → s.cmd53Bytes 2 w = n → 0 < n → s.f2Served = true → s.sdio.f2Mode = 0 →
      field w 25 9 + n ≤ 65536 →
      (flag w 31 = true → data.length = n → s.hostCheck (!s.sdioWorld) true { base := a, len := n } = .ok →
        s.waitsIn (.host (!s.sdioWorld) a data) = none → ∃ u : State, exec (.cmd53 t arg data) s0 = .next u ∧
        (∀ k, k < n → u.readByte (a + k) = data.getD k 0) ∧
          (∀ b, b < a ∨ a + n ≤ b → u.readByte b = s.readByte b) ∧ u.sdio.transfer = false ∧ u.sdio.respFlags = 0) ∧
      (flag w 31 = false → s.hostCheck (!s.sdioWorld) false { base := a, len := n } = .ok →
        (s.readWaits (!s.sdioWorld) { base := a, len := n } = false →
          exec (.cmd53 t arg data) s0 = .next ((s1.hostUse { base := a, len := n }).modSdio (fun p =>
            { p with cmdResponse := s.readBytes a n, transfer := false }))) ∧
        (s.readWaits (!s.sdioWorld) { base := a, len := n } = true → exec (.cmd53 t arg data) s0 = .next s)) ∧
      (∀ k, flag w 31 = true → data.length = n → s.hostCheck (!s.sdioWorld) true { base := a, len := n } = .ok →
        s.waitsIn (.host (!s.sdioWorld) a data) = some k → exec (.cmd53 t arg data) s0 =
          .next ((s1.hold k (.host (!s.sdioWorld) a data)).modSdio (fun p => { p with transfer := false, stoppedAt := s.now }))) ∧
      (flag w 31 = true → data.length = n → s.hostCheck (!s.sdioWorld) true { base := a, len := n } ≠ .ok →
        ∃ u : State, exec (.cmd53 t arg data) s0 = .next u ∧ u.mem = s.mem ∧ u.sdio.f2Error = true ∧
          u.sdio.respFlags = 1) ∧
      (flag w 31 = true → data.length < n → ∃ u : State, exec (.cmd53 t arg data) s0 = .next u ∧ u.sdio.transfer = true ∧
        u.sdio.stoppedAt = s.now)) ∧
    ((s.cmd53Bytes (field w 30 28) w = 0 ∨ 2 < field w 30 28) → exec (.cmd53 t arg data) s0 =
      .next (s1.modSdio (fun p => { p with respFlags := 1 })))

/-- The SDIO port. -/
def Obligations.SdioPort : Prop := Claim.SdioCard ∧ Claim.SdioSilent ∧ Claim.SdioMailbox

/-- The CAN FD controllers (R458 to R461): an FD frame with the request identifier and 16 bytes or more is a request, any
other frame does nothing; the oldest emergency message is sent with the next EMCY_SEQ and leaves the queue; bus-off counts
and stops the traffic until it recovers; a controller with new settings rejoins, and any other does not. It also rests on log
entries 3 and 74. -/
def Claim.CanTraffic : Prop :=
  ∀ (t : Nat) (h : Half) (id : Nat) (fd : Bool) (data m : List Byte) (r : List (List Byte)) (s0 : State),
    let s := s0.advance t
    let c := (s.half h).can
    (s.channelOpen (.can h) = true →
      (fd = true → id = c.reqId → 16 ≤ data.length →
        exec (.canRequest t h id fd data) s0 = .next (s.rawRequest (.can h) data)) ∧
      ((fd = false ∨ id ≠ c.reqId ∨ data.length < 16) → exec (.canRequest t h id fd data) s0 = .next s) ∧
      (c.emcyQueue = m :: r → ∃ (u : State) (pad : List Byte), exec (.emcySend t h) s0 = .next u ∧
        (u.half h).can.emcyQueue = r ∧ (u.half h).can.emcySeq = (c.emcySeq + 1) % 256 ∧ (u.half h).can.lostFlag = false ∧
        (u.half h).can.txFrames = (c.emcyId, emcyFrame c.emcySeq c.lostFlag m ++ pad) :: c.txFrames ∧
        (u.half h).isl = (s.half h).isl ∧ u.mem = s.mem) ∧
      (c.emcyQueue = [] → exec (.emcySend t h) s0 = .next s) ∧
      exec (.busOff t h) s0 = .next (s.modCan h (fun c => { c with
        busOff := true, busOffCount := min 0xFFFF (c.busOffCount + 1) }))) ∧
    (s.supplied h = true → exec (.busOffRecovery t h) s0 = .next (s.modCan h (fun c => { c with busOff := false }))) ∧
    (s.supplied h = true → c.rejoinAt.isSome = true → ∃ u : State, exec (.canRejoin t h) s0 = .next u ∧
      (u.half h).can.onBus = true ∧ (u.half h).can.rejoinAt = none ∧ (u.half h).disp = (s.half h).disp ∧ u.mem = s.mem) ∧
    (c.rejoinAt = none → exec (.canRejoin t h) s0 = .next s) ∧
    ((c.busOff = true ∨ c.onBus = false) → exec (.emcySend t h) s0 = .next s ∧
    exec (.canRequest t h id fd data) s0 = .next s)

/-- A full queue of emergency messages (R461): it never holds more than 16, one that finds no place is counted, and a
class 5 or 6 message takes the place of the oldest class 7 one, or is itself dropped where there is none; a frame has LOST
set exactly where a message was dropped since the one before it. -/
def Claim.EmergencyQueue : Prop :=
  ∀ (half : Nat) (e : Event) (st : Bool) (entry : List Byte) (c : Can), c.emcyQueue.length ≤ 16 →
    let d := queueEmcy half e st entry c
    d.emcyQueue.length ≤ 16 ∧
    (c.emcyQueue.length < 16 → d.emcyQueue.take c.emcyQueue.length = c.emcyQueue ∧
      d.emcyQueue.length = c.emcyQueue.length + 1 ∧ d.emcyLost = c.emcyLost) ∧
    (c.emcyQueue.length = 16 → d.emcyLost = min 0xFFFF (c.emcyLost + 1) ∧ d.lostFlag = true ∧
      ((e.cls ≠ 5 ∧ e.cls ≠ 6) → d.emcyQueue = c.emcyQueue) ∧
      ((e.cls = 5 ∨ e.cls = 6) → ∀ (l r : List (List Byte)) (m : List Byte), c.emcyQueue = l ++ m :: r →
        (∀ x ∈ l, leAt x 2 1 ≠ 7) → leAt m 2 1 = 7 →
        ∃ n, d.emcyQueue = l ++ r ++ [n] ∧ n.take 3 = toLe 2 e.code ++ toLe 1 e.cls) ∧
      ((∀ x ∈ c.emcyQueue, leAt x 2 1 ≠ 7) → d.emcyQueue = c.emcyQueue)) ∧
    ∀ (seq : Nat) (lost : Bool) (m : List Byte), 4 ≤ m.length → flag (leAt (emcyFrame seq lost m) 5 1) 1 = lost

/-- The CAN FD controllers, and the queue of emergency messages (R461). -/
def Obligations.CanControllers : Prop := Claim.CanTraffic ∧ Claim.EmergencyQueue

/-- The layout of a fault-log entry (R361): 32 bytes, CODE, CLASS, UNIT, CTX and CMD_TAG in their bits of the first word,
the sheet time in the second, the unit's band, voltage and steps and the partitions' load classes in the third, DETAIL in
the fourth. -/
def Obligations.FaultLogEntryLayout : Prop :=
  ∀ (s : State) (h : Half) (e : Event), e.code < 2 ^ 16 → e.cls < 256 → e.unit < 256 → e.ctx < 256 → e.tag < 2 ^ 16 →
    let l := s.logEntry h e
    let x := s.half h
    let u := s.unit h (if e.unit = 8 ∨ e.unit = 9 then 0 else e.unit)
    l.length = 32 ∧ leAt l 0 8 / 2 ^ 48 = e.code ∧ field (leAt l 0 8) 47 40 = e.cls ∧ field (leAt l 0 8) 39 32 = e.unit ∧
    field (leAt l 0 8) 31 24 = e.ctx ∧ field (leAt l 0 8) 23 8 = e.tag ∧ leAt l 8 8 = s.sheetTime h % 2 ^ 64 ∧
    field (leAt l 0 8) 7 0 = 0 ∧ field (leAt l 16 8) 63 61 = tjBand u.temp16 ∧
    field (leAt l 16 8) 60 48 = (x.zen.rails.getD (railOfUnit e.unit) {}).measured % 2 ^ 13 ∧
    field (leAt l 16 8) 47 44 = u.steps % 16 ∧
    (∀ p, p < 8 → field (leAt l 16 8) (29 + 2 * p) (28 + 2 * p) = x.loadClass p) ∧ field (leAt l 16 8) 27 0 = 0 ∧
    leAt l 24 8 = e.detail % 2 ^ 64 ∧
    tget [] ((s.logOnly h e).half h).isl.log ((s.half h).isl.logCount % 256) = l

/-- The host's accesses over PCIe (R185, R292, R293, R462, R467): a write to BAR0 is dropped and logged; a write of BAR2 that
decodes and is admitted stores its bytes and no other, or waits behind a scrub, its port or its earlier writes, and a read answers
the bytes once its port lets it; one that decodes to nothing or is refused stores nothing and answers no bytes, and a refused
read is a Completer Abort, counted as an uncorrectable error (log entry 150); a write of BAR4 reaches the MSI-X table. It
also rests on log entries 3 and 78. -/
def Claim.BarAccesses : Prop :=
  ∀ (t : Nat) (h k : Half) (off len a : Nat) (data : List Byte) (s0 : State),
    let s := s0.advance t
    let x := s.half h
    let dst : Region := { base := a, len := data.length }
    let src : Region := { base := a, len := len }
    let write := exec (.bar2Write t h off data) s0
    let read := exec (.bar2Read t h off len) s0
    let answered := fun (u : State) (d : Option (List Byte)) => u.modPcie h (fun p => { p with readData := d })
    let missed := s.log h { code := 0x0112, unit := 14, ctx := 0xFF, detail := off }
    Memory.wf s.mem = true → s.live h = true → x.pcie.linkState = 2 →
    exec (.bar0Write t h off data) s0 = .next (s.logUnlisted h .writeRefused { code := 0, unit := 14, detail := off }) ∧
    exec (.msixTableWrite t h off data) s0 = .next (s.modPcie h (fun p => (p.tableBytes off data).signalPending)) ∧
    (x.bar2Served = true → bar2Addr h off = some a →
      (s.hostCheck false true dst = .ok → s.waitsIn (.host false a data) = none →
        ∃ u : State, write = .next u ∧ (∀ k, k < data.length → u.readByte (a + k) = data.getD k 0) ∧
          (∀ b, b < a ∨ a + data.length ≤ b → u.readByte b = s.readByte b) ∧ (u.half h).hzn = x.hzn ∧
          (u.half h).disp = x.disp ∧ (u.half h).isl = x.isl) ∧
      (s.hostCheck false true dst = .ok → s.waitsIn (.host false a data) = some k →
        write = .next (s.hold k (.host false a data)) ∧ (s.hold k (.host false a data)).mem = s.mem) ∧
      (s.hostCheck false true dst ≠ .ok →
        write = .next (s.hostRefuse h (s.refusedAt dst (s.hostCheck false true dst)) (s.hostCheck false true dst)) ∧
          (s.hostRefuse h (s.refusedAt dst (s.hostCheck false true dst)) (s.hostCheck false true dst)).mem = s.mem) ∧
      (s.hostCheck false false src = .ok → s.readWaits false src = false →
        read = .next (answered (s.hostUse src) (some (s.readBytes a len)))) ∧
      (s.readWaits false src = true → read = .next s) ∧
      (s.hostCheck false false src ≠ .ok →
        ∃ u : State, read = .next u ∧ (u.half h).pcie.readData = none ∧
          (u.half h).pcie.aerUncorr = min 0xFFFFFFFF (x.pcie.aerUncorr + 1) ∧ u.mem = s.mem)) ∧
    (x.bar2Served = true → bar2Addr h off = none → write = .next missed ∧ ∃ u : State, read = .next u ∧
      (u.half h).pcie.readData = none ∧ (u.half h).pcie.aerUncorr = min 0xFFFFFFFF (x.pcie.aerUncorr + 1) ∧ u.mem = s.mem) ∧
    (x.bar2Served = false → write = .next s ∧ read = .next (answered s none))

/-- The PCIe link and its configuration space (R462, R463, R465, R466): the link trains once PCIE_PERST_N is deasserted, its
assertion resets the endpoint, and it reaches L0 with its speed and width once the boot region set is in force; a configuration
write reaches Bus Master Enable, the payload size and the MSI-X enable and mask, and identity, class code and the fixed bits of the
BARs read as R462 gives them whatever was written (the header's layout is PRESUMED, log entry 79); a hot reset restores the configuration space and leaves rings, sheets and entries as they are; a link
that is
not in L0 carries no host access. It also rests on log entry 3. -/
def Claim.PcieLink : Prop :=
  ∀ (t : Nat) (h : Half) (off len speed width : Nat) (value : BitVec 32) (data : List Byte) (p : Pcie) (s0 : State),
    let s := s0.advance t
    let x := s.half h
    let set := Pcie.configure off value.toNat p
    (s.live h = true → x.pcie.linkState = 2 → exec (.pcieConfigWrite t h off value) s0 =
      .next ((s.modPcie h (fun p => (Pcie.configure off value.toNat p).signalPending)).flushRings h)) ∧
    (off = 4 → set.busMaster = flag value.toNat 2) ∧ (off ≠ 4 → set.busMaster = p.busMaster) ∧
    (off = Config.devCtlOffset → set.maxPayload = 128 * 2 ^ min 2 (field value.toNat 7 5)) ∧
    (off = Config.msixCtlOffset → set.msixOn = flag value.toNat 31 ∧ set.msixHeld = flag value.toNat 30) ∧
    (s.configWord h 0).toNat = pcieDevice s.part h * 2 ^ 16 + 0x1F9A ∧ (s.configWord h 8).toNat / 256 = 0x120000 ∧
    field (s.configWord h 0x10).toNat 25 0 = 4 ∧ (s.configWord h 0x18).toNat = 0xC ∧ field (s.configWord h 0x1C).toNat 2 0 = 0 ∧
    field (s.configWord h 0x20).toNat 13 0 = 4 ∧
    tget 0#32 set.config off = value ∧ (∀ o, o ≠ off → tget 0#32 set.config o = tget 0#32 p.config o) ∧
    ((s.live h = false ∨ x.pcie.linkState ≠ 2) → exec (.pcieConfigWrite t h off value) s0 = .next s ∧
      exec (.bar0Write t h off data) s0 = .next s ∧ exec (.bar2Write t h off data) s0 = .next s ∧
      exec (.bar2Read t h off len) s0 = .next s ∧ exec (.msixTableWrite t h off data) s0 = .next s) ∧
    (s.supplied h = true →
      exec (.pciePerst t { half := h }) s0 = .next (s.modPcie h (fun p => { p with
        perstN := true, linkState := if p.linkState = 0 then 1 else p.linkState })) ∧
      (∃ u : State, exec (.pciePerst t { half := h, deasserted := false }) s0 = .next u ∧ (u.half h).pcie.perstN = false ∧
        (u.half h).pcie.linkState = 0 ∧ (u.half h).pcie.busMaster = false ∧ (u.half h).pcie.config = [] ∧
        (u.half h).hzn = x.hzn ∧ (u.half h).disp = x.disp ∧ u.mem = s.mem) ∧
      (∃ u : State, exec (.hotReset t h) s0 = .next u ∧ (u.half h).pcie.busMaster = false ∧ (u.half h).pcie.config = [] ∧
        (u.half h).pcie.maxPayload = 128 ∧ (u.half h).pcie.linkState = (if x.pcie.perstN then 1 else 0) ∧
        (u.half h).hzn = x.hzn ∧ (u.half h).disp = x.disp ∧ (u.half h).session = x.session ∧
        (u.half h).boot = x.boot ∧ u.mem = s.mem)) ∧
    (s.live h = true → x.pcie.perstN = true → 4 ≤ x.boot.stage →
      ∃ u : State, exec (.linkUp t h speed width) s0 = .next u ∧ (u.half h).pcie.linkState = 2 ∧
        (u.half h).pcie.linkSpeed = speed ∧ (u.half h).pcie.linkWidth = width ∧ 3 ≤ (u.half h).boot.dictLevel) ∧
    ((x.pcie.perstN = false ∨ x.boot.stage < 4) → exec (.linkUp t h speed width) s0 = .next s)

/-- Pending MSI-X vectors (R462, R463): a vector that may signal is sent once and is no longer pending, and any other stays as it
is; and a message raised while its vector may not signal is noted as pending. Where the enable and mask bits stand is log entry
79. -/
def Claim.PendingVectors : Prop :=
  ∀ (p : Pcie) (v : Nat), v < 32 →
    (p.vectorOpen v = true → flag p.signalPending.msixPending v = false ∧
      (flag p.msixPending v = true → v ∈ p.signalPending.msixSent) ∧ (p.msix v).msixSent = v :: p.msixSent) ∧
    (p.vectorOpen v = false → flag p.signalPending.msixPending v = flag p.msixPending v ∧
      flag (p.msix v).msixPending v = true ∧ (p.msix v).msixSent = p.msixSent) ∧
    ((p.msixOn = false ∨ p.msixHeld = true) → p.signalPending = p)

/-- The PCIe endpoint. -/
def Obligations.PcieEndpoint : Prop := Claim.BarAccesses ∧ Claim.PcieLink ∧ Claim.PendingVectors

/-- REGISTER_WRITE (R12, R13, R315, R453, R472): from the non-secure world it is refused and logged; from the secure
world it
reaches the register of its offset: here a region descriptor, refused once LOCK is in effect; a ring register,
refused while
the ring is enabled; RING_CTL, which disables an enabled ring and whose ENABLE starts a disabled ring's counters again; a
shadowed field, which waits for its block's APPLY; and an offset that holds no register, ignored. It also rests on log
entries 14, 45, 52 and 53. -/
def Obligations.RegisterWrites : Prop :=
  ∀ (t : Nat) (h : Half) (k r off : Nat) (v : BitVec 64) (s0 : State),
    let s := s0.advance t
    s.live h = true →
    exec (.registerWrite t h off v .nonSecure) s0 =
      .next (s.logUnlisted h .writeRefused { code := 0, unit := unitOfOffset off }) ∧
    exec (.registerWrite t h off v .secure) s0 = .next (s.regWrite h off v.toNat) ∧
    (k < 64 → (s.half h).prot.lock = false → s.regWrite h (0x800100 + 32 * k) v.toNat =
      s.modProt h (fun p => { p with staged := tmod {} p.staged k (RegionDesc.put 0 v.toNat) })) ∧
    (k < 64 → (s.half h).prot.lock = true → s.regWrite h (0x800100 + 32 * k) v.toNat =
      s.logUnlisted h .writeRefused { code := 0, unit := 0xFF, detail := 0x800100 + 32 * k }) ∧
    (r < 4 → (s.ring h r).enable = false →
      s.regWrite h (0x402000 + 0x40 * r) v.toNat = s.modRing h r (fun g => { g with base := v.toNat })) ∧
    (r < 4 → (s.ring h r).enable = true → s.regWrite h (0x402000 + 0x40 * r) v.toNat =
      s.logUnlisted h .writeRefused { code := 0, unit := 7, detail := 0x402000 + 0x40 * r }) ∧
    (r < 4 → ((s.ring h r).enable = false ∨ flag v.toNat 31 = false) → s.regWrite h (0x402010 + 0x40 * r) v.toNat =
      s.modRing h r (Ring.control v.toNat)) ∧
    (r < 4 → (s.ring h r).enable = true → flag v.toNat 31 = true → s.regWrite h (0x402010 + 0x40 * r) v.toNat =
      s.logUnlisted h .writeRefused { code := 0, unit := 7, detail := 0x402010 + 0x40 * r }) ∧
    (∀ g : Ring, g.enable = false → flag v.toNat 31 = true → (Ring.control v.toNat g).enable = true ∧
      (Ring.control v.toNat g).producer = 0 ∧ (Ring.control v.toNat g).nextSeq = 0 ∧
      (Ring.control v.toNat g).consumer = 0 ∧ (Ring.control v.toNat g).dropped = 0) ∧
    (∀ g : Ring, flag v.toNat 31 = false → (Ring.control v.toNat g).enable = false ∧
      (Ring.control v.toNat g).producer = g.producer ∧ (Ring.control v.toNat g).nextSeq = g.nextSeq) ∧
    s.regWrite h 0x400008 v.toNat = s.modHzn h (fun z => { z with lineWritten := some (lineCfgOf v.toNat) }) ∧
    s.regWrite h 0x600008 v.toNat = s.modHbm h (fun m => { m with stagedPort := field v.toNat 7 2 * 4 }) ∧
    (0xD00000 ≤ off → s.regWrite h off v.toNat = s)

/-! ### Tally -/

/-- The fare's states (R492, R493): HIRE starts a fare at FLAG_FALL in FOR_HIRE with a tariff; STOP freezes it; CLEAR
frees
the taxi, into SERVICE while the seal is open; in any other state each does nothing; a frame with a bad CRC does
nothing. The
pulses of the tick in which a fare starts go to the odometer alone, and its ticks begin with it. It also rests on log entries
3, 81 and 82. -/
def Claim.FareStates : Prop :=
  ∀ (t : Nat) (x : Tariff) (s0 : State),
    let s := s0.advance t
    let u := s.tally
    s.tallyRuns = true →
    (u.live.state = .forHire → u.tariff = some x → ∃ v : State, exec (.hire t true) s0 = .next v ∧
      v.tally.live.state = .hired ∧ v.tally.live.fare = x.flagFall ∧ v.tally.live.tripM = 0 ∧ v.tally.live.tripTicks = 0 ∧
      v.tally.live.pulsesHired = 0 ∧ v.tally.tickPulses = 0 ∧ v.tally.tickAt = s.now ∧
      v.tally.live.odo = (u.live.odo + (u.live.rem + u.tickPulses * 1000) / x.kPulse) % 2 ^ 64 ∧
      v.tally.journal = v.tally.live ∧ v.a = s.a ∧ v.b = s.b ∧
      v.mem = s.mem) ∧
    ((u.live.state ≠ .forHire ∨ u.tariff = none) → exec (.hire t true) s0 = .next s) ∧
    (u.live.state = .hired → ∃ v : State, exec (.stop t true) s0 = .next v ∧ v.tally.live.state = .stopped ∧
      v.tally.live = { u.live with state := .stopped } ∧ v.tally.journal = v.tally.live) ∧
    (u.live.state ≠ .hired → exec (.stop t true) s0 = .next s) ∧
    (u.live.state = .stopped → ∃ v : State, exec (.clearFare t true) s0 = .next v ∧
      v.tally.live.state = (if u.sealOpen then .service else .forHire) ∧ v.tally.live.interrupted = false ∧
      v.tally.live.odo = u.live.odo ∧ v.tally.journal = v.tally.live) ∧
    (u.live.state ≠ .stopped → exec (.clearFare t true) s0 = .next s) ∧
    exec (.hire t false) s0 = .next s ∧ exec (.stop t false) s0 = .next s ∧ exec (.clearFare t false) s0 = .next s ∧
    exec (.ident t false) s0 = .next s

/-- TALLY_TICK (R494, R495, R497): a tick ends when it has lasted 100 ms, and not before; its pulses go to the
odometer at once, in HIRED the tick is one of distance or of
time by V_SWITCH and the fare follows, in every other state the fare stands; the window shows the state after it, with SEQ
raised by 2. It also rests on log entries 3 and 82. -/
def Claim.TickCharges : Prop :=
  ∀ (t : Nat) (x : Tariff) (s0 : State),
    let s := s0.advance t
    let u := s.tally
    let f := u.live
    s.tallyRuns = true → u.tariff = some x →
    (s.now < u.tickAt + 100000000 → exec (.tallyTick t) s0 = .next s) ∧
    (u.tickAt + 100000000 ≤ s.now →
    ∃ v : State, exec (.tallyTick t) s0 = .next v ∧ v.tally.tickPulses = 0 ∧ v.tally.tickAt = u.tickAt + 100000000 ∧
    v.tally.window = v.tally.words ∧
      v.tally.seq = (u.seq + 2) % 2 ^ 32 ∧
      v.tally.live.odo = (f.odo + (f.rem + u.tickPulses * 1000) / x.kPulse) % 2 ^ 64 ∧
      v.tally.live.rem = (f.rem + u.tickPulses * 1000) % x.kPulse ∧
      (f.state ≠ .hired → v.tally.live.fare = f.fare ∧ v.tally.live.tripM = f.tripM ∧
      v.tally.live.tripTicks = f.tripTicks) ∧
      (f.state = .hired → x.vSwitch * x.kPulse ≤ u.tickPulses * 36000 →
        v.tally.live.fare = x.flagFall + ((f.pulsesDist + u.tickPulses) * x.perKm * 600 + f.ticksTime * x.perMin * x.kPulse) /
          (x.kPulse * 600)) ∧
      (f.state = .hired → u.tickPulses * 36000 < x.vSwitch * x.kPulse →
        v.tally.live.fare = x.flagFall + (f.pulsesDist * x.perKm * 600 + (f.ticksTime + 1) * x.perMin * x.kPulse) /
          (x.kPulse * 600)) ∧
      (f.state = .hired → v.tally.live.tripM = (f.pulsesHired + u.tickPulses) * 1000 / x.kPulse ∧
        v.tally.live.tripTicks = f.tripTicks + 1) ∧
      v.tally.live.state = f.state ∧ v.a = s.a ∧ v.b = s.b ∧ v.mem = s.mem)

/-- Pulses, the seal and the disagreement (R492 to R494): each channel counts its pulses modulo 2^32; a span of 1,000
whose
channels differ by more than 20 puts a fare in FAULT, frozen; an opened seal turns FOR_HIRE and FAULT into SERVICE, and
leaves HIRED and STOPPED as they are; a closed one ends SERVICE, in FOR_HIRE with a tariff and channels that agreed, and
otherwise in FAULT. The channels agreed where channel 1 counted 980 to 1,020 over the last 1,000 channel-0 pulses received in
SERVICE, or no pulse came at all. It also rests on log entries 3, 80 and 81. -/
def Claim.PulsesAndSeal : Prop :=
  ∀ (t : Nat) (s0 : State),
    let s := s0.advance t
    let u := s.tally
    s.tallyRuns = true →
    (∃ v : State, exec (.wheelPulse t 0) s0 = .next v ∧ v.tally.pulses0 = (u.pulses0 + 1) % 2 ^ 32 ∧
      v.tally.pulses1 = u.pulses1 ∧ v.tally.tickPulses = u.tickPulses + 1 ∧ v.tally.live = u.live ∧
      (u.live.state = .service → v.tally.svcSeen = u.svcSeen + 1 ∧ v.tally.svcMarks = (u.svcOnes :: u.svcMarks).take 1001) ∧
      v.tally.svcOnes = u.svcOnes) ∧
    (∃ v : State, exec (.wheelPulse t 1) s0 = .next v ∧ v.tally.pulses1 = (u.pulses1 + 1) % 2 ^ 32 ∧
      v.tally.pulses0 = u.pulses0 ∧ v.tally.tickPulses = u.tickPulses ∧ v.tally.live = u.live ∧
      v.tally.svcOnes = u.svcOnes + bitOf (u.live.state == .service) ∧ v.tally.svcMarks = u.svcMarks) ∧
    (u.span0 = 1000 → (1020 < u.span1 ∨ u.span1 < 980) → u.live.state ≠ .fault → u.live.state ≠ .service →
      ∃ v : State, exec (.pulseDisagreement t) s0 = .next v ∧
        v.tally.live = { u.live with state := .fault, disagree := true } ∧ v.tally.journal = v.tally.live ∧
        v.tally.span0 = 0 ∧ v.tally.span1 = 0) ∧
    ((u.span0 ≠ 1000 ∨ (980 ≤ u.span1 ∧ u.span1 ≤ 1020) ∨ u.live.state = .fault ∨ u.live.state = .service) →
      exec (.pulseDisagreement t) s0 = .next s) ∧
    (∀ n, 2 ≤ n → exec (.wheelPulse t n) s0 = .next s) ∧
    (u.sealOpen = false → exec (.tallySeal t false) s0 = .next s) ∧
    (u.sealOpen = true → u.live.state ≠ .service →
      exec (.tallySeal t false) s0 = .next { s with tally := { u with sealOpen := false } }) ∧
    (u.sealOpen = false → ∃ v : State, exec (.tallySeal t true) s0 = .next v ∧ v.tally.sealOpen = true ∧
      v.tally.live.state = (match u.live.state with
        | .forHire => .service
        | .fault => .service
        | z => z) ∧ v.tally.live.fare = u.live.fare ∧ v.tally.live.odo = u.live.odo) ∧
    (u.sealOpen = true → exec (.tallySeal t true) s0 = .next s) ∧
    (u.sealOpen = true → u.live.state = .service → ∃ v : State, exec (.tallySeal t false) s0 = .next v ∧
      v.tally.sealOpen = false ∧
      v.tally.live.state = (if u.tariff.isSome ∧ ((u.svcSeen = 0 ∧ u.svcOnes = 0) ∨ (1000 ≤ u.svcSeen ∧
          980 + u.svcMarks.getD 1000 0 ≤ u.svcMarks.headD 0 ∧ u.svcMarks.headD 0 ≤ 1020 + u.svcMarks.getD 1000 0)) then .forHire
        else .fault))

/-- Tally's records and supply (R490, R491, R495 to R497): the journal holds what is live; the display frame carries the
window and IDENT the identification; outside SERVICE an image segment changes nothing, and inside it is gathered; a
loss of
VAUX_TALLY zeroes the window, and afterwards no row of Tally's does anything until it powers up, from its journal. It also
rests on log entries 3, 83 and 84. -/
def Claim.TallyRecords : Prop :=
  ∀ (t : Nat) (data : List Byte) (last : Bool) (s0 : State),
    let s := s0.advance t
    let u := s.tally
    (s.tallyRuns = true →
      exec (.tallyJournal t) s0 = .next { s with tally := { u with journal := u.live, journalAt := s.now } } ∧
      exec (.ident t true) s0 = .next { s with tally := { u with sentFrames := tallyFrame 2 u.identText :: u.sentFrames } } ∧
      exec (.tallyFrameSend t) s0 = .next { s with tally := { u with
        sentFrames := tallyFrame 1 (u.window.flatMap (toLe 4)) :: u.sentFrames } } ∧
      exec (.vauxTallyLoss t) s0 = .next { s with tally := { u with powered := false, window := List.replicate 13 0 } } ∧
      (u.live.state ≠ .service → exec (.imageSegment t data last true) s0 = .next s) ∧
      exec (.imageSegment t data last false) s0 = .next s ∧
      (u.live.state = .service → exec (.imageSegment t data false true) s0 =
        .next { s with tally := { u with imageBuf := u.imageBuf ++ data } }) ∧
      (u.live.state = .service → exec (.imageSegment t data true true) s0 = .next { s with
        tally := Tally.takeImage s.part s.now { u with imageBuf := [] } (u.imageBuf ++ data) })) ∧
    (s.part = .fbz2400AT → u.powered = false → ∃ v : State, exec (.tallyPowerUp t) s0 = .next v ∧ v.tally.powered = true ∧
      v.tally.live.odo = u.journal.odo ∧ v.tally.live.fare = u.journal.fare ∧ v.tally.pulses0 = 0 ∧ v.tally.pulses1 = 0 ∧
      v.tally.seq = 0 ∧ v.tally.window = List.replicate 13 0 ∧
      (u.journal.state = .hired → v.tally.live.state = .stopped ∧ v.tally.live.interrupted = true) ∧
      (u.journal.state = .fault → v.tally.live.state = .fault) ∧ v.a = s.a ∧ v.b = s.b) ∧
    (s.tallyRuns = true → exec (.tallyPowerUp t) s0 = .next s) ∧
    (s.tallyRuns = false → exec (.tallyTick t) s0 = .next s ∧ exec (.hire t true) s0 = .next s ∧
      exec (.stop t true) s0 = .next s ∧ exec (.clearFare t true) s0 = .next s ∧ exec (.ident t true) s0 = .next s ∧
      exec (.tallyFrameSend t) s0 = .next s ∧ exec (.imageSegment t data last true) s0 = .next s ∧
      exec (.pulseDisagreement t) s0 = .next s ∧ exec (.vauxTallyLoss t) s0 = .next s ∧
      exec (.tallyJournal t) s0 = .next s ∧ (∀ n, exec (.wheelPulse t n) s0 = .next s)) ∧
    (s.part ≠ .fbz2400AT → ∀ b, exec (.tallySeal t b) s0 = .next s ∧ exec (.tallyPowerUp t) s0 = .next s) ∧
    (s.part = .fbz2400AT → u.powered = false → ∀ b,
      exec (.tallySeal t b) s0 = .next { s with tally := { u with sealOpen := b } })

/-- Tally's rows. -/
def Obligations.TallyRows : Prop := Claim.FareStates ∧ Claim.TickCharges ∧ Claim.PulsesAndSeal ∧ Claim.TallyRecords

/-- Outside HIRED no command but HIRE changes the fare, whatever its operands, while Tally keeps its supply: the fare
shown
stands until the next one starts. -/
def Obligations.FareStandsOutsideHired : Prop :=
  ∀ (i : Instr) (s t : State), s.tallyRuns = true → s.tally.live.state ≠ .hired → (∀ n ok, i ≠ .hire n ok) →
    exec i s = .next t → t.tally.live.fare = s.tally.live.fare

/-- What reset leaves (R5, R171, R258, R259, R316, R349, R400, R433): Half A is in Boot with no sheet, no job, no cue
and no
thread, its regulators at their default, its streams disabled, no region in force, no session open, its queues of commands
and messages empty, and both memories in canonical form. Log entry 10 names the values no rule states. -/
def Obligations.ResetState : Prop :=
  let s := State.reset
  s.pending = [] ∧ s.now = 0 ∧ Claim.ResetMemoriesCanonical ∧
  ∀ h : Half,
    let x := s.half h
    (h = .a → x.zen.power = .boot) ∧ x.boot.stage = 0 ∧ x.disp.sheetState = 0 ∧ x.disp.jobs = [] ∧ x.disp.cues = [] ∧
    x.disp.running = none ∧ x.dolly.threads = [] ∧ (∀ p, p < 8 → x.dolly.regHbm.getD p 0 = 0x040C000000000000#64) ∧
    x.hbm.pciePrio = 3 ∧ x.hbm.hznPrio = 0 ∧ (∀ p, p < 8 → x.link.share.getD p 0 = 64) ∧ x.prot.lock = false ∧
    x.prot.enforce = false ∧ x.prot.regions = [] ∧ x.session.state = 0 ∧ x.isl.fenced = false ∧ x.isl.logCount = 0 ∧
    x.can.emcyQueue = [] ∧ x.link.outbox = [] ∧ x.link.writeQueue = [] ∧ x.dolly.held = [] ∧
    (∀ k, (s.stream h k).cfg.enabled = false ∧ (s.stream h k).cfg.leaderLine = 1) ∧
    (∀ r, (s.ring h r).enable = false) ∧ (∀ c, (s.cue c).counter = 0 ∧ (s.cue c).ceiling = 8 ∧ (s.cue c).waiters = [])
end

