-- ==== Sys2Proof/Laws/State.lean ====
section
/-! SUPPORT. One lemma for each field of State under each update, so that no proof unfolds a record update. -/

namespace Sys2Proof.Machine

open Sys2Proof

/-! ### The halves -/

@[simp] theorem otherHalf_otherHalf (h : Half) : otherHalf (otherHalf h) = h := by cases h <;> rfl
@[simp] theorem otherHalf_ne (h : Half) : otherHalf h ≠ h := by cases h <;> decide
@[simp] theorem ne_otherHalf (h : Half) : h ≠ otherHalf h := by cases h <;> decide
theorem half_a (s : State) : s.half .a = s.a := rfl
theorem half_b (s : State) : s.half .b = s.b := rfl

/-! ### setHalf and modHalf -/

@[simp] theorem setHalf_now (s : State) (h : Half) (x : HalfState) : (s.setHalf h x).now = s.now := by cases h <;> rfl
@[simp] theorem setHalf_part (s : State) (h : Half) (x : HalfState) : (s.setHalf h x).part = s.part := by cases h <;> rfl
@[simp] theorem setHalf_mem (s : State) (h : Half) (x : HalfState) : (s.setHalf h x).mem = s.mem := by cases h <;> rfl
@[simp] theorem setHalf_held (s : State) (h : Half) (x : HalfState) : (s.setHalf h x).held = s.held := by cases h <;> rfl
@[simp] theorem setHalf_undef (s : State) (h : Half) (x : HalfState) : (s.setHalf h x).undef = s.undef := by cases h <;> rfl
@[simp] theorem setHalf_hostMem (s : State) (h : Half) (x : HalfState) : (s.setHalf h x).hostMem = s.hostMem := by cases h <;> rfl
@[simp] theorem setHalf_sdio (s : State) (h : Half) (x : HalfState) : (s.setHalf h x).sdio = s.sdio := by cases h <;> rfl
@[simp] theorem setHalf_tally (s : State) (h : Half) (x : HalfState) : (s.setHalf h x).tally = s.tally := by cases h <;> rfl
@[simp] theorem setHalf_sdioWorld (s : State) (h : Half) (x : HalfState) : (s.setHalf h x).sdioWorld = s.sdioWorld := by cases h <;> rfl
@[simp] theorem setHalf_canAWorld (s : State) (h : Half) (x : HalfState) : (s.setHalf h x).canAWorld = s.canAWorld := by cases h <;> rfl
@[simp] theorem setHalf_canBWorld (s : State) (h : Half) (x : HalfState) : (s.setHalf h x).canBWorld = s.canBWorld := by cases h <;> rfl
@[simp] theorem setHalf_pkgLimit (s : State) (h : Half) (x : HalfState) : (s.setHalf h x).pkgLimit = s.pkgLimit := by cases h <;> rfl
@[simp] theorem setHalf_uniqueId (s : State) (h : Half) (x : HalfState) : (s.setHalf h x).uniqueId = s.uniqueId := by cases h <;> rfl
@[simp] theorem setHalf_free (s : State) (h : Half) (x : HalfState) : (s.setHalf h x).free = s.free := by cases h <;> rfl
@[simp] theorem setHalf_pending (s : State) (h : Half) (x : HalfState) : (s.setHalf h x).pending = s.pending := by cases h <;> rfl
@[simp] theorem modHalf_now (s : State) (h : Half) (f : HalfState → HalfState) : (s.modHalf h f).now = s.now := by cases h <;> rfl
@[simp] theorem modHalf_part (s : State) (h : Half) (f : HalfState → HalfState) : (s.modHalf h f).part = s.part := by cases h <;> rfl
@[simp] theorem modHalf_mem (s : State) (h : Half) (f : HalfState → HalfState) : (s.modHalf h f).mem = s.mem := by cases h <;> rfl
@[simp] theorem modHalf_held (s : State) (h : Half) (f : HalfState → HalfState) : (s.modHalf h f).held = s.held := by cases h <;> rfl
@[simp] theorem modHalf_undef (s : State) (h : Half) (f : HalfState → HalfState) : (s.modHalf h f).undef = s.undef := by cases h <;> rfl
@[simp] theorem modHalf_hostMem (s : State) (h : Half) (f : HalfState → HalfState) : (s.modHalf h f).hostMem = s.hostMem := by cases h <;> rfl
@[simp] theorem modHalf_sdio (s : State) (h : Half) (f : HalfState → HalfState) : (s.modHalf h f).sdio = s.sdio := by cases h <;> rfl
@[simp] theorem modHalf_tally (s : State) (h : Half) (f : HalfState → HalfState) : (s.modHalf h f).tally = s.tally := by cases h <;> rfl
@[simp] theorem modHalf_sdioWorld (s : State) (h : Half) (f : HalfState → HalfState) : (s.modHalf h f).sdioWorld = s.sdioWorld := by cases h <;> rfl
@[simp] theorem modHalf_canAWorld (s : State) (h : Half) (f : HalfState → HalfState) : (s.modHalf h f).canAWorld = s.canAWorld := by cases h <;> rfl
@[simp] theorem modHalf_canBWorld (s : State) (h : Half) (f : HalfState → HalfState) : (s.modHalf h f).canBWorld = s.canBWorld := by cases h <;> rfl
@[simp] theorem modHalf_pkgLimit (s : State) (h : Half) (f : HalfState → HalfState) : (s.modHalf h f).pkgLimit = s.pkgLimit := by cases h <;> rfl
@[simp] theorem modHalf_uniqueId (s : State) (h : Half) (f : HalfState → HalfState) : (s.modHalf h f).uniqueId = s.uniqueId := by cases h <;> rfl
@[simp] theorem modHalf_free (s : State) (h : Half) (f : HalfState → HalfState) : (s.modHalf h f).free = s.free := by cases h <;> rfl
@[simp] theorem modHalf_pending (s : State) (h : Half) (f : HalfState → HalfState) : (s.modHalf h f).pending = s.pending := by cases h <;> rfl
@[simp] theorem setHalf_half (s : State) (h : Half) (x : HalfState) : (s.setHalf h x).half h = x := by cases h <;> rfl
@[simp] theorem setHalf_other (s : State) (h : Half) (x : HalfState) :
    (s.setHalf h x).half (otherHalf h) = s.half (otherHalf h) := by cases h <;> rfl
@[simp] theorem setHalf_of_other (s : State) (h : Half) (x : HalfState) :
    (s.setHalf (otherHalf h) x).half h = s.half h := by cases h <;> rfl
@[simp] theorem modHalf_half (s : State) (h : Half) (f : HalfState → HalfState) : (s.modHalf h f).half h = f (s.half h) := by
  cases h <;> rfl
@[simp] theorem modHalf_other (s : State) (h : Half) (f : HalfState → HalfState) :
    (s.modHalf h f).half (otherHalf h) = s.half (otherHalf h) := by cases h <;> rfl
@[simp] theorem modHalf_of_other (s : State) (h : Half) (f : HalfState → HalfState) :
    (s.modHalf (otherHalf h) f).half h = s.half h := by cases h <;> rfl
theorem modHalf_ne (s : State) {h g : Half} (f : HalfState → HalfState) (hn : g ≠ h) : (s.modHalf h f).half g = s.half g := by
  cases h <;> cases g <;> first | rfl | exact absurd rfl hn

/-! ### modDisp -/

@[simp] theorem modDisp_now (s : State) (h : Half) (f : Disp → Disp) : (s.modDisp h f).now = s.now := by cases h <;> rfl
@[simp] theorem modDisp_part (s : State) (h : Half) (f : Disp → Disp) : (s.modDisp h f).part = s.part := by cases h <;> rfl
@[simp] theorem modDisp_mem (s : State) (h : Half) (f : Disp → Disp) : (s.modDisp h f).mem = s.mem := by cases h <;> rfl
@[simp] theorem modDisp_held (s : State) (h : Half) (f : Disp → Disp) : (s.modDisp h f).held = s.held := by cases h <;> rfl
@[simp] theorem modDisp_undef (s : State) (h : Half) (f : Disp → Disp) : (s.modDisp h f).undef = s.undef := by cases h <;> rfl
@[simp] theorem modDisp_hostMem (s : State) (h : Half) (f : Disp → Disp) : (s.modDisp h f).hostMem = s.hostMem := by cases h <;> rfl
@[simp] theorem modDisp_sdio (s : State) (h : Half) (f : Disp → Disp) : (s.modDisp h f).sdio = s.sdio := by cases h <;> rfl
@[simp] theorem modDisp_tally (s : State) (h : Half) (f : Disp → Disp) : (s.modDisp h f).tally = s.tally := by cases h <;> rfl
@[simp] theorem modDisp_sdioWorld (s : State) (h : Half) (f : Disp → Disp) : (s.modDisp h f).sdioWorld = s.sdioWorld := by cases h <;> rfl
@[simp] theorem modDisp_canAWorld (s : State) (h : Half) (f : Disp → Disp) : (s.modDisp h f).canAWorld = s.canAWorld := by cases h <;> rfl
@[simp] theorem modDisp_canBWorld (s : State) (h : Half) (f : Disp → Disp) : (s.modDisp h f).canBWorld = s.canBWorld := by cases h <;> rfl
@[simp] theorem modDisp_pkgLimit (s : State) (h : Half) (f : Disp → Disp) : (s.modDisp h f).pkgLimit = s.pkgLimit := by cases h <;> rfl
@[simp] theorem modDisp_uniqueId (s : State) (h : Half) (f : Disp → Disp) : (s.modDisp h f).uniqueId = s.uniqueId := by cases h <;> rfl
@[simp] theorem modDisp_free (s : State) (h : Half) (f : Disp → Disp) : (s.modDisp h f).free = s.free := by cases h <;> rfl
@[simp] theorem modDisp_pending (s : State) (h : Half) (f : Disp → Disp) : (s.modDisp h f).pending = s.pending := by cases h <;> rfl
@[simp] theorem modDisp_half_disp (s : State) (h : Half) (f : Disp → Disp) : ((s.modDisp h f).half h).disp = f (s.half h).disp := by
  cases h <;> rfl
@[simp] theorem modDisp_half_dolly (s : State) (h : Half) (f : Disp → Disp) : ((s.modDisp h f).half h).dolly = (s.half h).dolly := by
  cases h <;> rfl
@[simp] theorem modDisp_half_hbm (s : State) (h : Half) (f : Disp → Disp) : ((s.modDisp h f).half h).hbm = (s.half h).hbm := by
  cases h <;> rfl
@[simp] theorem modDisp_half_link (s : State) (h : Half) (f : Disp → Disp) : ((s.modDisp h f).half h).link = (s.half h).link := by
  cases h <;> rfl
@[simp] theorem modDisp_half_prot (s : State) (h : Half) (f : Disp → Disp) : ((s.modDisp h f).half h).prot = (s.half h).prot := by
  cases h <;> rfl
@[simp] theorem modDisp_half_hzn (s : State) (h : Half) (f : Disp → Disp) : ((s.modDisp h f).half h).hzn = (s.half h).hzn := by
  cases h <;> rfl
@[simp] theorem modDisp_half_isl (s : State) (h : Half) (f : Disp → Disp) : ((s.modDisp h f).half h).isl = (s.half h).isl := by
  cases h <;> rfl
@[simp] theorem modDisp_half_zen (s : State) (h : Half) (f : Disp → Disp) : ((s.modDisp h f).half h).zen = (s.half h).zen := by
  cases h <;> rfl
@[simp] theorem modDisp_half_session (s : State) (h : Half) (f : Disp → Disp) : ((s.modDisp h f).half h).session = (s.half h).session := by
  cases h <;> rfl
@[simp] theorem modDisp_half_chans (s : State) (h : Half) (f : Disp → Disp) : ((s.modDisp h f).half h).chans = (s.half h).chans := by
  cases h <;> rfl
@[simp] theorem modDisp_half_rotor (s : State) (h : Half) (f : Disp → Disp) : ((s.modDisp h f).half h).rotor = (s.half h).rotor := by
  cases h <;> rfl
@[simp] theorem modDisp_half_can (s : State) (h : Half) (f : Disp → Disp) : ((s.modDisp h f).half h).can = (s.half h).can := by
  cases h <;> rfl
@[simp] theorem modDisp_half_pcie (s : State) (h : Half) (f : Disp → Disp) : ((s.modDisp h f).half h).pcie = (s.half h).pcie := by
  cases h <;> rfl
@[simp] theorem modDisp_half_boot (s : State) (h : Half) (f : Disp → Disp) : ((s.modDisp h f).half h).boot = (s.half h).boot := by
  cases h <;> rfl
@[simp] theorem modDisp_other (s : State) (h : Half) (f : Disp → Disp) :
    (s.modDisp h f).half (otherHalf h) = s.half (otherHalf h) := by cases h <;> rfl
@[simp] theorem modDisp_of_other (s : State) (h : Half) (f : Disp → Disp) :
    (s.modDisp (otherHalf h) f).half h = s.half h := by cases h <;> rfl

/-! ### modDolly -/

@[simp] theorem modDolly_now (s : State) (h : Half) (f : Dolly → Dolly) : (s.modDolly h f).now = s.now := by cases h <;> rfl
@[simp] theorem modDolly_part (s : State) (h : Half) (f : Dolly → Dolly) : (s.modDolly h f).part = s.part := by cases h <;> rfl
@[simp] theorem modDolly_mem (s : State) (h : Half) (f : Dolly → Dolly) : (s.modDolly h f).mem = s.mem := by cases h <;> rfl
@[simp] theorem modDolly_held (s : State) (h : Half) (f : Dolly → Dolly) : (s.modDolly h f).held = s.held := by cases h <;> rfl
@[simp] theorem modDolly_undef (s : State) (h : Half) (f : Dolly → Dolly) : (s.modDolly h f).undef = s.undef := by cases h <;> rfl
@[simp] theorem modDolly_hostMem (s : State) (h : Half) (f : Dolly → Dolly) : (s.modDolly h f).hostMem = s.hostMem := by cases h <;> rfl
@[simp] theorem modDolly_sdio (s : State) (h : Half) (f : Dolly → Dolly) : (s.modDolly h f).sdio = s.sdio := by cases h <;> rfl
@[simp] theorem modDolly_tally (s : State) (h : Half) (f : Dolly → Dolly) : (s.modDolly h f).tally = s.tally := by cases h <;> rfl
@[simp] theorem modDolly_sdioWorld (s : State) (h : Half) (f : Dolly → Dolly) : (s.modDolly h f).sdioWorld = s.sdioWorld := by cases h <;> rfl
@[simp] theorem modDolly_canAWorld (s : State) (h : Half) (f : Dolly → Dolly) : (s.modDolly h f).canAWorld = s.canAWorld := by cases h <;> rfl
@[simp] theorem modDolly_canBWorld (s : State) (h : Half) (f : Dolly → Dolly) : (s.modDolly h f).canBWorld = s.canBWorld := by cases h <;> rfl
@[simp] theorem modDolly_pkgLimit (s : State) (h : Half) (f : Dolly → Dolly) : (s.modDolly h f).pkgLimit = s.pkgLimit := by cases h <;> rfl
@[simp] theorem modDolly_uniqueId (s : State) (h : Half) (f : Dolly → Dolly) : (s.modDolly h f).uniqueId = s.uniqueId := by cases h <;> rfl
@[simp] theorem modDolly_free (s : State) (h : Half) (f : Dolly → Dolly) : (s.modDolly h f).free = s.free := by cases h <;> rfl
@[simp] theorem modDolly_pending (s : State) (h : Half) (f : Dolly → Dolly) : (s.modDolly h f).pending = s.pending := by cases h <;> rfl
@[simp] theorem modDolly_half_disp (s : State) (h : Half) (f : Dolly → Dolly) : ((s.modDolly h f).half h).disp = (s.half h).disp := by
  cases h <;> rfl
@[simp] theorem modDolly_half_dolly (s : State) (h : Half) (f : Dolly → Dolly) : ((s.modDolly h f).half h).dolly = f (s.half h).dolly := by
  cases h <;> rfl
@[simp] theorem modDolly_half_hbm (s : State) (h : Half) (f : Dolly → Dolly) : ((s.modDolly h f).half h).hbm = (s.half h).hbm := by
  cases h <;> rfl
@[simp] theorem modDolly_half_link (s : State) (h : Half) (f : Dolly → Dolly) : ((s.modDolly h f).half h).link = (s.half h).link := by
  cases h <;> rfl
@[simp] theorem modDolly_half_prot (s : State) (h : Half) (f : Dolly → Dolly) : ((s.modDolly h f).half h).prot = (s.half h).prot := by
  cases h <;> rfl
@[simp] theorem modDolly_half_hzn (s : State) (h : Half) (f : Dolly → Dolly) : ((s.modDolly h f).half h).hzn = (s.half h).hzn := by
  cases h <;> rfl
@[simp] theorem modDolly_half_isl (s : State) (h : Half) (f : Dolly → Dolly) : ((s.modDolly h f).half h).isl = (s.half h).isl := by
  cases h <;> rfl
@[simp] theorem modDolly_half_zen (s : State) (h : Half) (f : Dolly → Dolly) : ((s.modDolly h f).half h).zen = (s.half h).zen := by
  cases h <;> rfl
@[simp] theorem modDolly_half_session (s : State) (h : Half) (f : Dolly → Dolly) : ((s.modDolly h f).half h).session = (s.half h).session := by
  cases h <;> rfl
@[simp] theorem modDolly_half_chans (s : State) (h : Half) (f : Dolly → Dolly) : ((s.modDolly h f).half h).chans = (s.half h).chans := by
  cases h <;> rfl
@[simp] theorem modDolly_half_rotor (s : State) (h : Half) (f : Dolly → Dolly) : ((s.modDolly h f).half h).rotor = (s.half h).rotor := by
  cases h <;> rfl
@[simp] theorem modDolly_half_can (s : State) (h : Half) (f : Dolly → Dolly) : ((s.modDolly h f).half h).can = (s.half h).can := by
  cases h <;> rfl
@[simp] theorem modDolly_half_pcie (s : State) (h : Half) (f : Dolly → Dolly) : ((s.modDolly h f).half h).pcie = (s.half h).pcie := by
  cases h <;> rfl
@[simp] theorem modDolly_half_boot (s : State) (h : Half) (f : Dolly → Dolly) : ((s.modDolly h f).half h).boot = (s.half h).boot := by
  cases h <;> rfl
@[simp] theorem modDolly_other (s : State) (h : Half) (f : Dolly → Dolly) :
    (s.modDolly h f).half (otherHalf h) = s.half (otherHalf h) := by cases h <;> rfl
@[simp] theorem modDolly_of_other (s : State) (h : Half) (f : Dolly → Dolly) :
    (s.modDolly (otherHalf h) f).half h = s.half h := by cases h <;> rfl

/-! ### modHbm -/

@[simp] theorem modHbm_now (s : State) (h : Half) (f : Hbm → Hbm) : (s.modHbm h f).now = s.now := by cases h <;> rfl
@[simp] theorem modHbm_part (s : State) (h : Half) (f : Hbm → Hbm) : (s.modHbm h f).part = s.part := by cases h <;> rfl
@[simp] theorem modHbm_mem (s : State) (h : Half) (f : Hbm → Hbm) : (s.modHbm h f).mem = s.mem := by cases h <;> rfl
@[simp] theorem modHbm_held (s : State) (h : Half) (f : Hbm → Hbm) : (s.modHbm h f).held = s.held := by cases h <;> rfl
@[simp] theorem modHbm_undef (s : State) (h : Half) (f : Hbm → Hbm) : (s.modHbm h f).undef = s.undef := by cases h <;> rfl
@[simp] theorem modHbm_hostMem (s : State) (h : Half) (f : Hbm → Hbm) : (s.modHbm h f).hostMem = s.hostMem := by cases h <;> rfl
@[simp] theorem modHbm_sdio (s : State) (h : Half) (f : Hbm → Hbm) : (s.modHbm h f).sdio = s.sdio := by cases h <;> rfl
@[simp] theorem modHbm_tally (s : State) (h : Half) (f : Hbm → Hbm) : (s.modHbm h f).tally = s.tally := by cases h <;> rfl
@[simp] theorem modHbm_sdioWorld (s : State) (h : Half) (f : Hbm → Hbm) : (s.modHbm h f).sdioWorld = s.sdioWorld := by cases h <;> rfl
@[simp] theorem modHbm_canAWorld (s : State) (h : Half) (f : Hbm → Hbm) : (s.modHbm h f).canAWorld = s.canAWorld := by cases h <;> rfl
@[simp] theorem modHbm_canBWorld (s : State) (h : Half) (f : Hbm → Hbm) : (s.modHbm h f).canBWorld = s.canBWorld := by cases h <;> rfl
@[simp] theorem modHbm_pkgLimit (s : State) (h : Half) (f : Hbm → Hbm) : (s.modHbm h f).pkgLimit = s.pkgLimit := by cases h <;> rfl
@[simp] theorem modHbm_uniqueId (s : State) (h : Half) (f : Hbm → Hbm) : (s.modHbm h f).uniqueId = s.uniqueId := by cases h <;> rfl
@[simp] theorem modHbm_free (s : State) (h : Half) (f : Hbm → Hbm) : (s.modHbm h f).free = s.free := by cases h <;> rfl
@[simp] theorem modHbm_pending (s : State) (h : Half) (f : Hbm → Hbm) : (s.modHbm h f).pending = s.pending := by cases h <;> rfl
@[simp] theorem modHbm_half_disp (s : State) (h : Half) (f : Hbm → Hbm) : ((s.modHbm h f).half h).disp = (s.half h).disp := by
  cases h <;> rfl
@[simp] theorem modHbm_half_dolly (s : State) (h : Half) (f : Hbm → Hbm) : ((s.modHbm h f).half h).dolly = (s.half h).dolly := by
  cases h <;> rfl
@[simp] theorem modHbm_half_hbm (s : State) (h : Half) (f : Hbm → Hbm) : ((s.modHbm h f).half h).hbm = f (s.half h).hbm := by
  cases h <;> rfl
@[simp] theorem modHbm_half_link (s : State) (h : Half) (f : Hbm → Hbm) : ((s.modHbm h f).half h).link = (s.half h).link := by
  cases h <;> rfl
@[simp] theorem modHbm_half_prot (s : State) (h : Half) (f : Hbm → Hbm) : ((s.modHbm h f).half h).prot = (s.half h).prot := by
  cases h <;> rfl
@[simp] theorem modHbm_half_hzn (s : State) (h : Half) (f : Hbm → Hbm) : ((s.modHbm h f).half h).hzn = (s.half h).hzn := by
  cases h <;> rfl
@[simp] theorem modHbm_half_isl (s : State) (h : Half) (f : Hbm → Hbm) : ((s.modHbm h f).half h).isl = (s.half h).isl := by
  cases h <;> rfl
@[simp] theorem modHbm_half_zen (s : State) (h : Half) (f : Hbm → Hbm) : ((s.modHbm h f).half h).zen = (s.half h).zen := by
  cases h <;> rfl
@[simp] theorem modHbm_half_session (s : State) (h : Half) (f : Hbm → Hbm) : ((s.modHbm h f).half h).session = (s.half h).session := by
  cases h <;> rfl
@[simp] theorem modHbm_half_chans (s : State) (h : Half) (f : Hbm → Hbm) : ((s.modHbm h f).half h).chans = (s.half h).chans := by
  cases h <;> rfl
@[simp] theorem modHbm_half_rotor (s : State) (h : Half) (f : Hbm → Hbm) : ((s.modHbm h f).half h).rotor = (s.half h).rotor := by
  cases h <;> rfl
@[simp] theorem modHbm_half_can (s : State) (h : Half) (f : Hbm → Hbm) : ((s.modHbm h f).half h).can = (s.half h).can := by
  cases h <;> rfl
@[simp] theorem modHbm_half_pcie (s : State) (h : Half) (f : Hbm → Hbm) : ((s.modHbm h f).half h).pcie = (s.half h).pcie := by
  cases h <;> rfl
@[simp] theorem modHbm_half_boot (s : State) (h : Half) (f : Hbm → Hbm) : ((s.modHbm h f).half h).boot = (s.half h).boot := by
  cases h <;> rfl
@[simp] theorem modHbm_other (s : State) (h : Half) (f : Hbm → Hbm) :
    (s.modHbm h f).half (otherHalf h) = s.half (otherHalf h) := by cases h <;> rfl
@[simp] theorem modHbm_of_other (s : State) (h : Half) (f : Hbm → Hbm) :
    (s.modHbm (otherHalf h) f).half h = s.half h := by cases h <;> rfl

/-! ### modLink -/

@[simp] theorem modLink_now (s : State) (h : Half) (f : Link → Link) : (s.modLink h f).now = s.now := by cases h <;> rfl
@[simp] theorem modLink_part (s : State) (h : Half) (f : Link → Link) : (s.modLink h f).part = s.part := by cases h <;> rfl
@[simp] theorem modLink_mem (s : State) (h : Half) (f : Link → Link) : (s.modLink h f).mem = s.mem := by cases h <;> rfl
@[simp] theorem modLink_held (s : State) (h : Half) (f : Link → Link) : (s.modLink h f).held = s.held := by cases h <;> rfl
@[simp] theorem modLink_undef (s : State) (h : Half) (f : Link → Link) : (s.modLink h f).undef = s.undef := by cases h <;> rfl
@[simp] theorem modLink_hostMem (s : State) (h : Half) (f : Link → Link) : (s.modLink h f).hostMem = s.hostMem := by cases h <;> rfl
@[simp] theorem modLink_sdio (s : State) (h : Half) (f : Link → Link) : (s.modLink h f).sdio = s.sdio := by cases h <;> rfl
@[simp] theorem modLink_tally (s : State) (h : Half) (f : Link → Link) : (s.modLink h f).tally = s.tally := by cases h <;> rfl
@[simp] theorem modLink_sdioWorld (s : State) (h : Half) (f : Link → Link) : (s.modLink h f).sdioWorld = s.sdioWorld := by cases h <;> rfl
@[simp] theorem modLink_canAWorld (s : State) (h : Half) (f : Link → Link) : (s.modLink h f).canAWorld = s.canAWorld := by cases h <;> rfl
@[simp] theorem modLink_canBWorld (s : State) (h : Half) (f : Link → Link) : (s.modLink h f).canBWorld = s.canBWorld := by cases h <;> rfl
@[simp] theorem modLink_pkgLimit (s : State) (h : Half) (f : Link → Link) : (s.modLink h f).pkgLimit = s.pkgLimit := by cases h <;> rfl
@[simp] theorem modLink_uniqueId (s : State) (h : Half) (f : Link → Link) : (s.modLink h f).uniqueId = s.uniqueId := by cases h <;> rfl
@[simp] theorem modLink_free (s : State) (h : Half) (f : Link → Link) : (s.modLink h f).free = s.free := by cases h <;> rfl
@[simp] theorem modLink_pending (s : State) (h : Half) (f : Link → Link) : (s.modLink h f).pending = s.pending := by cases h <;> rfl
@[simp] theorem modLink_half_disp (s : State) (h : Half) (f : Link → Link) : ((s.modLink h f).half h).disp = (s.half h).disp := by
  cases h <;> rfl
@[simp] theorem modLink_half_dolly (s : State) (h : Half) (f : Link → Link) : ((s.modLink h f).half h).dolly = (s.half h).dolly := by
  cases h <;> rfl
@[simp] theorem modLink_half_hbm (s : State) (h : Half) (f : Link → Link) : ((s.modLink h f).half h).hbm = (s.half h).hbm := by
  cases h <;> rfl
@[simp] theorem modLink_half_link (s : State) (h : Half) (f : Link → Link) : ((s.modLink h f).half h).link = f (s.half h).link := by
  cases h <;> rfl
@[simp] theorem modLink_half_prot (s : State) (h : Half) (f : Link → Link) : ((s.modLink h f).half h).prot = (s.half h).prot := by
  cases h <;> rfl
@[simp] theorem modLink_half_hzn (s : State) (h : Half) (f : Link → Link) : ((s.modLink h f).half h).hzn = (s.half h).hzn := by
  cases h <;> rfl
@[simp] theorem modLink_half_isl (s : State) (h : Half) (f : Link → Link) : ((s.modLink h f).half h).isl = (s.half h).isl := by
  cases h <;> rfl
@[simp] theorem modLink_half_zen (s : State) (h : Half) (f : Link → Link) : ((s.modLink h f).half h).zen = (s.half h).zen := by
  cases h <;> rfl
@[simp] theorem modLink_half_session (s : State) (h : Half) (f : Link → Link) : ((s.modLink h f).half h).session = (s.half h).session := by
  cases h <;> rfl
@[simp] theorem modLink_half_chans (s : State) (h : Half) (f : Link → Link) : ((s.modLink h f).half h).chans = (s.half h).chans := by
  cases h <;> rfl
@[simp] theorem modLink_half_rotor (s : State) (h : Half) (f : Link → Link) : ((s.modLink h f).half h).rotor = (s.half h).rotor := by
  cases h <;> rfl
@[simp] theorem modLink_half_can (s : State) (h : Half) (f : Link → Link) : ((s.modLink h f).half h).can = (s.half h).can := by
  cases h <;> rfl
@[simp] theorem modLink_half_pcie (s : State) (h : Half) (f : Link → Link) : ((s.modLink h f).half h).pcie = (s.half h).pcie := by
  cases h <;> rfl
@[simp] theorem modLink_half_boot (s : State) (h : Half) (f : Link → Link) : ((s.modLink h f).half h).boot = (s.half h).boot := by
  cases h <;> rfl
@[simp] theorem modLink_other (s : State) (h : Half) (f : Link → Link) :
    (s.modLink h f).half (otherHalf h) = s.half (otherHalf h) := by cases h <;> rfl
@[simp] theorem modLink_of_other (s : State) (h : Half) (f : Link → Link) :
    (s.modLink (otherHalf h) f).half h = s.half h := by cases h <;> rfl

/-! ### modProt -/

@[simp] theorem modProt_now (s : State) (h : Half) (f : Prot → Prot) : (s.modProt h f).now = s.now := by cases h <;> rfl
@[simp] theorem modProt_part (s : State) (h : Half) (f : Prot → Prot) : (s.modProt h f).part = s.part := by cases h <;> rfl
@[simp] theorem modProt_mem (s : State) (h : Half) (f : Prot → Prot) : (s.modProt h f).mem = s.mem := by cases h <;> rfl
@[simp] theorem modProt_held (s : State) (h : Half) (f : Prot → Prot) : (s.modProt h f).held = s.held := by cases h <;> rfl
@[simp] theorem modProt_undef (s : State) (h : Half) (f : Prot → Prot) : (s.modProt h f).undef = s.undef := by cases h <;> rfl
@[simp] theorem modProt_hostMem (s : State) (h : Half) (f : Prot → Prot) : (s.modProt h f).hostMem = s.hostMem := by cases h <;> rfl
@[simp] theorem modProt_sdio (s : State) (h : Half) (f : Prot → Prot) : (s.modProt h f).sdio = s.sdio := by cases h <;> rfl
@[simp] theorem modProt_tally (s : State) (h : Half) (f : Prot → Prot) : (s.modProt h f).tally = s.tally := by cases h <;> rfl
@[simp] theorem modProt_sdioWorld (s : State) (h : Half) (f : Prot → Prot) : (s.modProt h f).sdioWorld = s.sdioWorld := by cases h <;> rfl
@[simp] theorem modProt_canAWorld (s : State) (h : Half) (f : Prot → Prot) : (s.modProt h f).canAWorld = s.canAWorld := by cases h <;> rfl
@[simp] theorem modProt_canBWorld (s : State) (h : Half) (f : Prot → Prot) : (s.modProt h f).canBWorld = s.canBWorld := by cases h <;> rfl
@[simp] theorem modProt_pkgLimit (s : State) (h : Half) (f : Prot → Prot) : (s.modProt h f).pkgLimit = s.pkgLimit := by cases h <;> rfl
@[simp] theorem modProt_uniqueId (s : State) (h : Half) (f : Prot → Prot) : (s.modProt h f).uniqueId = s.uniqueId := by cases h <;> rfl
@[simp] theorem modProt_free (s : State) (h : Half) (f : Prot → Prot) : (s.modProt h f).free = s.free := by cases h <;> rfl
@[simp] theorem modProt_pending (s : State) (h : Half) (f : Prot → Prot) : (s.modProt h f).pending = s.pending := by cases h <;> rfl
@[simp] theorem modProt_half_disp (s : State) (h : Half) (f : Prot → Prot) : ((s.modProt h f).half h).disp = (s.half h).disp := by
  cases h <;> rfl
@[simp] theorem modProt_half_dolly (s : State) (h : Half) (f : Prot → Prot) : ((s.modProt h f).half h).dolly = (s.half h).dolly := by
  cases h <;> rfl
@[simp] theorem modProt_half_hbm (s : State) (h : Half) (f : Prot → Prot) : ((s.modProt h f).half h).hbm = (s.half h).hbm := by
  cases h <;> rfl
@[simp] theorem modProt_half_link (s : State) (h : Half) (f : Prot → Prot) : ((s.modProt h f).half h).link = (s.half h).link := by
  cases h <;> rfl
@[simp] theorem modProt_half_prot (s : State) (h : Half) (f : Prot → Prot) : ((s.modProt h f).half h).prot = f (s.half h).prot := by
  cases h <;> rfl
@[simp] theorem modProt_half_hzn (s : State) (h : Half) (f : Prot → Prot) : ((s.modProt h f).half h).hzn = (s.half h).hzn := by
  cases h <;> rfl
@[simp] theorem modProt_half_isl (s : State) (h : Half) (f : Prot → Prot) : ((s.modProt h f).half h).isl = (s.half h).isl := by
  cases h <;> rfl
@[simp] theorem modProt_half_zen (s : State) (h : Half) (f : Prot → Prot) : ((s.modProt h f).half h).zen = (s.half h).zen := by
  cases h <;> rfl
@[simp] theorem modProt_half_session (s : State) (h : Half) (f : Prot → Prot) : ((s.modProt h f).half h).session = (s.half h).session := by
  cases h <;> rfl
@[simp] theorem modProt_half_chans (s : State) (h : Half) (f : Prot → Prot) : ((s.modProt h f).half h).chans = (s.half h).chans := by
  cases h <;> rfl
@[simp] theorem modProt_half_rotor (s : State) (h : Half) (f : Prot → Prot) : ((s.modProt h f).half h).rotor = (s.half h).rotor := by
  cases h <;> rfl
@[simp] theorem modProt_half_can (s : State) (h : Half) (f : Prot → Prot) : ((s.modProt h f).half h).can = (s.half h).can := by
  cases h <;> rfl
@[simp] theorem modProt_half_pcie (s : State) (h : Half) (f : Prot → Prot) : ((s.modProt h f).half h).pcie = (s.half h).pcie := by
  cases h <;> rfl
@[simp] theorem modProt_half_boot (s : State) (h : Half) (f : Prot → Prot) : ((s.modProt h f).half h).boot = (s.half h).boot := by
  cases h <;> rfl
@[simp] theorem modProt_other (s : State) (h : Half) (f : Prot → Prot) :
    (s.modProt h f).half (otherHalf h) = s.half (otherHalf h) := by cases h <;> rfl
@[simp] theorem modProt_of_other (s : State) (h : Half) (f : Prot → Prot) :
    (s.modProt (otherHalf h) f).half h = s.half h := by cases h <;> rfl

/-! ### modHzn -/

@[simp] theorem modHzn_now (s : State) (h : Half) (f : Hzn → Hzn) : (s.modHzn h f).now = s.now := by cases h <;> rfl
@[simp] theorem modHzn_part (s : State) (h : Half) (f : Hzn → Hzn) : (s.modHzn h f).part = s.part := by cases h <;> rfl
@[simp] theorem modHzn_mem (s : State) (h : Half) (f : Hzn → Hzn) : (s.modHzn h f).mem = s.mem := by cases h <;> rfl
@[simp] theorem modHzn_held (s : State) (h : Half) (f : Hzn → Hzn) : (s.modHzn h f).held = s.held := by cases h <;> rfl
@[simp] theorem modHzn_undef (s : State) (h : Half) (f : Hzn → Hzn) : (s.modHzn h f).undef = s.undef := by cases h <;> rfl
@[simp] theorem modHzn_hostMem (s : State) (h : Half) (f : Hzn → Hzn) : (s.modHzn h f).hostMem = s.hostMem := by cases h <;> rfl
@[simp] theorem modHzn_sdio (s : State) (h : Half) (f : Hzn → Hzn) : (s.modHzn h f).sdio = s.sdio := by cases h <;> rfl
@[simp] theorem modHzn_tally (s : State) (h : Half) (f : Hzn → Hzn) : (s.modHzn h f).tally = s.tally := by cases h <;> rfl
@[simp] theorem modHzn_sdioWorld (s : State) (h : Half) (f : Hzn → Hzn) : (s.modHzn h f).sdioWorld = s.sdioWorld := by cases h <;> rfl
@[simp] theorem modHzn_canAWorld (s : State) (h : Half) (f : Hzn → Hzn) : (s.modHzn h f).canAWorld = s.canAWorld := by cases h <;> rfl
@[simp] theorem modHzn_canBWorld (s : State) (h : Half) (f : Hzn → Hzn) : (s.modHzn h f).canBWorld = s.canBWorld := by cases h <;> rfl
@[simp] theorem modHzn_pkgLimit (s : State) (h : Half) (f : Hzn → Hzn) : (s.modHzn h f).pkgLimit = s.pkgLimit := by cases h <;> rfl
@[simp] theorem modHzn_uniqueId (s : State) (h : Half) (f : Hzn → Hzn) : (s.modHzn h f).uniqueId = s.uniqueId := by cases h <;> rfl
@[simp] theorem modHzn_free (s : State) (h : Half) (f : Hzn → Hzn) : (s.modHzn h f).free = s.free := by cases h <;> rfl
@[simp] theorem modHzn_pending (s : State) (h : Half) (f : Hzn → Hzn) : (s.modHzn h f).pending = s.pending := by cases h <;> rfl
@[simp] theorem modHzn_half_disp (s : State) (h : Half) (f : Hzn → Hzn) : ((s.modHzn h f).half h).disp = (s.half h).disp := by
  cases h <;> rfl
@[simp] theorem modHzn_half_dolly (s : State) (h : Half) (f : Hzn → Hzn) : ((s.modHzn h f).half h).dolly = (s.half h).dolly := by
  cases h <;> rfl
@[simp] theorem modHzn_half_hbm (s : State) (h : Half) (f : Hzn → Hzn) : ((s.modHzn h f).half h).hbm = (s.half h).hbm := by
  cases h <;> rfl
@[simp] theorem modHzn_half_link (s : State) (h : Half) (f : Hzn → Hzn) : ((s.modHzn h f).half h).link = (s.half h).link := by
  cases h <;> rfl
@[simp] theorem modHzn_half_prot (s : State) (h : Half) (f : Hzn → Hzn) : ((s.modHzn h f).half h).prot = (s.half h).prot := by
  cases h <;> rfl
@[simp] theorem modHzn_half_hzn (s : State) (h : Half) (f : Hzn → Hzn) : ((s.modHzn h f).half h).hzn = f (s.half h).hzn := by
  cases h <;> rfl
@[simp] theorem modHzn_half_isl (s : State) (h : Half) (f : Hzn → Hzn) : ((s.modHzn h f).half h).isl = (s.half h).isl := by
  cases h <;> rfl
@[simp] theorem modHzn_half_zen (s : State) (h : Half) (f : Hzn → Hzn) : ((s.modHzn h f).half h).zen = (s.half h).zen := by
  cases h <;> rfl
@[simp] theorem modHzn_half_session (s : State) (h : Half) (f : Hzn → Hzn) : ((s.modHzn h f).half h).session = (s.half h).session := by
  cases h <;> rfl
@[simp] theorem modHzn_half_chans (s : State) (h : Half) (f : Hzn → Hzn) : ((s.modHzn h f).half h).chans = (s.half h).chans := by
  cases h <;> rfl
@[simp] theorem modHzn_half_rotor (s : State) (h : Half) (f : Hzn → Hzn) : ((s.modHzn h f).half h).rotor = (s.half h).rotor := by
  cases h <;> rfl
@[simp] theorem modHzn_half_can (s : State) (h : Half) (f : Hzn → Hzn) : ((s.modHzn h f).half h).can = (s.half h).can := by
  cases h <;> rfl
@[simp] theorem modHzn_half_pcie (s : State) (h : Half) (f : Hzn → Hzn) : ((s.modHzn h f).half h).pcie = (s.half h).pcie := by
  cases h <;> rfl
@[simp] theorem modHzn_half_boot (s : State) (h : Half) (f : Hzn → Hzn) : ((s.modHzn h f).half h).boot = (s.half h).boot := by
  cases h <;> rfl
@[simp] theorem modHzn_other (s : State) (h : Half) (f : Hzn → Hzn) :
    (s.modHzn h f).half (otherHalf h) = s.half (otherHalf h) := by cases h <;> rfl
@[simp] theorem modHzn_of_other (s : State) (h : Half) (f : Hzn → Hzn) :
    (s.modHzn (otherHalf h) f).half h = s.half h := by cases h <;> rfl

/-! ### modIsl -/

@[simp] theorem modIsl_now (s : State) (h : Half) (f : Isl → Isl) : (s.modIsl h f).now = s.now := by cases h <;> rfl
@[simp] theorem modIsl_part (s : State) (h : Half) (f : Isl → Isl) : (s.modIsl h f).part = s.part := by cases h <;> rfl
@[simp] theorem modIsl_mem (s : State) (h : Half) (f : Isl → Isl) : (s.modIsl h f).mem = s.mem := by cases h <;> rfl
@[simp] theorem modIsl_held (s : State) (h : Half) (f : Isl → Isl) : (s.modIsl h f).held = s.held := by cases h <;> rfl
@[simp] theorem modIsl_undef (s : State) (h : Half) (f : Isl → Isl) : (s.modIsl h f).undef = s.undef := by cases h <;> rfl
@[simp] theorem modIsl_hostMem (s : State) (h : Half) (f : Isl → Isl) : (s.modIsl h f).hostMem = s.hostMem := by cases h <;> rfl
@[simp] theorem modIsl_sdio (s : State) (h : Half) (f : Isl → Isl) : (s.modIsl h f).sdio = s.sdio := by cases h <;> rfl
@[simp] theorem modIsl_tally (s : State) (h : Half) (f : Isl → Isl) : (s.modIsl h f).tally = s.tally := by cases h <;> rfl
@[simp] theorem modIsl_sdioWorld (s : State) (h : Half) (f : Isl → Isl) : (s.modIsl h f).sdioWorld = s.sdioWorld := by cases h <;> rfl
@[simp] theorem modIsl_canAWorld (s : State) (h : Half) (f : Isl → Isl) : (s.modIsl h f).canAWorld = s.canAWorld := by cases h <;> rfl
@[simp] theorem modIsl_canBWorld (s : State) (h : Half) (f : Isl → Isl) : (s.modIsl h f).canBWorld = s.canBWorld := by cases h <;> rfl
@[simp] theorem modIsl_pkgLimit (s : State) (h : Half) (f : Isl → Isl) : (s.modIsl h f).pkgLimit = s.pkgLimit := by cases h <;> rfl
@[simp] theorem modIsl_uniqueId (s : State) (h : Half) (f : Isl → Isl) : (s.modIsl h f).uniqueId = s.uniqueId := by cases h <;> rfl
@[simp] theorem modIsl_free (s : State) (h : Half) (f : Isl → Isl) : (s.modIsl h f).free = s.free := by cases h <;> rfl
@[simp] theorem modIsl_pending (s : State) (h : Half) (f : Isl → Isl) : (s.modIsl h f).pending = s.pending := by cases h <;> rfl
@[simp] theorem modIsl_half_disp (s : State) (h : Half) (f : Isl → Isl) : ((s.modIsl h f).half h).disp = (s.half h).disp := by
  cases h <;> rfl
@[simp] theorem modIsl_half_dolly (s : State) (h : Half) (f : Isl → Isl) : ((s.modIsl h f).half h).dolly = (s.half h).dolly := by
  cases h <;> rfl
@[simp] theorem modIsl_half_hbm (s : State) (h : Half) (f : Isl → Isl) : ((s.modIsl h f).half h).hbm = (s.half h).hbm := by
  cases h <;> rfl
@[simp] theorem modIsl_half_link (s : State) (h : Half) (f : Isl → Isl) : ((s.modIsl h f).half h).link = (s.half h).link := by
  cases h <;> rfl
@[simp] theorem modIsl_half_prot (s : State) (h : Half) (f : Isl → Isl) : ((s.modIsl h f).half h).prot = (s.half h).prot := by
  cases h <;> rfl
@[simp] theorem modIsl_half_hzn (s : State) (h : Half) (f : Isl → Isl) : ((s.modIsl h f).half h).hzn = (s.half h).hzn := by
  cases h <;> rfl
@[simp] theorem modIsl_half_isl (s : State) (h : Half) (f : Isl → Isl) : ((s.modIsl h f).half h).isl = f (s.half h).isl := by
  cases h <;> rfl
@[simp] theorem modIsl_half_zen (s : State) (h : Half) (f : Isl → Isl) : ((s.modIsl h f).half h).zen = (s.half h).zen := by
  cases h <;> rfl
@[simp] theorem modIsl_half_session (s : State) (h : Half) (f : Isl → Isl) : ((s.modIsl h f).half h).session = (s.half h).session := by
  cases h <;> rfl
@[simp] theorem modIsl_half_chans (s : State) (h : Half) (f : Isl → Isl) : ((s.modIsl h f).half h).chans = (s.half h).chans := by
  cases h <;> rfl
@[simp] theorem modIsl_half_rotor (s : State) (h : Half) (f : Isl → Isl) : ((s.modIsl h f).half h).rotor = (s.half h).rotor := by
  cases h <;> rfl
@[simp] theorem modIsl_half_can (s : State) (h : Half) (f : Isl → Isl) : ((s.modIsl h f).half h).can = (s.half h).can := by
  cases h <;> rfl
@[simp] theorem modIsl_half_pcie (s : State) (h : Half) (f : Isl → Isl) : ((s.modIsl h f).half h).pcie = (s.half h).pcie := by
  cases h <;> rfl
@[simp] theorem modIsl_half_boot (s : State) (h : Half) (f : Isl → Isl) : ((s.modIsl h f).half h).boot = (s.half h).boot := by
  cases h <;> rfl
@[simp] theorem modIsl_other (s : State) (h : Half) (f : Isl → Isl) :
    (s.modIsl h f).half (otherHalf h) = s.half (otherHalf h) := by cases h <;> rfl
@[simp] theorem modIsl_of_other (s : State) (h : Half) (f : Isl → Isl) :
    (s.modIsl (otherHalf h) f).half h = s.half h := by cases h <;> rfl

/-! ### modZen -/

@[simp] theorem modZen_now (s : State) (h : Half) (f : Zen → Zen) : (s.modZen h f).now = s.now := by cases h <;> rfl
@[simp] theorem modZen_part (s : State) (h : Half) (f : Zen → Zen) : (s.modZen h f).part = s.part := by cases h <;> rfl
@[simp] theorem modZen_mem (s : State) (h : Half) (f : Zen → Zen) : (s.modZen h f).mem = s.mem := by cases h <;> rfl
@[simp] theorem modZen_held (s : State) (h : Half) (f : Zen → Zen) : (s.modZen h f).held = s.held := by cases h <;> rfl
@[simp] theorem modZen_undef (s : State) (h : Half) (f : Zen → Zen) : (s.modZen h f).undef = s.undef := by cases h <;> rfl
@[simp] theorem modZen_hostMem (s : State) (h : Half) (f : Zen → Zen) : (s.modZen h f).hostMem = s.hostMem := by cases h <;> rfl
@[simp] theorem modZen_sdio (s : State) (h : Half) (f : Zen → Zen) : (s.modZen h f).sdio = s.sdio := by cases h <;> rfl
@[simp] theorem modZen_tally (s : State) (h : Half) (f : Zen → Zen) : (s.modZen h f).tally = s.tally := by cases h <;> rfl
@[simp] theorem modZen_sdioWorld (s : State) (h : Half) (f : Zen → Zen) : (s.modZen h f).sdioWorld = s.sdioWorld := by cases h <;> rfl
@[simp] theorem modZen_canAWorld (s : State) (h : Half) (f : Zen → Zen) : (s.modZen h f).canAWorld = s.canAWorld := by cases h <;> rfl
@[simp] theorem modZen_canBWorld (s : State) (h : Half) (f : Zen → Zen) : (s.modZen h f).canBWorld = s.canBWorld := by cases h <;> rfl
@[simp] theorem modZen_pkgLimit (s : State) (h : Half) (f : Zen → Zen) : (s.modZen h f).pkgLimit = s.pkgLimit := by cases h <;> rfl
@[simp] theorem modZen_uniqueId (s : State) (h : Half) (f : Zen → Zen) : (s.modZen h f).uniqueId = s.uniqueId := by cases h <;> rfl
@[simp] theorem modZen_free (s : State) (h : Half) (f : Zen → Zen) : (s.modZen h f).free = s.free := by cases h <;> rfl
@[simp] theorem modZen_pending (s : State) (h : Half) (f : Zen → Zen) : (s.modZen h f).pending = s.pending := by cases h <;> rfl
@[simp] theorem modZen_half_disp (s : State) (h : Half) (f : Zen → Zen) : ((s.modZen h f).half h).disp = (s.half h).disp := by
  cases h <;> rfl
@[simp] theorem modZen_half_dolly (s : State) (h : Half) (f : Zen → Zen) : ((s.modZen h f).half h).dolly = (s.half h).dolly := by
  cases h <;> rfl
@[simp] theorem modZen_half_hbm (s : State) (h : Half) (f : Zen → Zen) : ((s.modZen h f).half h).hbm = (s.half h).hbm := by
  cases h <;> rfl
@[simp] theorem modZen_half_link (s : State) (h : Half) (f : Zen → Zen) : ((s.modZen h f).half h).link = (s.half h).link := by
  cases h <;> rfl
@[simp] theorem modZen_half_prot (s : State) (h : Half) (f : Zen → Zen) : ((s.modZen h f).half h).prot = (s.half h).prot := by
  cases h <;> rfl
@[simp] theorem modZen_half_hzn (s : State) (h : Half) (f : Zen → Zen) : ((s.modZen h f).half h).hzn = (s.half h).hzn := by
  cases h <;> rfl
@[simp] theorem modZen_half_isl (s : State) (h : Half) (f : Zen → Zen) : ((s.modZen h f).half h).isl = (s.half h).isl := by
  cases h <;> rfl
@[simp] theorem modZen_half_zen (s : State) (h : Half) (f : Zen → Zen) : ((s.modZen h f).half h).zen = f (s.half h).zen := by
  cases h <;> rfl
@[simp] theorem modZen_half_session (s : State) (h : Half) (f : Zen → Zen) : ((s.modZen h f).half h).session = (s.half h).session := by
  cases h <;> rfl
@[simp] theorem modZen_half_chans (s : State) (h : Half) (f : Zen → Zen) : ((s.modZen h f).half h).chans = (s.half h).chans := by
  cases h <;> rfl
@[simp] theorem modZen_half_rotor (s : State) (h : Half) (f : Zen → Zen) : ((s.modZen h f).half h).rotor = (s.half h).rotor := by
  cases h <;> rfl
@[simp] theorem modZen_half_can (s : State) (h : Half) (f : Zen → Zen) : ((s.modZen h f).half h).can = (s.half h).can := by
  cases h <;> rfl
@[simp] theorem modZen_half_pcie (s : State) (h : Half) (f : Zen → Zen) : ((s.modZen h f).half h).pcie = (s.half h).pcie := by
  cases h <;> rfl
@[simp] theorem modZen_half_boot (s : State) (h : Half) (f : Zen → Zen) : ((s.modZen h f).half h).boot = (s.half h).boot := by
  cases h <;> rfl
@[simp] theorem modZen_other (s : State) (h : Half) (f : Zen → Zen) :
    (s.modZen h f).half (otherHalf h) = s.half (otherHalf h) := by cases h <;> rfl
@[simp] theorem modZen_of_other (s : State) (h : Half) (f : Zen → Zen) :
    (s.modZen (otherHalf h) f).half h = s.half h := by cases h <;> rfl

/-! ### modSession -/

@[simp] theorem modSession_now (s : State) (h : Half) (f : Session → Session) : (s.modSession h f).now = s.now := by cases h <;> rfl
@[simp] theorem modSession_part (s : State) (h : Half) (f : Session → Session) : (s.modSession h f).part = s.part := by cases h <;> rfl
@[simp] theorem modSession_mem (s : State) (h : Half) (f : Session → Session) : (s.modSession h f).mem = s.mem := by cases h <;> rfl
@[simp] theorem modSession_held (s : State) (h : Half) (f : Session → Session) : (s.modSession h f).held = s.held := by cases h <;> rfl
@[simp] theorem modSession_undef (s : State) (h : Half) (f : Session → Session) : (s.modSession h f).undef = s.undef := by cases h <;> rfl
@[simp] theorem modSession_hostMem (s : State) (h : Half) (f : Session → Session) : (s.modSession h f).hostMem = s.hostMem := by cases h <;> rfl
@[simp] theorem modSession_sdio (s : State) (h : Half) (f : Session → Session) : (s.modSession h f).sdio = s.sdio := by cases h <;> rfl
@[simp] theorem modSession_tally (s : State) (h : Half) (f : Session → Session) : (s.modSession h f).tally = s.tally := by cases h <;> rfl
@[simp] theorem modSession_sdioWorld (s : State) (h : Half) (f : Session → Session) : (s.modSession h f).sdioWorld = s.sdioWorld := by cases h <;> rfl
@[simp] theorem modSession_canAWorld (s : State) (h : Half) (f : Session → Session) : (s.modSession h f).canAWorld = s.canAWorld := by cases h <;> rfl
@[simp] theorem modSession_canBWorld (s : State) (h : Half) (f : Session → Session) : (s.modSession h f).canBWorld = s.canBWorld := by cases h <;> rfl
@[simp] theorem modSession_pkgLimit (s : State) (h : Half) (f : Session → Session) : (s.modSession h f).pkgLimit = s.pkgLimit := by cases h <;> rfl
@[simp] theorem modSession_uniqueId (s : State) (h : Half) (f : Session → Session) : (s.modSession h f).uniqueId = s.uniqueId := by cases h <;> rfl
@[simp] theorem modSession_free (s : State) (h : Half) (f : Session → Session) : (s.modSession h f).free = s.free := by cases h <;> rfl
@[simp] theorem modSession_pending (s : State) (h : Half) (f : Session → Session) : (s.modSession h f).pending = s.pending := by cases h <;> rfl
@[simp] theorem modSession_half_disp (s : State) (h : Half) (f : Session → Session) : ((s.modSession h f).half h).disp = (s.half h).disp := by
  cases h <;> rfl
@[simp] theorem modSession_half_dolly (s : State) (h : Half) (f : Session → Session) : ((s.modSession h f).half h).dolly = (s.half h).dolly := by
  cases h <;> rfl
@[simp] theorem modSession_half_hbm (s : State) (h : Half) (f : Session → Session) : ((s.modSession h f).half h).hbm = (s.half h).hbm := by
  cases h <;> rfl
@[simp] theorem modSession_half_link (s : State) (h : Half) (f : Session → Session) : ((s.modSession h f).half h).link = (s.half h).link := by
  cases h <;> rfl
@[simp] theorem modSession_half_prot (s : State) (h : Half) (f : Session → Session) : ((s.modSession h f).half h).prot = (s.half h).prot := by
  cases h <;> rfl
@[simp] theorem modSession_half_hzn (s : State) (h : Half) (f : Session → Session) : ((s.modSession h f).half h).hzn = (s.half h).hzn := by
  cases h <;> rfl
@[simp] theorem modSession_half_isl (s : State) (h : Half) (f : Session → Session) : ((s.modSession h f).half h).isl = (s.half h).isl := by
  cases h <;> rfl
@[simp] theorem modSession_half_zen (s : State) (h : Half) (f : Session → Session) : ((s.modSession h f).half h).zen = (s.half h).zen := by
  cases h <;> rfl
@[simp] theorem modSession_half_session (s : State) (h : Half) (f : Session → Session) : ((s.modSession h f).half h).session = f (s.half h).session := by
  cases h <;> rfl
@[simp] theorem modSession_half_chans (s : State) (h : Half) (f : Session → Session) : ((s.modSession h f).half h).chans = (s.half h).chans := by
  cases h <;> rfl
@[simp] theorem modSession_half_rotor (s : State) (h : Half) (f : Session → Session) : ((s.modSession h f).half h).rotor = (s.half h).rotor := by
  cases h <;> rfl
@[simp] theorem modSession_half_can (s : State) (h : Half) (f : Session → Session) : ((s.modSession h f).half h).can = (s.half h).can := by
  cases h <;> rfl
@[simp] theorem modSession_half_pcie (s : State) (h : Half) (f : Session → Session) : ((s.modSession h f).half h).pcie = (s.half h).pcie := by
  cases h <;> rfl
@[simp] theorem modSession_half_boot (s : State) (h : Half) (f : Session → Session) : ((s.modSession h f).half h).boot = (s.half h).boot := by
  cases h <;> rfl
@[simp] theorem modSession_other (s : State) (h : Half) (f : Session → Session) :
    (s.modSession h f).half (otherHalf h) = s.half (otherHalf h) := by cases h <;> rfl
@[simp] theorem modSession_of_other (s : State) (h : Half) (f : Session → Session) :
    (s.modSession (otherHalf h) f).half h = s.half h := by cases h <;> rfl

/-! ### modCan -/

@[simp] theorem modCan_now (s : State) (h : Half) (f : Can → Can) : (s.modCan h f).now = s.now := by cases h <;> rfl
@[simp] theorem modCan_part (s : State) (h : Half) (f : Can → Can) : (s.modCan h f).part = s.part := by cases h <;> rfl
@[simp] theorem modCan_mem (s : State) (h : Half) (f : Can → Can) : (s.modCan h f).mem = s.mem := by cases h <;> rfl
@[simp] theorem modCan_held (s : State) (h : Half) (f : Can → Can) : (s.modCan h f).held = s.held := by cases h <;> rfl
@[simp] theorem modCan_undef (s : State) (h : Half) (f : Can → Can) : (s.modCan h f).undef = s.undef := by cases h <;> rfl
@[simp] theorem modCan_hostMem (s : State) (h : Half) (f : Can → Can) : (s.modCan h f).hostMem = s.hostMem := by cases h <;> rfl
@[simp] theorem modCan_sdio (s : State) (h : Half) (f : Can → Can) : (s.modCan h f).sdio = s.sdio := by cases h <;> rfl
@[simp] theorem modCan_tally (s : State) (h : Half) (f : Can → Can) : (s.modCan h f).tally = s.tally := by cases h <;> rfl
@[simp] theorem modCan_sdioWorld (s : State) (h : Half) (f : Can → Can) : (s.modCan h f).sdioWorld = s.sdioWorld := by cases h <;> rfl
@[simp] theorem modCan_canAWorld (s : State) (h : Half) (f : Can → Can) : (s.modCan h f).canAWorld = s.canAWorld := by cases h <;> rfl
@[simp] theorem modCan_canBWorld (s : State) (h : Half) (f : Can → Can) : (s.modCan h f).canBWorld = s.canBWorld := by cases h <;> rfl
@[simp] theorem modCan_pkgLimit (s : State) (h : Half) (f : Can → Can) : (s.modCan h f).pkgLimit = s.pkgLimit := by cases h <;> rfl
@[simp] theorem modCan_uniqueId (s : State) (h : Half) (f : Can → Can) : (s.modCan h f).uniqueId = s.uniqueId := by cases h <;> rfl
@[simp] theorem modCan_free (s : State) (h : Half) (f : Can → Can) : (s.modCan h f).free = s.free := by cases h <;> rfl
@[simp] theorem modCan_pending (s : State) (h : Half) (f : Can → Can) : (s.modCan h f).pending = s.pending := by cases h <;> rfl
@[simp] theorem modCan_half_disp (s : State) (h : Half) (f : Can → Can) : ((s.modCan h f).half h).disp = (s.half h).disp := by
  cases h <;> rfl
@[simp] theorem modCan_half_dolly (s : State) (h : Half) (f : Can → Can) : ((s.modCan h f).half h).dolly = (s.half h).dolly := by
  cases h <;> rfl
@[simp] theorem modCan_half_hbm (s : State) (h : Half) (f : Can → Can) : ((s.modCan h f).half h).hbm = (s.half h).hbm := by
  cases h <;> rfl
@[simp] theorem modCan_half_link (s : State) (h : Half) (f : Can → Can) : ((s.modCan h f).half h).link = (s.half h).link := by
  cases h <;> rfl
@[simp] theorem modCan_half_prot (s : State) (h : Half) (f : Can → Can) : ((s.modCan h f).half h).prot = (s.half h).prot := by
  cases h <;> rfl
@[simp] theorem modCan_half_hzn (s : State) (h : Half) (f : Can → Can) : ((s.modCan h f).half h).hzn = (s.half h).hzn := by
  cases h <;> rfl
@[simp] theorem modCan_half_isl (s : State) (h : Half) (f : Can → Can) : ((s.modCan h f).half h).isl = (s.half h).isl := by
  cases h <;> rfl
@[simp] theorem modCan_half_zen (s : State) (h : Half) (f : Can → Can) : ((s.modCan h f).half h).zen = (s.half h).zen := by
  cases h <;> rfl
@[simp] theorem modCan_half_session (s : State) (h : Half) (f : Can → Can) : ((s.modCan h f).half h).session = (s.half h).session := by
  cases h <;> rfl
@[simp] theorem modCan_half_chans (s : State) (h : Half) (f : Can → Can) : ((s.modCan h f).half h).chans = (s.half h).chans := by
  cases h <;> rfl
@[simp] theorem modCan_half_rotor (s : State) (h : Half) (f : Can → Can) : ((s.modCan h f).half h).rotor = (s.half h).rotor := by
  cases h <;> rfl
@[simp] theorem modCan_half_can (s : State) (h : Half) (f : Can → Can) : ((s.modCan h f).half h).can = f (s.half h).can := by
  cases h <;> rfl
@[simp] theorem modCan_half_pcie (s : State) (h : Half) (f : Can → Can) : ((s.modCan h f).half h).pcie = (s.half h).pcie := by
  cases h <;> rfl
@[simp] theorem modCan_half_boot (s : State) (h : Half) (f : Can → Can) : ((s.modCan h f).half h).boot = (s.half h).boot := by
  cases h <;> rfl
@[simp] theorem modCan_other (s : State) (h : Half) (f : Can → Can) :
    (s.modCan h f).half (otherHalf h) = s.half (otherHalf h) := by cases h <;> rfl
@[simp] theorem modCan_of_other (s : State) (h : Half) (f : Can → Can) :
    (s.modCan (otherHalf h) f).half h = s.half h := by cases h <;> rfl

/-! ### modPcie -/

@[simp] theorem modPcie_now (s : State) (h : Half) (f : Pcie → Pcie) : (s.modPcie h f).now = s.now := by cases h <;> rfl
@[simp] theorem modPcie_part (s : State) (h : Half) (f : Pcie → Pcie) : (s.modPcie h f).part = s.part := by cases h <;> rfl
@[simp] theorem modPcie_mem (s : State) (h : Half) (f : Pcie → Pcie) : (s.modPcie h f).mem = s.mem := by cases h <;> rfl
@[simp] theorem modPcie_held (s : State) (h : Half) (f : Pcie → Pcie) : (s.modPcie h f).held = s.held := by cases h <;> rfl
@[simp] theorem modPcie_undef (s : State) (h : Half) (f : Pcie → Pcie) : (s.modPcie h f).undef = s.undef := by cases h <;> rfl
@[simp] theorem modPcie_hostMem (s : State) (h : Half) (f : Pcie → Pcie) : (s.modPcie h f).hostMem = s.hostMem := by cases h <;> rfl
@[simp] theorem modPcie_sdio (s : State) (h : Half) (f : Pcie → Pcie) : (s.modPcie h f).sdio = s.sdio := by cases h <;> rfl
@[simp] theorem modPcie_tally (s : State) (h : Half) (f : Pcie → Pcie) : (s.modPcie h f).tally = s.tally := by cases h <;> rfl
@[simp] theorem modPcie_sdioWorld (s : State) (h : Half) (f : Pcie → Pcie) : (s.modPcie h f).sdioWorld = s.sdioWorld := by cases h <;> rfl
@[simp] theorem modPcie_canAWorld (s : State) (h : Half) (f : Pcie → Pcie) : (s.modPcie h f).canAWorld = s.canAWorld := by cases h <;> rfl
@[simp] theorem modPcie_canBWorld (s : State) (h : Half) (f : Pcie → Pcie) : (s.modPcie h f).canBWorld = s.canBWorld := by cases h <;> rfl
@[simp] theorem modPcie_pkgLimit (s : State) (h : Half) (f : Pcie → Pcie) : (s.modPcie h f).pkgLimit = s.pkgLimit := by cases h <;> rfl
@[simp] theorem modPcie_uniqueId (s : State) (h : Half) (f : Pcie → Pcie) : (s.modPcie h f).uniqueId = s.uniqueId := by cases h <;> rfl
@[simp] theorem modPcie_free (s : State) (h : Half) (f : Pcie → Pcie) : (s.modPcie h f).free = s.free := by cases h <;> rfl
@[simp] theorem modPcie_pending (s : State) (h : Half) (f : Pcie → Pcie) : (s.modPcie h f).pending = s.pending := by cases h <;> rfl
@[simp] theorem modPcie_half_disp (s : State) (h : Half) (f : Pcie → Pcie) : ((s.modPcie h f).half h).disp = (s.half h).disp := by
  cases h <;> rfl
@[simp] theorem modPcie_half_dolly (s : State) (h : Half) (f : Pcie → Pcie) : ((s.modPcie h f).half h).dolly = (s.half h).dolly := by
  cases h <;> rfl
@[simp] theorem modPcie_half_hbm (s : State) (h : Half) (f : Pcie → Pcie) : ((s.modPcie h f).half h).hbm = (s.half h).hbm := by
  cases h <;> rfl
@[simp] theorem modPcie_half_link (s : State) (h : Half) (f : Pcie → Pcie) : ((s.modPcie h f).half h).link = (s.half h).link := by
  cases h <;> rfl
@[simp] theorem modPcie_half_prot (s : State) (h : Half) (f : Pcie → Pcie) : ((s.modPcie h f).half h).prot = (s.half h).prot := by
  cases h <;> rfl
@[simp] theorem modPcie_half_hzn (s : State) (h : Half) (f : Pcie → Pcie) : ((s.modPcie h f).half h).hzn = (s.half h).hzn := by
  cases h <;> rfl
@[simp] theorem modPcie_half_isl (s : State) (h : Half) (f : Pcie → Pcie) : ((s.modPcie h f).half h).isl = (s.half h).isl := by
  cases h <;> rfl
@[simp] theorem modPcie_half_zen (s : State) (h : Half) (f : Pcie → Pcie) : ((s.modPcie h f).half h).zen = (s.half h).zen := by
  cases h <;> rfl
@[simp] theorem modPcie_half_session (s : State) (h : Half) (f : Pcie → Pcie) : ((s.modPcie h f).half h).session = (s.half h).session := by
  cases h <;> rfl
@[simp] theorem modPcie_half_chans (s : State) (h : Half) (f : Pcie → Pcie) : ((s.modPcie h f).half h).chans = (s.half h).chans := by
  cases h <;> rfl
@[simp] theorem modPcie_half_rotor (s : State) (h : Half) (f : Pcie → Pcie) : ((s.modPcie h f).half h).rotor = (s.half h).rotor := by
  cases h <;> rfl
@[simp] theorem modPcie_half_can (s : State) (h : Half) (f : Pcie → Pcie) : ((s.modPcie h f).half h).can = (s.half h).can := by
  cases h <;> rfl
@[simp] theorem modPcie_half_pcie (s : State) (h : Half) (f : Pcie → Pcie) : ((s.modPcie h f).half h).pcie = f (s.half h).pcie := by
  cases h <;> rfl
@[simp] theorem modPcie_half_boot (s : State) (h : Half) (f : Pcie → Pcie) : ((s.modPcie h f).half h).boot = (s.half h).boot := by
  cases h <;> rfl
@[simp] theorem modPcie_other (s : State) (h : Half) (f : Pcie → Pcie) :
    (s.modPcie h f).half (otherHalf h) = s.half (otherHalf h) := by cases h <;> rfl
@[simp] theorem modPcie_of_other (s : State) (h : Half) (f : Pcie → Pcie) :
    (s.modPcie (otherHalf h) f).half h = s.half h := by cases h <;> rfl

/-! ### modBoot -/

@[simp] theorem modBoot_now (s : State) (h : Half) (f : Boot → Boot) : (s.modBoot h f).now = s.now := by cases h <;> rfl
@[simp] theorem modBoot_part (s : State) (h : Half) (f : Boot → Boot) : (s.modBoot h f).part = s.part := by cases h <;> rfl
@[simp] theorem modBoot_mem (s : State) (h : Half) (f : Boot → Boot) : (s.modBoot h f).mem = s.mem := by cases h <;> rfl
@[simp] theorem modBoot_held (s : State) (h : Half) (f : Boot → Boot) : (s.modBoot h f).held = s.held := by cases h <;> rfl
@[simp] theorem modBoot_undef (s : State) (h : Half) (f : Boot → Boot) : (s.modBoot h f).undef = s.undef := by cases h <;> rfl
@[simp] theorem modBoot_hostMem (s : State) (h : Half) (f : Boot → Boot) : (s.modBoot h f).hostMem = s.hostMem := by cases h <;> rfl
@[simp] theorem modBoot_sdio (s : State) (h : Half) (f : Boot → Boot) : (s.modBoot h f).sdio = s.sdio := by cases h <;> rfl
@[simp] theorem modBoot_tally (s : State) (h : Half) (f : Boot → Boot) : (s.modBoot h f).tally = s.tally := by cases h <;> rfl
@[simp] theorem modBoot_sdioWorld (s : State) (h : Half) (f : Boot → Boot) : (s.modBoot h f).sdioWorld = s.sdioWorld := by cases h <;> rfl
@[simp] theorem modBoot_canAWorld (s : State) (h : Half) (f : Boot → Boot) : (s.modBoot h f).canAWorld = s.canAWorld := by cases h <;> rfl
@[simp] theorem modBoot_canBWorld (s : State) (h : Half) (f : Boot → Boot) : (s.modBoot h f).canBWorld = s.canBWorld := by cases h <;> rfl
@[simp] theorem modBoot_pkgLimit (s : State) (h : Half) (f : Boot → Boot) : (s.modBoot h f).pkgLimit = s.pkgLimit := by cases h <;> rfl
@[simp] theorem modBoot_uniqueId (s : State) (h : Half) (f : Boot → Boot) : (s.modBoot h f).uniqueId = s.uniqueId := by cases h <;> rfl
@[simp] theorem modBoot_free (s : State) (h : Half) (f : Boot → Boot) : (s.modBoot h f).free = s.free := by cases h <;> rfl
@[simp] theorem modBoot_pending (s : State) (h : Half) (f : Boot → Boot) : (s.modBoot h f).pending = s.pending := by cases h <;> rfl
@[simp] theorem modBoot_half_disp (s : State) (h : Half) (f : Boot → Boot) : ((s.modBoot h f).half h).disp = (s.half h).disp := by
  cases h <;> rfl
@[simp] theorem modBoot_half_dolly (s : State) (h : Half) (f : Boot → Boot) : ((s.modBoot h f).half h).dolly = (s.half h).dolly := by
  cases h <;> rfl
@[simp] theorem modBoot_half_hbm (s : State) (h : Half) (f : Boot → Boot) : ((s.modBoot h f).half h).hbm = (s.half h).hbm := by
  cases h <;> rfl
@[simp] theorem modBoot_half_link (s : State) (h : Half) (f : Boot → Boot) : ((s.modBoot h f).half h).link = (s.half h).link := by
  cases h <;> rfl
@[simp] theorem modBoot_half_prot (s : State) (h : Half) (f : Boot → Boot) : ((s.modBoot h f).half h).prot = (s.half h).prot := by
  cases h <;> rfl
@[simp] theorem modBoot_half_hzn (s : State) (h : Half) (f : Boot → Boot) : ((s.modBoot h f).half h).hzn = (s.half h).hzn := by
  cases h <;> rfl
@[simp] theorem modBoot_half_isl (s : State) (h : Half) (f : Boot → Boot) : ((s.modBoot h f).half h).isl = (s.half h).isl := by
  cases h <;> rfl
@[simp] theorem modBoot_half_zen (s : State) (h : Half) (f : Boot → Boot) : ((s.modBoot h f).half h).zen = (s.half h).zen := by
  cases h <;> rfl
@[simp] theorem modBoot_half_session (s : State) (h : Half) (f : Boot → Boot) : ((s.modBoot h f).half h).session = (s.half h).session := by
  cases h <;> rfl
@[simp] theorem modBoot_half_chans (s : State) (h : Half) (f : Boot → Boot) : ((s.modBoot h f).half h).chans = (s.half h).chans := by
  cases h <;> rfl
@[simp] theorem modBoot_half_rotor (s : State) (h : Half) (f : Boot → Boot) : ((s.modBoot h f).half h).rotor = (s.half h).rotor := by
  cases h <;> rfl
@[simp] theorem modBoot_half_can (s : State) (h : Half) (f : Boot → Boot) : ((s.modBoot h f).half h).can = (s.half h).can := by
  cases h <;> rfl
@[simp] theorem modBoot_half_pcie (s : State) (h : Half) (f : Boot → Boot) : ((s.modBoot h f).half h).pcie = (s.half h).pcie := by
  cases h <;> rfl
@[simp] theorem modBoot_half_boot (s : State) (h : Half) (f : Boot → Boot) : ((s.modBoot h f).half h).boot = f (s.half h).boot := by
  cases h <;> rfl
@[simp] theorem modBoot_other (s : State) (h : Half) (f : Boot → Boot) :
    (s.modBoot h f).half (otherHalf h) = s.half (otherHalf h) := by cases h <;> rfl
@[simp] theorem modBoot_of_other (s : State) (h : Half) (f : Boot → Boot) :
    (s.modBoot (otherHalf h) f).half h = s.half h := by cases h <;> rfl

/-! ### advance -/

@[simp] theorem advance_part (t : Nat) (s : State) : (s.advance t).part = s.part := rfl
@[simp] theorem advance_mem (t : Nat) (s : State) : (s.advance t).mem = s.mem := rfl
@[simp] theorem advance_held (t : Nat) (s : State) : (s.advance t).held = s.held := rfl
@[simp] theorem advance_undef (t : Nat) (s : State) : (s.advance t).undef = s.undef := rfl
@[simp] theorem advance_hostMem (t : Nat) (s : State) : (s.advance t).hostMem = s.hostMem := rfl
@[simp] theorem advance_sdio (t : Nat) (s : State) : (s.advance t).sdio = s.sdio := rfl
@[simp] theorem advance_tally (t : Nat) (s : State) : (s.advance t).tally = s.tally := rfl
@[simp] theorem advance_sdioWorld (t : Nat) (s : State) : (s.advance t).sdioWorld = s.sdioWorld := rfl
@[simp] theorem advance_canAWorld (t : Nat) (s : State) : (s.advance t).canAWorld = s.canAWorld := rfl
@[simp] theorem advance_canBWorld (t : Nat) (s : State) : (s.advance t).canBWorld = s.canBWorld := rfl
@[simp] theorem advance_pkgLimit (t : Nat) (s : State) : (s.advance t).pkgLimit = s.pkgLimit := rfl
@[simp] theorem advance_uniqueId (t : Nat) (s : State) : (s.advance t).uniqueId = s.uniqueId := rfl
@[simp] theorem advance_free (t : Nat) (s : State) : (s.advance t).free = s.free := rfl
@[simp] theorem advance_pending (t : Nat) (s : State) : (s.advance t).pending = s.pending := rfl
@[simp] theorem advance_half (t : Nat) (s : State) (h : Half) : (s.advance t).half h = s.half h := by cases h <;> rfl
theorem advance_now (t : Nat) (s : State) : (s.advance t).now = max s.now t := rfl
theorem now_le_advance (t : Nat) (s : State) : s.now ≤ (s.advance t).now := Nat.le_max_left _ _

/-! ### Tables, jobs, banks, streams, rings, units and slabs -/

@[simp] theorem tget_tput {α : Type} (d : α) (t : Table α) (k : Nat) (v : α) : tget d (tput t k v) k = v := by
  induction t with
  | nil => simp [tput, tget]
  | cons p r ih =>
    obtain ⟨j, w⟩ := p
    simp only [tput]
    split
    · simp [tget]
    · split
      · simp [tget]
      · rename_i h1 h2
        simp [tget, h1, h2, ih]

theorem tget_tput_ne {α : Type} (d : α) (t : Table α) {k j : Nat} (v : α) (h : j ≠ k) : tget d (tput t k v) j = tget d t j := by
  induction t with
  | nil => simp [tput, tget, h]
  | cons p r ih =>
    obtain ⟨i, w⟩ := p
    simp only [tput]
    split
    · simp only [tget, h, if_false]
      split
      · rw [if_pos (by omega)]
      · rfl
    · split
      · subst_vars
        simp only [tget, h, if_false]
      · simp only [tget, ih]

@[simp] theorem tget_tmod {α : Type} (d : α) (t : Table α) (k : Nat) (f : α → α) : tget d (tmod d t k f) k = f (tget d t k) :=
  tget_tput d t k _

theorem tget_tmod_ne {α : Type} (d e : α) (t : Table α) {k j : Nat} (f : α → α) (h : j ≠ k) :
    tget d (tmod e t k f) j = tget d t j := tget_tput_ne d t _ h

/-- A table read where every entry has been changed by one function that keeps the default. -/
theorem tget_map {α : Type} (d : α) (t : Table α) (k : Nat) (f : α → α) (hd : f d = d) :
    tget d (t.map (fun p => (p.1, f p.2))) k = f (tget d t k) := by
  induction t with
  | nil => simp [tget, hd]
  | cons p r ih =>
    obtain ⟨j, w⟩ := p
    simp only [List.map_cons, tget, ih]
    split
    · exact hd.symm
    · split <;> rfl

@[simp] theorem modJob_job (s : State) (h : Half) (k : Nat) (f : Job → Job) : (s.modJob h k f).job h k = f (s.job h k) := by
  cases h <;> simp [State.modJob, State.job]

theorem modJob_job_ne (s : State) (h : Half) {k j : Nat} (f : Job → Job) (hn : j ≠ k) :
    (s.modJob h k f).job h j = s.job h j := by
  cases h <;> simp [State.modJob, State.job, tget_tmod_ne _ _ _ _ hn]

@[simp] theorem modJob_now (s : State) (h : Half) (k : Nat) (f : Job → Job) : (s.modJob h k f).now = s.now := by cases h <;> rfl
@[simp] theorem modJob_part (s : State) (h : Half) (k : Nat) (f : Job → Job) : (s.modJob h k f).part = s.part := by cases h <;> rfl
@[simp] theorem modJob_mem (s : State) (h : Half) (k : Nat) (f : Job → Job) : (s.modJob h k f).mem = s.mem := by cases h <;> rfl
@[simp] theorem modJob_held (s : State) (h : Half) (k : Nat) (f : Job → Job) : (s.modJob h k f).held = s.held := by cases h <;> rfl
@[simp] theorem modJob_undef (s : State) (h : Half) (k : Nat) (f : Job → Job) : (s.modJob h k f).undef = s.undef := by cases h <;> rfl
@[simp] theorem modJob_hostMem (s : State) (h : Half) (k : Nat) (f : Job → Job) : (s.modJob h k f).hostMem = s.hostMem := by cases h <;> rfl
@[simp] theorem modJob_sdio (s : State) (h : Half) (k : Nat) (f : Job → Job) : (s.modJob h k f).sdio = s.sdio := by cases h <;> rfl
@[simp] theorem modJob_tally (s : State) (h : Half) (k : Nat) (f : Job → Job) : (s.modJob h k f).tally = s.tally := by cases h <;> rfl
@[simp] theorem modJob_sdioWorld (s : State) (h : Half) (k : Nat) (f : Job → Job) : (s.modJob h k f).sdioWorld = s.sdioWorld := by cases h <;> rfl
@[simp] theorem modJob_canAWorld (s : State) (h : Half) (k : Nat) (f : Job → Job) : (s.modJob h k f).canAWorld = s.canAWorld := by cases h <;> rfl
@[simp] theorem modJob_canBWorld (s : State) (h : Half) (k : Nat) (f : Job → Job) : (s.modJob h k f).canBWorld = s.canBWorld := by cases h <;> rfl
@[simp] theorem modJob_pkgLimit (s : State) (h : Half) (k : Nat) (f : Job → Job) : (s.modJob h k f).pkgLimit = s.pkgLimit := by cases h <;> rfl
@[simp] theorem modJob_uniqueId (s : State) (h : Half) (k : Nat) (f : Job → Job) : (s.modJob h k f).uniqueId = s.uniqueId := by cases h <;> rfl
@[simp] theorem modJob_free (s : State) (h : Half) (k : Nat) (f : Job → Job) : (s.modJob h k f).free = s.free := by cases h <;> rfl
@[simp] theorem modJob_pending (s : State) (h : Half) (k : Nat) (f : Job → Job) : (s.modJob h k f).pending = s.pending := by cases h <;> rfl
@[simp] theorem modJob_half_dolly (s : State) (h : Half) (k : Nat) (f : Job → Job) :
    ((s.modJob h k f).half h).dolly = (s.half h).dolly := by cases h <;> rfl
@[simp] theorem modJob_half_hbm (s : State) (h : Half) (k : Nat) (f : Job → Job) :
    ((s.modJob h k f).half h).hbm = (s.half h).hbm := by cases h <;> rfl
@[simp] theorem modJob_half_link (s : State) (h : Half) (k : Nat) (f : Job → Job) :
    ((s.modJob h k f).half h).link = (s.half h).link := by cases h <;> rfl
@[simp] theorem modJob_half_prot (s : State) (h : Half) (k : Nat) (f : Job → Job) :
    ((s.modJob h k f).half h).prot = (s.half h).prot := by cases h <;> rfl
@[simp] theorem modJob_half_hzn (s : State) (h : Half) (k : Nat) (f : Job → Job) :
    ((s.modJob h k f).half h).hzn = (s.half h).hzn := by cases h <;> rfl
@[simp] theorem modJob_half_isl (s : State) (h : Half) (k : Nat) (f : Job → Job) :
    ((s.modJob h k f).half h).isl = (s.half h).isl := by cases h <;> rfl
@[simp] theorem modJob_half_zen (s : State) (h : Half) (k : Nat) (f : Job → Job) :
    ((s.modJob h k f).half h).zen = (s.half h).zen := by cases h <;> rfl
@[simp] theorem modJob_half_session (s : State) (h : Half) (k : Nat) (f : Job → Job) :
    ((s.modJob h k f).half h).session = (s.half h).session := by cases h <;> rfl
@[simp] theorem modJob_half_chans (s : State) (h : Half) (k : Nat) (f : Job → Job) :
    ((s.modJob h k f).half h).chans = (s.half h).chans := by cases h <;> rfl
@[simp] theorem modJob_half_rotor (s : State) (h : Half) (k : Nat) (f : Job → Job) :
    ((s.modJob h k f).half h).rotor = (s.half h).rotor := by cases h <;> rfl
@[simp] theorem modJob_half_can (s : State) (h : Half) (k : Nat) (f : Job → Job) :
    ((s.modJob h k f).half h).can = (s.half h).can := by cases h <;> rfl
@[simp] theorem modJob_half_pcie (s : State) (h : Half) (k : Nat) (f : Job → Job) :
    ((s.modJob h k f).half h).pcie = (s.half h).pcie := by cases h <;> rfl
@[simp] theorem modJob_half_boot (s : State) (h : Half) (k : Nat) (f : Job → Job) :
    ((s.modJob h k f).half h).boot = (s.half h).boot := by cases h <;> rfl
@[simp] theorem modJob_half_disp (s : State) (h : Half) (k : Nat) (f : Job → Job) :
    ((s.modJob h k f).half h).disp = { (s.half h).disp with jobs := tmod {} (s.half h).disp.jobs k f } := by cases h <;> rfl
@[simp] theorem modJob_other (s : State) (h : Half) (k : Nat) (f : Job → Job) :
    (s.modJob h k f).half (otherHalf h) = s.half (otherHalf h) := by cases h <;> rfl

@[simp] theorem modBank_bank (s : State) (h : Half) (k : Nat) (f : Bank → Bank) : (s.modBank h k f).bank h k = f (s.bank h k) := by
  cases h <;> simp [State.modBank, State.bank]

theorem modBank_bank_ne (s : State) (h : Half) {k j : Nat} (f : Bank → Bank) (hn : j ≠ k) :
    (s.modBank h k f).bank h j = s.bank h j := by
  cases h <;> simp [State.modBank, State.bank, tget_tmod_ne _ _ _ _ hn]

@[simp] theorem modBank_now (s : State) (h : Half) (k : Nat) (f : Bank → Bank) : (s.modBank h k f).now = s.now := by cases h <;> rfl
@[simp] theorem modBank_part (s : State) (h : Half) (k : Nat) (f : Bank → Bank) : (s.modBank h k f).part = s.part := by cases h <;> rfl
@[simp] theorem modBank_mem (s : State) (h : Half) (k : Nat) (f : Bank → Bank) : (s.modBank h k f).mem = s.mem := by cases h <;> rfl
@[simp] theorem modBank_held (s : State) (h : Half) (k : Nat) (f : Bank → Bank) : (s.modBank h k f).held = s.held := by cases h <;> rfl
@[simp] theorem modBank_undef (s : State) (h : Half) (k : Nat) (f : Bank → Bank) : (s.modBank h k f).undef = s.undef := by cases h <;> rfl
@[simp] theorem modBank_hostMem (s : State) (h : Half) (k : Nat) (f : Bank → Bank) : (s.modBank h k f).hostMem = s.hostMem := by cases h <;> rfl
@[simp] theorem modBank_sdio (s : State) (h : Half) (k : Nat) (f : Bank → Bank) : (s.modBank h k f).sdio = s.sdio := by cases h <;> rfl
@[simp] theorem modBank_tally (s : State) (h : Half) (k : Nat) (f : Bank → Bank) : (s.modBank h k f).tally = s.tally := by cases h <;> rfl
@[simp] theorem modBank_sdioWorld (s : State) (h : Half) (k : Nat) (f : Bank → Bank) : (s.modBank h k f).sdioWorld = s.sdioWorld := by cases h <;> rfl
@[simp] theorem modBank_canAWorld (s : State) (h : Half) (k : Nat) (f : Bank → Bank) : (s.modBank h k f).canAWorld = s.canAWorld := by cases h <;> rfl
@[simp] theorem modBank_canBWorld (s : State) (h : Half) (k : Nat) (f : Bank → Bank) : (s.modBank h k f).canBWorld = s.canBWorld := by cases h <;> rfl
@[simp] theorem modBank_pkgLimit (s : State) (h : Half) (k : Nat) (f : Bank → Bank) : (s.modBank h k f).pkgLimit = s.pkgLimit := by cases h <;> rfl
@[simp] theorem modBank_uniqueId (s : State) (h : Half) (k : Nat) (f : Bank → Bank) : (s.modBank h k f).uniqueId = s.uniqueId := by cases h <;> rfl
@[simp] theorem modBank_free (s : State) (h : Half) (k : Nat) (f : Bank → Bank) : (s.modBank h k f).free = s.free := by cases h <;> rfl
@[simp] theorem modBank_pending (s : State) (h : Half) (k : Nat) (f : Bank → Bank) : (s.modBank h k f).pending = s.pending := by cases h <;> rfl
@[simp] theorem modBank_half_disp (s : State) (h : Half) (k : Nat) (f : Bank → Bank) :
    ((s.modBank h k f).half h).disp = (s.half h).disp := by cases h <;> rfl
@[simp] theorem modBank_half_hbm (s : State) (h : Half) (k : Nat) (f : Bank → Bank) :
    ((s.modBank h k f).half h).hbm = (s.half h).hbm := by cases h <;> rfl
@[simp] theorem modBank_half_link (s : State) (h : Half) (k : Nat) (f : Bank → Bank) :
    ((s.modBank h k f).half h).link = (s.half h).link := by cases h <;> rfl
@[simp] theorem modBank_half_prot (s : State) (h : Half) (k : Nat) (f : Bank → Bank) :
    ((s.modBank h k f).half h).prot = (s.half h).prot := by cases h <;> rfl
@[simp] theorem modBank_half_hzn (s : State) (h : Half) (k : Nat) (f : Bank → Bank) :
    ((s.modBank h k f).half h).hzn = (s.half h).hzn := by cases h <;> rfl
@[simp] theorem modBank_half_isl (s : State) (h : Half) (k : Nat) (f : Bank → Bank) :
    ((s.modBank h k f).half h).isl = (s.half h).isl := by cases h <;> rfl
@[simp] theorem modBank_half_zen (s : State) (h : Half) (k : Nat) (f : Bank → Bank) :
    ((s.modBank h k f).half h).zen = (s.half h).zen := by cases h <;> rfl
@[simp] theorem modBank_half_session (s : State) (h : Half) (k : Nat) (f : Bank → Bank) :
    ((s.modBank h k f).half h).session = (s.half h).session := by cases h <;> rfl
@[simp] theorem modBank_half_chans (s : State) (h : Half) (k : Nat) (f : Bank → Bank) :
    ((s.modBank h k f).half h).chans = (s.half h).chans := by cases h <;> rfl
@[simp] theorem modBank_half_rotor (s : State) (h : Half) (k : Nat) (f : Bank → Bank) :
    ((s.modBank h k f).half h).rotor = (s.half h).rotor := by cases h <;> rfl
@[simp] theorem modBank_half_can (s : State) (h : Half) (k : Nat) (f : Bank → Bank) :
    ((s.modBank h k f).half h).can = (s.half h).can := by cases h <;> rfl
@[simp] theorem modBank_half_pcie (s : State) (h : Half) (k : Nat) (f : Bank → Bank) :
    ((s.modBank h k f).half h).pcie = (s.half h).pcie := by cases h <;> rfl
@[simp] theorem modBank_half_boot (s : State) (h : Half) (k : Nat) (f : Bank → Bank) :
    ((s.modBank h k f).half h).boot = (s.half h).boot := by cases h <;> rfl
@[simp] theorem modBank_half_dolly (s : State) (h : Half) (k : Nat) (f : Bank → Bank) :
    ((s.modBank h k f).half h).dolly = { (s.half h).dolly with banks := tmod {} (s.half h).dolly.banks k f } := by cases h <;> rfl
@[simp] theorem modBank_other (s : State) (h : Half) (k : Nat) (f : Bank → Bank) :
    (s.modBank h k f).half (otherHalf h) = s.half (otherHalf h) := by cases h <;> rfl

@[simp] theorem modStream_stream (s : State) (h : Half) (k : Nat) (f : Stream → Stream) : (s.modStream h k f).stream h k = f (s.stream h k) := by
  cases h <;> simp [State.modStream, State.stream]

theorem modStream_stream_ne (s : State) (h : Half) {k j : Nat} (f : Stream → Stream) (hn : j ≠ k) :
    (s.modStream h k f).stream h j = s.stream h j := by
  cases h <;> simp [State.modStream, State.stream, tget_tmod_ne _ _ _ _ hn]

@[simp] theorem modStream_now (s : State) (h : Half) (k : Nat) (f : Stream → Stream) : (s.modStream h k f).now = s.now := by cases h <;> rfl
@[simp] theorem modStream_part (s : State) (h : Half) (k : Nat) (f : Stream → Stream) : (s.modStream h k f).part = s.part := by cases h <;> rfl
@[simp] theorem modStream_mem (s : State) (h : Half) (k : Nat) (f : Stream → Stream) : (s.modStream h k f).mem = s.mem := by cases h <;> rfl
@[simp] theorem modStream_held (s : State) (h : Half) (k : Nat) (f : Stream → Stream) : (s.modStream h k f).held = s.held := by cases h <;> rfl
@[simp] theorem modStream_undef (s : State) (h : Half) (k : Nat) (f : Stream → Stream) : (s.modStream h k f).undef = s.undef := by cases h <;> rfl
@[simp] theorem modStream_hostMem (s : State) (h : Half) (k : Nat) (f : Stream → Stream) : (s.modStream h k f).hostMem = s.hostMem := by cases h <;> rfl
@[simp] theorem modStream_sdio (s : State) (h : Half) (k : Nat) (f : Stream → Stream) : (s.modStream h k f).sdio = s.sdio := by cases h <;> rfl
@[simp] theorem modStream_tally (s : State) (h : Half) (k : Nat) (f : Stream → Stream) : (s.modStream h k f).tally = s.tally := by cases h <;> rfl
@[simp] theorem modStream_sdioWorld (s : State) (h : Half) (k : Nat) (f : Stream → Stream) : (s.modStream h k f).sdioWorld = s.sdioWorld := by cases h <;> rfl
@[simp] theorem modStream_canAWorld (s : State) (h : Half) (k : Nat) (f : Stream → Stream) : (s.modStream h k f).canAWorld = s.canAWorld := by cases h <;> rfl
@[simp] theorem modStream_canBWorld (s : State) (h : Half) (k : Nat) (f : Stream → Stream) : (s.modStream h k f).canBWorld = s.canBWorld := by cases h <;> rfl
@[simp] theorem modStream_pkgLimit (s : State) (h : Half) (k : Nat) (f : Stream → Stream) : (s.modStream h k f).pkgLimit = s.pkgLimit := by cases h <;> rfl
@[simp] theorem modStream_uniqueId (s : State) (h : Half) (k : Nat) (f : Stream → Stream) : (s.modStream h k f).uniqueId = s.uniqueId := by cases h <;> rfl
@[simp] theorem modStream_free (s : State) (h : Half) (k : Nat) (f : Stream → Stream) : (s.modStream h k f).free = s.free := by cases h <;> rfl
@[simp] theorem modStream_pending (s : State) (h : Half) (k : Nat) (f : Stream → Stream) : (s.modStream h k f).pending = s.pending := by cases h <;> rfl
@[simp] theorem modStream_half_disp (s : State) (h : Half) (k : Nat) (f : Stream → Stream) :
    ((s.modStream h k f).half h).disp = (s.half h).disp := by cases h <;> rfl
@[simp] theorem modStream_half_dolly (s : State) (h : Half) (k : Nat) (f : Stream → Stream) :
    ((s.modStream h k f).half h).dolly = (s.half h).dolly := by cases h <;> rfl
@[simp] theorem modStream_half_hbm (s : State) (h : Half) (k : Nat) (f : Stream → Stream) :
    ((s.modStream h k f).half h).hbm = (s.half h).hbm := by cases h <;> rfl
@[simp] theorem modStream_half_link (s : State) (h : Half) (k : Nat) (f : Stream → Stream) :
    ((s.modStream h k f).half h).link = (s.half h).link := by cases h <;> rfl
@[simp] theorem modStream_half_prot (s : State) (h : Half) (k : Nat) (f : Stream → Stream) :
    ((s.modStream h k f).half h).prot = (s.half h).prot := by cases h <;> rfl
@[simp] theorem modStream_half_isl (s : State) (h : Half) (k : Nat) (f : Stream → Stream) :
    ((s.modStream h k f).half h).isl = (s.half h).isl := by cases h <;> rfl
@[simp] theorem modStream_half_zen (s : State) (h : Half) (k : Nat) (f : Stream → Stream) :
    ((s.modStream h k f).half h).zen = (s.half h).zen := by cases h <;> rfl
@[simp] theorem modStream_half_session (s : State) (h : Half) (k : Nat) (f : Stream → Stream) :
    ((s.modStream h k f).half h).session = (s.half h).session := by cases h <;> rfl
@[simp] theorem modStream_half_chans (s : State) (h : Half) (k : Nat) (f : Stream → Stream) :
    ((s.modStream h k f).half h).chans = (s.half h).chans := by cases h <;> rfl
@[simp] theorem modStream_half_rotor (s : State) (h : Half) (k : Nat) (f : Stream → Stream) :
    ((s.modStream h k f).half h).rotor = (s.half h).rotor := by cases h <;> rfl
@[simp] theorem modStream_half_can (s : State) (h : Half) (k : Nat) (f : Stream → Stream) :
    ((s.modStream h k f).half h).can = (s.half h).can := by cases h <;> rfl
@[simp] theorem modStream_half_pcie (s : State) (h : Half) (k : Nat) (f : Stream → Stream) :
    ((s.modStream h k f).half h).pcie = (s.half h).pcie := by cases h <;> rfl
@[simp] theorem modStream_half_boot (s : State) (h : Half) (k : Nat) (f : Stream → Stream) :
    ((s.modStream h k f).half h).boot = (s.half h).boot := by cases h <;> rfl
@[simp] theorem modStream_half_hzn (s : State) (h : Half) (k : Nat) (f : Stream → Stream) :
    ((s.modStream h k f).half h).hzn = { (s.half h).hzn with streams := tmod {} (s.half h).hzn.streams k f } := by cases h <;> rfl
@[simp] theorem modStream_other (s : State) (h : Half) (k : Nat) (f : Stream → Stream) :
    (s.modStream h k f).half (otherHalf h) = s.half (otherHalf h) := by cases h <;> rfl

@[simp] theorem modRing_ring (s : State) (h : Half) (k : Nat) (f : Ring → Ring) : (s.modRing h k f).ring h k = f (s.ring h k) := by
  cases h <;> simp [State.modRing, State.ring]

theorem modRing_ring_ne (s : State) (h : Half) {k j : Nat} (f : Ring → Ring) (hn : j ≠ k) :
    (s.modRing h k f).ring h j = s.ring h j := by
  cases h <;> simp [State.modRing, State.ring, tget_tmod_ne _ _ _ _ hn]

@[simp] theorem modRing_now (s : State) (h : Half) (k : Nat) (f : Ring → Ring) : (s.modRing h k f).now = s.now := by cases h <;> rfl
@[simp] theorem modRing_part (s : State) (h : Half) (k : Nat) (f : Ring → Ring) : (s.modRing h k f).part = s.part := by cases h <;> rfl
@[simp] theorem modRing_mem (s : State) (h : Half) (k : Nat) (f : Ring → Ring) : (s.modRing h k f).mem = s.mem := by cases h <;> rfl
@[simp] theorem modRing_held (s : State) (h : Half) (k : Nat) (f : Ring → Ring) : (s.modRing h k f).held = s.held := by cases h <;> rfl
@[simp] theorem modRing_undef (s : State) (h : Half) (k : Nat) (f : Ring → Ring) : (s.modRing h k f).undef = s.undef := by cases h <;> rfl
@[simp] theorem modRing_hostMem (s : State) (h : Half) (k : Nat) (f : Ring → Ring) : (s.modRing h k f).hostMem = s.hostMem := by cases h <;> rfl
@[simp] theorem modRing_sdio (s : State) (h : Half) (k : Nat) (f : Ring → Ring) : (s.modRing h k f).sdio = s.sdio := by cases h <;> rfl
@[simp] theorem modRing_tally (s : State) (h : Half) (k : Nat) (f : Ring → Ring) : (s.modRing h k f).tally = s.tally := by cases h <;> rfl
@[simp] theorem modRing_sdioWorld (s : State) (h : Half) (k : Nat) (f : Ring → Ring) : (s.modRing h k f).sdioWorld = s.sdioWorld := by cases h <;> rfl
@[simp] theorem modRing_canAWorld (s : State) (h : Half) (k : Nat) (f : Ring → Ring) : (s.modRing h k f).canAWorld = s.canAWorld := by cases h <;> rfl
@[simp] theorem modRing_canBWorld (s : State) (h : Half) (k : Nat) (f : Ring → Ring) : (s.modRing h k f).canBWorld = s.canBWorld := by cases h <;> rfl
@[simp] theorem modRing_pkgLimit (s : State) (h : Half) (k : Nat) (f : Ring → Ring) : (s.modRing h k f).pkgLimit = s.pkgLimit := by cases h <;> rfl
@[simp] theorem modRing_uniqueId (s : State) (h : Half) (k : Nat) (f : Ring → Ring) : (s.modRing h k f).uniqueId = s.uniqueId := by cases h <;> rfl
@[simp] theorem modRing_free (s : State) (h : Half) (k : Nat) (f : Ring → Ring) : (s.modRing h k f).free = s.free := by cases h <;> rfl
@[simp] theorem modRing_pending (s : State) (h : Half) (k : Nat) (f : Ring → Ring) : (s.modRing h k f).pending = s.pending := by cases h <;> rfl
@[simp] theorem modRing_half_disp (s : State) (h : Half) (k : Nat) (f : Ring → Ring) :
    ((s.modRing h k f).half h).disp = (s.half h).disp := by cases h <;> rfl
@[simp] theorem modRing_half_dolly (s : State) (h : Half) (k : Nat) (f : Ring → Ring) :
    ((s.modRing h k f).half h).dolly = (s.half h).dolly := by cases h <;> rfl
@[simp] theorem modRing_half_hbm (s : State) (h : Half) (k : Nat) (f : Ring → Ring) :
    ((s.modRing h k f).half h).hbm = (s.half h).hbm := by cases h <;> rfl
@[simp] theorem modRing_half_link (s : State) (h : Half) (k : Nat) (f : Ring → Ring) :
    ((s.modRing h k f).half h).link = (s.half h).link := by cases h <;> rfl
@[simp] theorem modRing_half_prot (s : State) (h : Half) (k : Nat) (f : Ring → Ring) :
    ((s.modRing h k f).half h).prot = (s.half h).prot := by cases h <;> rfl
@[simp] theorem modRing_half_isl (s : State) (h : Half) (k : Nat) (f : Ring → Ring) :
    ((s.modRing h k f).half h).isl = (s.half h).isl := by cases h <;> rfl
@[simp] theorem modRing_half_zen (s : State) (h : Half) (k : Nat) (f : Ring → Ring) :
    ((s.modRing h k f).half h).zen = (s.half h).zen := by cases h <;> rfl
@[simp] theorem modRing_half_session (s : State) (h : Half) (k : Nat) (f : Ring → Ring) :
    ((s.modRing h k f).half h).session = (s.half h).session := by cases h <;> rfl
@[simp] theorem modRing_half_chans (s : State) (h : Half) (k : Nat) (f : Ring → Ring) :
    ((s.modRing h k f).half h).chans = (s.half h).chans := by cases h <;> rfl
@[simp] theorem modRing_half_rotor (s : State) (h : Half) (k : Nat) (f : Ring → Ring) :
    ((s.modRing h k f).half h).rotor = (s.half h).rotor := by cases h <;> rfl
@[simp] theorem modRing_half_can (s : State) (h : Half) (k : Nat) (f : Ring → Ring) :
    ((s.modRing h k f).half h).can = (s.half h).can := by cases h <;> rfl
@[simp] theorem modRing_half_pcie (s : State) (h : Half) (k : Nat) (f : Ring → Ring) :
    ((s.modRing h k f).half h).pcie = (s.half h).pcie := by cases h <;> rfl
@[simp] theorem modRing_half_boot (s : State) (h : Half) (k : Nat) (f : Ring → Ring) :
    ((s.modRing h k f).half h).boot = (s.half h).boot := by cases h <;> rfl
@[simp] theorem modRing_half_hzn (s : State) (h : Half) (k : Nat) (f : Ring → Ring) :
    ((s.modRing h k f).half h).hzn = { (s.half h).hzn with rings := tmod {} (s.half h).hzn.rings k f } := by cases h <;> rfl
@[simp] theorem modRing_other (s : State) (h : Half) (k : Nat) (f : Ring → Ring) :
    (s.modRing h k f).half (otherHalf h) = s.half (otherHalf h) := by cases h <;> rfl

@[simp] theorem modUnit_unit (s : State) (h : Half) (k : Nat) (f : Unit → Unit) : (s.modUnit h k f).unit h k = f (s.unit h k) := by
  cases h <;> simp [State.modUnit, State.unit]

theorem modUnit_unit_ne (s : State) (h : Half) {k j : Nat} (f : Unit → Unit) (hn : j ≠ k) :
    (s.modUnit h k f).unit h j = s.unit h j := by
  cases h <;> simp [State.modUnit, State.unit, tget_tmod_ne _ _ _ _ hn]

@[simp] theorem modUnit_now (s : State) (h : Half) (k : Nat) (f : Unit → Unit) : (s.modUnit h k f).now = s.now := by cases h <;> rfl
@[simp] theorem modUnit_part (s : State) (h : Half) (k : Nat) (f : Unit → Unit) : (s.modUnit h k f).part = s.part := by cases h <;> rfl
@[simp] theorem modUnit_mem (s : State) (h : Half) (k : Nat) (f : Unit → Unit) : (s.modUnit h k f).mem = s.mem := by cases h <;> rfl
@[simp] theorem modUnit_held (s : State) (h : Half) (k : Nat) (f : Unit → Unit) : (s.modUnit h k f).held = s.held := by cases h <;> rfl
@[simp] theorem modUnit_undef (s : State) (h : Half) (k : Nat) (f : Unit → Unit) : (s.modUnit h k f).undef = s.undef := by cases h <;> rfl
@[simp] theorem modUnit_hostMem (s : State) (h : Half) (k : Nat) (f : Unit → Unit) : (s.modUnit h k f).hostMem = s.hostMem := by cases h <;> rfl
@[simp] theorem modUnit_sdio (s : State) (h : Half) (k : Nat) (f : Unit → Unit) : (s.modUnit h k f).sdio = s.sdio := by cases h <;> rfl
@[simp] theorem modUnit_tally (s : State) (h : Half) (k : Nat) (f : Unit → Unit) : (s.modUnit h k f).tally = s.tally := by cases h <;> rfl
@[simp] theorem modUnit_sdioWorld (s : State) (h : Half) (k : Nat) (f : Unit → Unit) : (s.modUnit h k f).sdioWorld = s.sdioWorld := by cases h <;> rfl
@[simp] theorem modUnit_canAWorld (s : State) (h : Half) (k : Nat) (f : Unit → Unit) : (s.modUnit h k f).canAWorld = s.canAWorld := by cases h <;> rfl
@[simp] theorem modUnit_canBWorld (s : State) (h : Half) (k : Nat) (f : Unit → Unit) : (s.modUnit h k f).canBWorld = s.canBWorld := by cases h <;> rfl
@[simp] theorem modUnit_pkgLimit (s : State) (h : Half) (k : Nat) (f : Unit → Unit) : (s.modUnit h k f).pkgLimit = s.pkgLimit := by cases h <;> rfl
@[simp] theorem modUnit_uniqueId (s : State) (h : Half) (k : Nat) (f : Unit → Unit) : (s.modUnit h k f).uniqueId = s.uniqueId := by cases h <;> rfl
@[simp] theorem modUnit_free (s : State) (h : Half) (k : Nat) (f : Unit → Unit) : (s.modUnit h k f).free = s.free := by cases h <;> rfl
@[simp] theorem modUnit_pending (s : State) (h : Half) (k : Nat) (f : Unit → Unit) : (s.modUnit h k f).pending = s.pending := by cases h <;> rfl
@[simp] theorem modUnit_half_disp (s : State) (h : Half) (k : Nat) (f : Unit → Unit) :
    ((s.modUnit h k f).half h).disp = (s.half h).disp := by cases h <;> rfl
@[simp] theorem modUnit_half_dolly (s : State) (h : Half) (k : Nat) (f : Unit → Unit) :
    ((s.modUnit h k f).half h).dolly = (s.half h).dolly := by cases h <;> rfl
@[simp] theorem modUnit_half_hbm (s : State) (h : Half) (k : Nat) (f : Unit → Unit) :
    ((s.modUnit h k f).half h).hbm = (s.half h).hbm := by cases h <;> rfl
@[simp] theorem modUnit_half_link (s : State) (h : Half) (k : Nat) (f : Unit → Unit) :
    ((s.modUnit h k f).half h).link = (s.half h).link := by cases h <;> rfl
@[simp] theorem modUnit_half_prot (s : State) (h : Half) (k : Nat) (f : Unit → Unit) :
    ((s.modUnit h k f).half h).prot = (s.half h).prot := by cases h <;> rfl
@[simp] theorem modUnit_half_hzn (s : State) (h : Half) (k : Nat) (f : Unit → Unit) :
    ((s.modUnit h k f).half h).hzn = (s.half h).hzn := by cases h <;> rfl
@[simp] theorem modUnit_half_isl (s : State) (h : Half) (k : Nat) (f : Unit → Unit) :
    ((s.modUnit h k f).half h).isl = (s.half h).isl := by cases h <;> rfl
@[simp] theorem modUnit_half_session (s : State) (h : Half) (k : Nat) (f : Unit → Unit) :
    ((s.modUnit h k f).half h).session = (s.half h).session := by cases h <;> rfl
@[simp] theorem modUnit_half_chans (s : State) (h : Half) (k : Nat) (f : Unit → Unit) :
    ((s.modUnit h k f).half h).chans = (s.half h).chans := by cases h <;> rfl
@[simp] theorem modUnit_half_rotor (s : State) (h : Half) (k : Nat) (f : Unit → Unit) :
    ((s.modUnit h k f).half h).rotor = (s.half h).rotor := by cases h <;> rfl
@[simp] theorem modUnit_half_can (s : State) (h : Half) (k : Nat) (f : Unit → Unit) :
    ((s.modUnit h k f).half h).can = (s.half h).can := by cases h <;> rfl
@[simp] theorem modUnit_half_pcie (s : State) (h : Half) (k : Nat) (f : Unit → Unit) :
    ((s.modUnit h k f).half h).pcie = (s.half h).pcie := by cases h <;> rfl
@[simp] theorem modUnit_half_boot (s : State) (h : Half) (k : Nat) (f : Unit → Unit) :
    ((s.modUnit h k f).half h).boot = (s.half h).boot := by cases h <;> rfl
@[simp] theorem modUnit_half_zen (s : State) (h : Half) (k : Nat) (f : Unit → Unit) :
    ((s.modUnit h k f).half h).zen = { (s.half h).zen with units := tmod {} (s.half h).zen.units k f } := by cases h <;> rfl
@[simp] theorem modUnit_other (s : State) (h : Half) (k : Nat) (f : Unit → Unit) :
    (s.modUnit h k f).half (otherHalf h) = s.half (otherHalf h) := by cases h <;> rfl

@[simp] theorem modSlab_slab (s : State) (h : Half) (k : Nat) (f : Slab → Slab) : (s.modSlab h k f).slab h k = f (s.slab h k) := by
  cases h <;> simp [State.modSlab, State.slab]

theorem modSlab_slab_ne (s : State) (h : Half) {k j : Nat} (f : Slab → Slab) (hn : j ≠ k) :
    (s.modSlab h k f).slab h j = s.slab h j := by
  cases h <;> simp [State.modSlab, State.slab, tget_tput_ne _ _ _ hn]

@[simp] theorem modSlab_now (s : State) (h : Half) (k : Nat) (f : Slab → Slab) : (s.modSlab h k f).now = s.now := by cases h <;> rfl
@[simp] theorem modSlab_part (s : State) (h : Half) (k : Nat) (f : Slab → Slab) : (s.modSlab h k f).part = s.part := by cases h <;> rfl
@[simp] theorem modSlab_mem (s : State) (h : Half) (k : Nat) (f : Slab → Slab) : (s.modSlab h k f).mem = s.mem := by cases h <;> rfl
@[simp] theorem modSlab_held (s : State) (h : Half) (k : Nat) (f : Slab → Slab) : (s.modSlab h k f).held = s.held := by cases h <;> rfl
@[simp] theorem modSlab_undef (s : State) (h : Half) (k : Nat) (f : Slab → Slab) : (s.modSlab h k f).undef = s.undef := by cases h <;> rfl
@[simp] theorem modSlab_hostMem (s : State) (h : Half) (k : Nat) (f : Slab → Slab) : (s.modSlab h k f).hostMem = s.hostMem := by cases h <;> rfl
@[simp] theorem modSlab_sdio (s : State) (h : Half) (k : Nat) (f : Slab → Slab) : (s.modSlab h k f).sdio = s.sdio := by cases h <;> rfl
@[simp] theorem modSlab_tally (s : State) (h : Half) (k : Nat) (f : Slab → Slab) : (s.modSlab h k f).tally = s.tally := by cases h <;> rfl
@[simp] theorem modSlab_sdioWorld (s : State) (h : Half) (k : Nat) (f : Slab → Slab) : (s.modSlab h k f).sdioWorld = s.sdioWorld := by cases h <;> rfl
@[simp] theorem modSlab_canAWorld (s : State) (h : Half) (k : Nat) (f : Slab → Slab) : (s.modSlab h k f).canAWorld = s.canAWorld := by cases h <;> rfl
@[simp] theorem modSlab_canBWorld (s : State) (h : Half) (k : Nat) (f : Slab → Slab) : (s.modSlab h k f).canBWorld = s.canBWorld := by cases h <;> rfl
@[simp] theorem modSlab_pkgLimit (s : State) (h : Half) (k : Nat) (f : Slab → Slab) : (s.modSlab h k f).pkgLimit = s.pkgLimit := by cases h <;> rfl
@[simp] theorem modSlab_uniqueId (s : State) (h : Half) (k : Nat) (f : Slab → Slab) : (s.modSlab h k f).uniqueId = s.uniqueId := by cases h <;> rfl
@[simp] theorem modSlab_free (s : State) (h : Half) (k : Nat) (f : Slab → Slab) : (s.modSlab h k f).free = s.free := by cases h <;> rfl
@[simp] theorem modSlab_pending (s : State) (h : Half) (k : Nat) (f : Slab → Slab) : (s.modSlab h k f).pending = s.pending := by cases h <;> rfl

/-! ### Commands of one half -/

theorem onLive_of_live {s : State} {h : Half} (f : State → State) (hl : s.live h = true) : onLive s h f = f s := if_pos hl
theorem onLive_of_not {s : State} {h : Half} (f : State → State) (hl : s.live h = false) : onLive s h f = s := by
  simp [onLive, hl]
theorem onHalf_of_supplied {s : State} {h : Half} (f : State → State) (hl : s.supplied h = true) : onHalf s h f = f s := if_pos hl
theorem onHalf_of_not {s : State} {h : Half} (f : State → State) (hl : s.supplied h = false) : onHalf s h f = s := by
  simp [onHalf, hl]

/-! ### The fault log -/

theorem log_eq (s : State) (h : Half) (e : Event) : s.log h e = s.logWith h e true := rfl

@[simp] theorem logOnly_now (s : State) (h : Half) (e : Event) : (s.logOnly h e).now = s.now := by
  simp only [State.logOnly]; simp
@[simp] theorem logOnly_part (s : State) (h : Half) (e : Event) : (s.logOnly h e).part = s.part := by
  simp only [State.logOnly]; simp
@[simp] theorem logOnly_mem (s : State) (h : Half) (e : Event) : (s.logOnly h e).mem = s.mem := by
  simp only [State.logOnly]; simp
@[simp] theorem logOnly_held (s : State) (h : Half) (e : Event) : (s.logOnly h e).held = s.held := by
  simp only [State.logOnly]; simp
@[simp] theorem logOnly_undef (s : State) (h : Half) (e : Event) : (s.logOnly h e).undef = s.undef := by
  simp only [State.logOnly]; simp
@[simp] theorem logOnly_hostMem (s : State) (h : Half) (e : Event) : (s.logOnly h e).hostMem = s.hostMem := by
  simp only [State.logOnly]; simp
@[simp] theorem logOnly_sdio (s : State) (h : Half) (e : Event) : (s.logOnly h e).sdio = s.sdio := by
  simp only [State.logOnly]; simp
@[simp] theorem logOnly_tally (s : State) (h : Half) (e : Event) : (s.logOnly h e).tally = s.tally := by
  simp only [State.logOnly]; simp
@[simp] theorem logOnly_sdioWorld (s : State) (h : Half) (e : Event) : (s.logOnly h e).sdioWorld = s.sdioWorld := by
  simp only [State.logOnly]; simp
@[simp] theorem logOnly_canAWorld (s : State) (h : Half) (e : Event) : (s.logOnly h e).canAWorld = s.canAWorld := by
  simp only [State.logOnly]; simp
@[simp] theorem logOnly_canBWorld (s : State) (h : Half) (e : Event) : (s.logOnly h e).canBWorld = s.canBWorld := by
  simp only [State.logOnly]; simp
@[simp] theorem logOnly_pkgLimit (s : State) (h : Half) (e : Event) : (s.logOnly h e).pkgLimit = s.pkgLimit := by
  simp only [State.logOnly]; simp
@[simp] theorem logOnly_uniqueId (s : State) (h : Half) (e : Event) : (s.logOnly h e).uniqueId = s.uniqueId := by
  simp only [State.logOnly]; simp
@[simp] theorem logOnly_free (s : State) (h : Half) (e : Event) : (s.logOnly h e).free = s.free := by
  simp only [State.logOnly]; simp
@[simp] theorem logOnly_pending (s : State) (h : Half) (e : Event) : (s.logOnly h e).pending = s.pending := by
  simp only [State.logOnly]; simp
@[simp] theorem logOnly_half_disp (s : State) (h : Half) (e : Event) : ((s.logOnly h e).half h).disp = (s.half h).disp := by
  simp only [State.logOnly]; simp
@[simp] theorem logOnly_half_dolly (s : State) (h : Half) (e : Event) : ((s.logOnly h e).half h).dolly = (s.half h).dolly := by
  simp only [State.logOnly]; simp
@[simp] theorem logOnly_half_hbm (s : State) (h : Half) (e : Event) : ((s.logOnly h e).half h).hbm = (s.half h).hbm := by
  simp only [State.logOnly]; simp
@[simp] theorem logOnly_half_link (s : State) (h : Half) (e : Event) : ((s.logOnly h e).half h).link = (s.half h).link := by
  simp only [State.logOnly]; simp
@[simp] theorem logOnly_half_prot (s : State) (h : Half) (e : Event) : ((s.logOnly h e).half h).prot = (s.half h).prot := by
  simp only [State.logOnly]; simp
@[simp] theorem logOnly_half_hzn (s : State) (h : Half) (e : Event) : ((s.logOnly h e).half h).hzn = (s.half h).hzn := by
  simp only [State.logOnly]; simp
@[simp] theorem logOnly_half_zen (s : State) (h : Half) (e : Event) : ((s.logOnly h e).half h).zen = (s.half h).zen := by
  simp only [State.logOnly]; simp
@[simp] theorem logOnly_half_session (s : State) (h : Half) (e : Event) : ((s.logOnly h e).half h).session = (s.half h).session := by
  simp only [State.logOnly]; simp
@[simp] theorem logOnly_half_chans (s : State) (h : Half) (e : Event) : ((s.logOnly h e).half h).chans = (s.half h).chans := by
  simp only [State.logOnly]; simp
@[simp] theorem logOnly_half_rotor (s : State) (h : Half) (e : Event) : ((s.logOnly h e).half h).rotor = (s.half h).rotor := by
  simp only [State.logOnly]; simp
@[simp] theorem logOnly_half_pcie (s : State) (h : Half) (e : Event) : ((s.logOnly h e).half h).pcie = (s.half h).pcie := by
  simp only [State.logOnly]; simp
@[simp] theorem logOnly_half_boot (s : State) (h : Half) (e : Event) : ((s.logOnly h e).half h).boot = (s.half h).boot := by
  simp only [State.logOnly]; simp
@[simp] theorem logOnly_other (s : State) (h : Half) (e : Event) : (s.logOnly h e).half (otherHalf h) = s.half (otherHalf h) := by
  simp only [State.logOnly]; simp
@[simp] theorem logOnly_of_other (s : State) (h : Half) (e : Event) : (s.logOnly (otherHalf h) e).half h = s.half h := by
  simp only [State.logOnly]; simp
@[simp] theorem logOnly_logCount (s : State) (h : Half) (e : Event) :
    ((s.logOnly h e).half h).isl.logCount = ((s.half h).isl.logCount + 1) % 65536 := by
  simp only [State.logOnly]; simp

@[simp] theorem logWith_now (s : State) (h : Half) (e : Event) (b : Bool) : (s.logWith h e b).now = s.now := by
  simp only [State.logWith, State.logOnly]; split <;> simp
@[simp] theorem logWith_part (s : State) (h : Half) (e : Event) (b : Bool) : (s.logWith h e b).part = s.part := by
  simp only [State.logWith, State.logOnly]; split <;> simp
@[simp] theorem logWith_mem (s : State) (h : Half) (e : Event) (b : Bool) : (s.logWith h e b).mem = s.mem := by
  simp only [State.logWith, State.logOnly]; split <;> simp
@[simp] theorem logWith_held (s : State) (h : Half) (e : Event) (b : Bool) : (s.logWith h e b).held = s.held := by
  simp only [State.logWith, State.logOnly]; split <;> simp
@[simp] theorem logWith_undef (s : State) (h : Half) (e : Event) (b : Bool) : (s.logWith h e b).undef = s.undef := by
  simp only [State.logWith, State.logOnly]; split <;> simp
@[simp] theorem logWith_hostMem (s : State) (h : Half) (e : Event) (b : Bool) : (s.logWith h e b).hostMem = s.hostMem := by
  simp only [State.logWith, State.logOnly]; split <;> simp
@[simp] theorem logWith_sdio (s : State) (h : Half) (e : Event) (b : Bool) : (s.logWith h e b).sdio = s.sdio := by
  simp only [State.logWith, State.logOnly]; split <;> simp
@[simp] theorem logWith_tally (s : State) (h : Half) (e : Event) (b : Bool) : (s.logWith h e b).tally = s.tally := by
  simp only [State.logWith, State.logOnly]; split <;> simp
@[simp] theorem logWith_sdioWorld (s : State) (h : Half) (e : Event) (b : Bool) : (s.logWith h e b).sdioWorld = s.sdioWorld := by
  simp only [State.logWith, State.logOnly]; split <;> simp
@[simp] theorem logWith_canAWorld (s : State) (h : Half) (e : Event) (b : Bool) : (s.logWith h e b).canAWorld = s.canAWorld := by
  simp only [State.logWith, State.logOnly]; split <;> simp
@[simp] theorem logWith_canBWorld (s : State) (h : Half) (e : Event) (b : Bool) : (s.logWith h e b).canBWorld = s.canBWorld := by
  simp only [State.logWith, State.logOnly]; split <;> simp
@[simp] theorem logWith_pkgLimit (s : State) (h : Half) (e : Event) (b : Bool) : (s.logWith h e b).pkgLimit = s.pkgLimit := by
  simp only [State.logWith, State.logOnly]; split <;> simp
@[simp] theorem logWith_uniqueId (s : State) (h : Half) (e : Event) (b : Bool) : (s.logWith h e b).uniqueId = s.uniqueId := by
  simp only [State.logWith, State.logOnly]; split <;> simp
@[simp] theorem logWith_free (s : State) (h : Half) (e : Event) (b : Bool) : (s.logWith h e b).free = s.free := by
  simp only [State.logWith, State.logOnly]; split <;> simp
@[simp] theorem logWith_pending (s : State) (h : Half) (e : Event) (b : Bool) : (s.logWith h e b).pending = s.pending := by
  simp only [State.logWith, State.logOnly]; split <;> simp
@[simp] theorem logWith_half_disp (s : State) (h : Half) (e : Event) (b : Bool) : ((s.logWith h e b).half h).disp = (s.half h).disp := by
  simp only [State.logWith, State.logOnly]; split <;> simp
@[simp] theorem logWith_half_dolly (s : State) (h : Half) (e : Event) (b : Bool) : ((s.logWith h e b).half h).dolly = (s.half h).dolly := by
  simp only [State.logWith, State.logOnly]; split <;> simp
@[simp] theorem logWith_half_hbm (s : State) (h : Half) (e : Event) (b : Bool) : ((s.logWith h e b).half h).hbm = (s.half h).hbm := by
  simp only [State.logWith, State.logOnly]; split <;> simp
@[simp] theorem logWith_half_link (s : State) (h : Half) (e : Event) (b : Bool) : ((s.logWith h e b).half h).link = (s.half h).link := by
  simp only [State.logWith, State.logOnly]; split <;> simp
@[simp] theorem logWith_half_prot (s : State) (h : Half) (e : Event) (b : Bool) : ((s.logWith h e b).half h).prot = (s.half h).prot := by
  simp only [State.logWith, State.logOnly]; split <;> simp
@[simp] theorem logWith_half_hzn (s : State) (h : Half) (e : Event) (b : Bool) : ((s.logWith h e b).half h).hzn = (s.half h).hzn := by
  simp only [State.logWith, State.logOnly]; split <;> simp
@[simp] theorem logWith_half_zen (s : State) (h : Half) (e : Event) (b : Bool) : ((s.logWith h e b).half h).zen = (s.half h).zen := by
  simp only [State.logWith, State.logOnly]; split <;> simp
@[simp] theorem logWith_half_session (s : State) (h : Half) (e : Event) (b : Bool) : ((s.logWith h e b).half h).session = (s.half h).session := by
  simp only [State.logWith, State.logOnly]; split <;> simp
@[simp] theorem logWith_half_chans (s : State) (h : Half) (e : Event) (b : Bool) : ((s.logWith h e b).half h).chans = (s.half h).chans := by
  simp only [State.logWith, State.logOnly]; split <;> simp
@[simp] theorem logWith_half_rotor (s : State) (h : Half) (e : Event) (b : Bool) : ((s.logWith h e b).half h).rotor = (s.half h).rotor := by
  simp only [State.logWith, State.logOnly]; split <;> simp
@[simp] theorem logWith_half_pcie (s : State) (h : Half) (e : Event) (b : Bool) : ((s.logWith h e b).half h).pcie = (s.half h).pcie := by
  simp only [State.logWith, State.logOnly]; split <;> simp
@[simp] theorem logWith_half_boot (s : State) (h : Half) (e : Event) (b : Bool) : ((s.logWith h e b).half h).boot = (s.half h).boot := by
  simp only [State.logWith, State.logOnly]; split <;> simp
@[simp] theorem logWith_other (s : State) (h : Half) (e : Event) (b : Bool) : (s.logWith h e b).half (otherHalf h) = s.half (otherHalf h) := by
  simp only [State.logWith, State.logOnly]; split <;> simp
@[simp] theorem logWith_of_other (s : State) (h : Half) (e : Event) (b : Bool) : (s.logWith (otherHalf h) e b).half h = s.half h := by
  simp only [State.logWith, State.logOnly]; split <;> simp
@[simp] theorem logWith_logCount (s : State) (h : Half) (e : Event) (b : Bool) :
    ((s.logWith h e b).half h).isl.logCount = ((s.half h).isl.logCount + 1) % 65536 := by
  simp only [State.logWith, State.logOnly]; split <;> simp

@[simp] theorem logUnlisted_now (s : State) (h : Half) (u : Unlisted) (e : Event) : (s.logUnlisted h u e).now = s.now := by
  simp only [State.logUnlisted, State.logOnly]; simp
@[simp] theorem logUnlisted_part (s : State) (h : Half) (u : Unlisted) (e : Event) : (s.logUnlisted h u e).part = s.part := by
  simp only [State.logUnlisted, State.logOnly]; simp
@[simp] theorem logUnlisted_mem (s : State) (h : Half) (u : Unlisted) (e : Event) : (s.logUnlisted h u e).mem = s.mem := by
  simp only [State.logUnlisted, State.logOnly]; simp
@[simp] theorem logUnlisted_held (s : State) (h : Half) (u : Unlisted) (e : Event) : (s.logUnlisted h u e).held = s.held := by
  simp only [State.logUnlisted, State.logOnly]; simp
@[simp] theorem logUnlisted_undef (s : State) (h : Half) (u : Unlisted) (e : Event) : (s.logUnlisted h u e).undef = s.undef := by
  simp only [State.logUnlisted, State.logOnly]; simp
@[simp] theorem logUnlisted_hostMem (s : State) (h : Half) (u : Unlisted) (e : Event) : (s.logUnlisted h u e).hostMem = s.hostMem := by
  simp only [State.logUnlisted, State.logOnly]; simp
@[simp] theorem logUnlisted_sdio (s : State) (h : Half) (u : Unlisted) (e : Event) : (s.logUnlisted h u e).sdio = s.sdio := by
  simp only [State.logUnlisted, State.logOnly]; simp
@[simp] theorem logUnlisted_tally (s : State) (h : Half) (u : Unlisted) (e : Event) : (s.logUnlisted h u e).tally = s.tally := by
  simp only [State.logUnlisted, State.logOnly]; simp
@[simp] theorem logUnlisted_sdioWorld (s : State) (h : Half) (u : Unlisted) (e : Event) : (s.logUnlisted h u e).sdioWorld = s.sdioWorld := by
  simp only [State.logUnlisted, State.logOnly]; simp
@[simp] theorem logUnlisted_canAWorld (s : State) (h : Half) (u : Unlisted) (e : Event) : (s.logUnlisted h u e).canAWorld = s.canAWorld := by
  simp only [State.logUnlisted, State.logOnly]; simp
@[simp] theorem logUnlisted_canBWorld (s : State) (h : Half) (u : Unlisted) (e : Event) : (s.logUnlisted h u e).canBWorld = s.canBWorld := by
  simp only [State.logUnlisted, State.logOnly]; simp
@[simp] theorem logUnlisted_pkgLimit (s : State) (h : Half) (u : Unlisted) (e : Event) : (s.logUnlisted h u e).pkgLimit = s.pkgLimit := by
  simp only [State.logUnlisted, State.logOnly]; simp
@[simp] theorem logUnlisted_uniqueId (s : State) (h : Half) (u : Unlisted) (e : Event) : (s.logUnlisted h u e).uniqueId = s.uniqueId := by
  simp only [State.logUnlisted, State.logOnly]; simp
@[simp] theorem logUnlisted_free (s : State) (h : Half) (u : Unlisted) (e : Event) : (s.logUnlisted h u e).free = s.free := by
  simp only [State.logUnlisted, State.logOnly]; simp
@[simp] theorem logUnlisted_pending (s : State) (h : Half) (u : Unlisted) (e : Event) : (s.logUnlisted h u e).pending = s.pending := by
  simp only [State.logUnlisted, State.logOnly]; simp
@[simp] theorem logUnlisted_half_disp (s : State) (h : Half) (u : Unlisted) (e : Event) : ((s.logUnlisted h u e).half h).disp = (s.half h).disp := by
  simp only [State.logUnlisted, State.logOnly]; simp
@[simp] theorem logUnlisted_half_dolly (s : State) (h : Half) (u : Unlisted) (e : Event) : ((s.logUnlisted h u e).half h).dolly = (s.half h).dolly := by
  simp only [State.logUnlisted, State.logOnly]; simp
@[simp] theorem logUnlisted_half_hbm (s : State) (h : Half) (u : Unlisted) (e : Event) : ((s.logUnlisted h u e).half h).hbm = (s.half h).hbm := by
  simp only [State.logUnlisted, State.logOnly]; simp
@[simp] theorem logUnlisted_half_link (s : State) (h : Half) (u : Unlisted) (e : Event) : ((s.logUnlisted h u e).half h).link = (s.half h).link := by
  simp only [State.logUnlisted, State.logOnly]; simp
@[simp] theorem logUnlisted_half_prot (s : State) (h : Half) (u : Unlisted) (e : Event) : ((s.logUnlisted h u e).half h).prot = (s.half h).prot := by
  simp only [State.logUnlisted, State.logOnly]; simp
@[simp] theorem logUnlisted_half_hzn (s : State) (h : Half) (u : Unlisted) (e : Event) : ((s.logUnlisted h u e).half h).hzn = (s.half h).hzn := by
  simp only [State.logUnlisted, State.logOnly]; simp
@[simp] theorem logUnlisted_half_zen (s : State) (h : Half) (u : Unlisted) (e : Event) : ((s.logUnlisted h u e).half h).zen = (s.half h).zen := by
  simp only [State.logUnlisted, State.logOnly]; simp
@[simp] theorem logUnlisted_half_session (s : State) (h : Half) (u : Unlisted) (e : Event) : ((s.logUnlisted h u e).half h).session = (s.half h).session := by
  simp only [State.logUnlisted, State.logOnly]; simp
@[simp] theorem logUnlisted_half_chans (s : State) (h : Half) (u : Unlisted) (e : Event) : ((s.logUnlisted h u e).half h).chans = (s.half h).chans := by
  simp only [State.logUnlisted, State.logOnly]; simp
@[simp] theorem logUnlisted_half_rotor (s : State) (h : Half) (u : Unlisted) (e : Event) : ((s.logUnlisted h u e).half h).rotor = (s.half h).rotor := by
  simp only [State.logUnlisted, State.logOnly]; simp
@[simp] theorem logUnlisted_half_pcie (s : State) (h : Half) (u : Unlisted) (e : Event) : ((s.logUnlisted h u e).half h).pcie = (s.half h).pcie := by
  simp only [State.logUnlisted, State.logOnly]; simp
@[simp] theorem logUnlisted_half_boot (s : State) (h : Half) (u : Unlisted) (e : Event) : ((s.logUnlisted h u e).half h).boot = (s.half h).boot := by
  simp only [State.logUnlisted, State.logOnly]; simp
@[simp] theorem logUnlisted_other (s : State) (h : Half) (u : Unlisted) (e : Event) : (s.logUnlisted h u e).half (otherHalf h) = s.half (otherHalf h) := by
  simp only [State.logUnlisted, State.logOnly]; simp
@[simp] theorem logUnlisted_of_other (s : State) (h : Half) (u : Unlisted) (e : Event) : (s.logUnlisted (otherHalf h) u e).half h = s.half h := by
  simp only [State.logUnlisted, State.logOnly]; simp
@[simp] theorem logUnlisted_logCount (s : State) (h : Half) (u : Unlisted) (e : Event) :
    ((s.logUnlisted h u e).half h).isl.logCount = ((s.half h).isl.logCount + 1) % 65536 := by
  simp only [State.logUnlisted, State.logOnly]; simp

@[simp] theorem log_now (s : State) (h : Half) (e : Event) : (s.log h e).now = s.now := by
  simp only [State.log, State.logWith, State.logOnly]; split <;> simp
@[simp] theorem log_part (s : State) (h : Half) (e : Event) : (s.log h e).part = s.part := by
  simp only [State.log, State.logWith, State.logOnly]; split <;> simp
@[simp] theorem log_mem (s : State) (h : Half) (e : Event) : (s.log h e).mem = s.mem := by
  simp only [State.log, State.logWith, State.logOnly]; split <;> simp
@[simp] theorem log_held (s : State) (h : Half) (e : Event) : (s.log h e).held = s.held := by
  simp only [State.log, State.logWith, State.logOnly]; split <;> simp
@[simp] theorem log_undef (s : State) (h : Half) (e : Event) : (s.log h e).undef = s.undef := by
  simp only [State.log, State.logWith, State.logOnly]; split <;> simp
@[simp] theorem log_hostMem (s : State) (h : Half) (e : Event) : (s.log h e).hostMem = s.hostMem := by
  simp only [State.log, State.logWith, State.logOnly]; split <;> simp
@[simp] theorem log_sdio (s : State) (h : Half) (e : Event) : (s.log h e).sdio = s.sdio := by
  simp only [State.log, State.logWith, State.logOnly]; split <;> simp
@[simp] theorem log_tally (s : State) (h : Half) (e : Event) : (s.log h e).tally = s.tally := by
  simp only [State.log, State.logWith, State.logOnly]; split <;> simp
@[simp] theorem log_sdioWorld (s : State) (h : Half) (e : Event) : (s.log h e).sdioWorld = s.sdioWorld := by
  simp only [State.log, State.logWith, State.logOnly]; split <;> simp
@[simp] theorem log_canAWorld (s : State) (h : Half) (e : Event) : (s.log h e).canAWorld = s.canAWorld := by
  simp only [State.log, State.logWith, State.logOnly]; split <;> simp
@[simp] theorem log_canBWorld (s : State) (h : Half) (e : Event) : (s.log h e).canBWorld = s.canBWorld := by
  simp only [State.log, State.logWith, State.logOnly]; split <;> simp
@[simp] theorem log_pkgLimit (s : State) (h : Half) (e : Event) : (s.log h e).pkgLimit = s.pkgLimit := by
  simp only [State.log, State.logWith, State.logOnly]; split <;> simp
@[simp] theorem log_uniqueId (s : State) (h : Half) (e : Event) : (s.log h e).uniqueId = s.uniqueId := by
  simp only [State.log, State.logWith, State.logOnly]; split <;> simp
@[simp] theorem log_free (s : State) (h : Half) (e : Event) : (s.log h e).free = s.free := by
  simp only [State.log, State.logWith, State.logOnly]; split <;> simp
@[simp] theorem log_pending (s : State) (h : Half) (e : Event) : (s.log h e).pending = s.pending := by
  simp only [State.log, State.logWith, State.logOnly]; split <;> simp
@[simp] theorem log_half_disp (s : State) (h : Half) (e : Event) : ((s.log h e).half h).disp = (s.half h).disp := by
  simp only [State.log, State.logWith, State.logOnly]; split <;> simp
@[simp] theorem log_half_dolly (s : State) (h : Half) (e : Event) : ((s.log h e).half h).dolly = (s.half h).dolly := by
  simp only [State.log, State.logWith, State.logOnly]; split <;> simp
@[simp] theorem log_half_hbm (s : State) (h : Half) (e : Event) : ((s.log h e).half h).hbm = (s.half h).hbm := by
  simp only [State.log, State.logWith, State.logOnly]; split <;> simp
@[simp] theorem log_half_link (s : State) (h : Half) (e : Event) : ((s.log h e).half h).link = (s.half h).link := by
  simp only [State.log, State.logWith, State.logOnly]; split <;> simp
@[simp] theorem log_half_prot (s : State) (h : Half) (e : Event) : ((s.log h e).half h).prot = (s.half h).prot := by
  simp only [State.log, State.logWith, State.logOnly]; split <;> simp
@[simp] theorem log_half_hzn (s : State) (h : Half) (e : Event) : ((s.log h e).half h).hzn = (s.half h).hzn := by
  simp only [State.log, State.logWith, State.logOnly]; split <;> simp
@[simp] theorem log_half_zen (s : State) (h : Half) (e : Event) : ((s.log h e).half h).zen = (s.half h).zen := by
  simp only [State.log, State.logWith, State.logOnly]; split <;> simp
@[simp] theorem log_half_session (s : State) (h : Half) (e : Event) : ((s.log h e).half h).session = (s.half h).session := by
  simp only [State.log, State.logWith, State.logOnly]; split <;> simp
@[simp] theorem log_half_chans (s : State) (h : Half) (e : Event) : ((s.log h e).half h).chans = (s.half h).chans := by
  simp only [State.log, State.logWith, State.logOnly]; split <;> simp
@[simp] theorem log_half_rotor (s : State) (h : Half) (e : Event) : ((s.log h e).half h).rotor = (s.half h).rotor := by
  simp only [State.log, State.logWith, State.logOnly]; split <;> simp
@[simp] theorem log_half_pcie (s : State) (h : Half) (e : Event) : ((s.log h e).half h).pcie = (s.half h).pcie := by
  simp only [State.log, State.logWith, State.logOnly]; split <;> simp
@[simp] theorem log_half_boot (s : State) (h : Half) (e : Event) : ((s.log h e).half h).boot = (s.half h).boot := by
  simp only [State.log, State.logWith, State.logOnly]; split <;> simp
@[simp] theorem log_other (s : State) (h : Half) (e : Event) : (s.log h e).half (otherHalf h) = s.half (otherHalf h) := by
  simp only [State.log, State.logWith, State.logOnly]; split <;> simp
@[simp] theorem log_of_other (s : State) (h : Half) (e : Event) : (s.log (otherHalf h) e).half h = s.half h := by
  simp only [State.log, State.logWith, State.logOnly]; split <;> simp
@[simp] theorem log_logCount (s : State) (h : Half) (e : Event) :
    ((s.log h e).half h).isl.logCount = ((s.half h).isl.logCount + 1) % 65536 := by
  simp only [State.log, State.logWith, State.logOnly]; split <;> simp

end Sys2Proof.Machine
end

