-- ==== Sys2Proof/Laws/Memory.lean ====
section
/-! SUPPORT. What the operations on memory do: each keeps the canonical form, a read finds what the last write put there,
and every other byte reads as before. -/

namespace Sys2Proof.Machine

open Sys2Proof

/-! ### The canonical form -/

theorem memWfFrom_mono {lo lo' : Nat} {m : List Host.Cell} (h : memWfFrom lo m = true) (hl : lo' ≤ lo) : memWfFrom lo' m = true := by
  cases m with
  | nil => rfl
  | cons c r =>
    obtain ⟨j, v⟩ := c
    simp only [memWfFrom, Bool.and_eq_true, decide_eq_true_eq] at *
    exact ⟨⟨by omega, h.1.2⟩, h.2⟩

theorem memGet_below {lo a : Nat} {m : List Host.Cell} (h : memWfFrom lo m = true) (ha : a < lo) : memGet m a = 0 := by
  cases m with
  | nil => rfl
  | cons c r =>
    obtain ⟨j, v⟩ := c
    simp only [memWfFrom, Bool.and_eq_true, decide_eq_true_eq] at h
    simp only [memGet]
    rw [if_pos (by omega)]

theorem memPut_wfFrom {lo a : Nat} {m : List Host.Cell} (b : Byte) (h : memWfFrom lo m = true) (ha : lo ≤ a) :
    memWfFrom lo (memPut m a b) = true := by
  induction m generalizing lo with
  | nil =>
    simp only [memPut]
    split
    · rfl
    · simp only [memWfFrom, Bool.and_eq_true, decide_eq_true_eq]
      exact ⟨⟨ha, by assumption⟩, trivial⟩
  | cons c r ih =>
    obtain ⟨j, v⟩ := c
    simp only [memWfFrom, Bool.and_eq_true, decide_eq_true_eq] at h
    simp only [memPut]
    split
    · split
      · simp only [memWfFrom, Bool.and_eq_true, decide_eq_true_eq]
        exact h
      · simp only [memWfFrom, Bool.and_eq_true, decide_eq_true_eq]
        exact ⟨⟨ha, by assumption⟩, ⟨⟨by omega, h.1.2⟩, h.2⟩⟩
    · split
      · split
        · exact memWfFrom_mono h.2 (by omega)
        · simp only [memWfFrom, Bool.and_eq_true, decide_eq_true_eq]
          subst_vars
          exact ⟨⟨ha, by assumption⟩, h.2⟩
      · simp only [memWfFrom, Bool.and_eq_true, decide_eq_true_eq]
        exact ⟨h.1, ih h.2 (by omega)⟩

/-- Writing one byte keeps the canonical form. -/
theorem memPut_wf {m : List Host.Cell} (a : Nat) (b : Byte) (h : Memory.wf m = true) : Memory.wf (memPut m a b) = true :=
  memPut_wfFrom b h (Nat.zero_le a)

/-- Writing consecutive bytes keeps the canonical form. -/
theorem memWrite_wf {m : List Host.Cell} (a : Nat) (l : List Byte) (h : Memory.wf m = true) : Memory.wf (memWrite m a l) = true := by
  induction l generalizing m a with
  | nil => exact h
  | cons b r ih => exact ih _ (memPut_wf a b h)

theorem filter_wfFrom {lo : Nat} {m : List Host.Cell} (p : Host.Cell → Bool) (h : memWfFrom lo m = true) :
    memWfFrom lo (m.filter p) = true := by
  induction m generalizing lo with
  | nil => rfl
  | cons c r ih =>
    obtain ⟨j, v⟩ := c
    simp only [memWfFrom, Bool.and_eq_true, decide_eq_true_eq] at h
    simp only [List.filter_cons]
    split
    · simp only [memWfFrom, Bool.and_eq_true, decide_eq_true_eq]
      exact ⟨h.1, ih h.2⟩
    · exact memWfFrom_mono (ih h.2) (by omega)

/-- Dropping entries keeps the canonical form. -/
theorem filter_wf {m : List Host.Cell} (p : Host.Cell → Bool) (h : Memory.wf m = true) : Memory.wf (m.filter p) = true :=
  filter_wfFrom p h

/-! ### Reads after writes -/

theorem memGet_put_from {lo a : Nat} {m : List Host.Cell} (b : Byte) (h : memWfFrom lo m = true) : memGet (memPut m a b) a = b := by
  induction m generalizing lo with
  | nil =>
    simp only [memPut]
    split
    · simp [memGet, *]
    · simp [memGet]
  | cons c r ih =>
    obtain ⟨j, v⟩ := c
    simp only [memWfFrom, Bool.and_eq_true, decide_eq_true_eq] at h
    simp only [memPut]
    split
    · split
      · simp [memGet, *]
      · simp [memGet]
    · split
      · split
        · rw [memGet_below h.2 (by omega)]; simp [*]
        · simp [memGet]
      · rename_i h1 h2
        simp [memGet, h1, h2, ih h.2]

/-- A byte just written reads as written. -/
theorem memGet_put {m : List Host.Cell} (a : Nat) (b : Byte) (h : Memory.wf m = true) : memGet (memPut m a b) a = b :=
  memGet_put_from b h

theorem memGet_put_ne_from {lo a x : Nat} {m : List Host.Cell} (b : Byte) (h : memWfFrom lo m = true) (hx : x ≠ a) :
    memGet (memPut m a b) x = memGet m x := by
  induction m generalizing lo with
  | nil =>
    simp only [memPut]
    split
    · rfl
    · simp [memGet, hx]
  | cons c r ih =>
    obtain ⟨j, v⟩ := c
    simp only [memWfFrom, Bool.and_eq_true, decide_eq_true_eq] at h
    simp only [memPut]
    split
    · split
      · rfl
      · simp only [memGet, if_neg hx]
        split
        · rw [if_pos (by omega)]
        · rfl
    · split
      · subst_vars
        split
        · simp only [memGet, if_neg hx]
          split
          · exact memGet_below h.2 (by omega)
          · rfl
        · simp only [memGet, if_neg hx]
      · simp only [memGet, ih h.2]

/-- Any other byte reads as before. -/
theorem memGet_put_ne {m : List Host.Cell} {a x : Nat} (b : Byte) (h : Memory.wf m = true) (hx : x ≠ a) :
    memGet (memPut m a b) x = memGet m x := memGet_put_ne_from b h hx

/-- Bytes outside a run that is written read as before. -/
theorem memGet_write_out {m : List Host.Cell} {a x : Nat} (l : List Byte) (h : Memory.wf m = true)
    (hx : x < a ∨ a + l.length ≤ x) : memGet (memWrite m a l) x = memGet m x := by
  induction l generalizing m a with
  | nil => rfl
  | cons b r ih =>
    simp only [List.length_cons] at hx
    simp only [memWrite]
    rw [ih (memPut_wf a b h) (by omega), memGet_put_ne b h (by omega)]

/-- A run of bytes reads as it was written. -/
theorem memGet_write {m : List Host.Cell} {a k : Nat} (l : List Byte) (h : Memory.wf m = true) (hk : k < l.length) :
    memGet (memWrite m a l) (a + k) = l.getD k 0 := by
  induction l generalizing m a k with
  | nil => simp at hk
  | cons b r ih =>
    simp only [memWrite]
    cases k with
    | zero =>
      simp only [Nat.add_zero]
      rw [memGet_write_out r (memPut_wf a b h) (by omega), memGet_put a b h]
      rfl
    | succ k =>
      have := ih (a := a + 1) (k := k) (memPut_wf a b h) (by simpa using hk)
      rw [show a + (k + 1) = a + 1 + k by omega, this]
      rfl

/-- Reads after entries have been dropped: a dropped byte reads 0, a kept one as before. -/
theorem memGet_filter_from {lo x : Nat} {m : List Host.Cell} (p : Nat → Bool) (h : memWfFrom lo m = true) :
    memGet (m.filter (fun c => p c.1)) x = if p x then memGet m x else 0 := by
  induction m generalizing lo with
  | nil => simp [memGet]
  | cons c r ih =>
    obtain ⟨j, v⟩ := c
    simp only [memWfFrom, Bool.and_eq_true, decide_eq_true_eq] at h
    have hr := ih h.2
    simp only [List.filter_cons]
    by_cases hp : p j = true
    · simp only [hp, if_true, memGet]
      split
      · split <;> rfl
      · split
        · subst_vars
          simp [hp]
        · exact hr
    · simp only [hp, memGet, Bool.false_eq_true, if_false]
      rw [hr]
      split
      · split
        · exact memGet_below h.2 (by omega)
        · split
          · subst_vars; contradiction
          · rfl
      · rfl

/-! ### Ranges of undefined contents -/

/-- The seed of the undefined contents that hold a byte. -/
def seedAt (l : List UndefArea) (x : Nat) : Option Nat := (undefAt l x).map (·.seed)

theorem seedAt_cons (u : UndefArea) (l : List UndefArea) (x : Nat) :
    seedAt (u :: l) x = if u.holds x then some u.seed else seedAt l x := by
  simp only [seedAt, undefAt]
  split <;> rfl

theorem seedAt_carve_append (a n x : Nat) (u : UndefArea) (l : List UndefArea) :
    seedAt (carveArea a n u ++ l) x = if u.holds x && !(inRange a n x) then some u.seed else seedAt l x := by
  have hold : ∀ b k, UndefArea.holds { u with base := b, len := k } x =
      (inRange b k x && UndefArea.holds { u with base := x, len := 1 } x) := by
    intro b k
    simp only [UndefArea.holds, inRange]
    simp
  have hu := hold u.base u.len
  generalize UndefArea.holds { u with base := x, len := 1 } x = g at hold hu
  unfold carveArea
  split
  · rename_i h
    simp only [List.cons_append, List.nil_append, seedAt_cons]
    have : (u.holds x && !inRange a n x) = u.holds x := by
      change u.holds x = _ at hu
      rw [hu]
      simp only [inRange]
      cases g <;> simp <;> omega
    rw [this]
  · change u.holds x = _ at hu
    split <;> split <;> simp only [List.cons_append, List.nil_append, seedAt_cons, hu, hold, inRange] <;>
      cases g <;> simp <;> (repeat' split) <;> first | rfl | (exfalso; omega) | (intros; exfalso; omega)

/-- Where bytes become defined, no range of undefined contents holds them any more, and every other byte keeps its seed. -/
theorem seedAt_carve (a n x : Nat) (l : List UndefArea) :
    seedAt (l.flatMap (carveArea a n)) x = if inRange a n x then none else seedAt l x := by
  induction l with
  | nil => simp [seedAt, undefAt]
  | cons u r ih =>
    rw [List.flatMap_cons, seedAt_carve_append, ih, seedAt_cons]
    cases inRange a n x <;> cases u.holds x <;> simp

/-- A byte of device memory, by its seed. -/
theorem readByte_eq (s : State) (a : Nat) : s.readByte a = match seedAt s.undef a with
    | some k => Config.freeByte k a
    | none => memGet s.mem a := by
  simp only [State.readByte, seedAt]
  cases undefAt s.undef a <;> rfl

/-- Two states read a byte alike where its seed and its listed value agree. -/
theorem readByte_congr {s t : State} {a : Nat} (h : seedAt t.undef a = seedAt s.undef a) (hm : memGet t.mem a = memGet s.mem a) :
    t.readByte a = s.readByte a := by
  rw [readByte_eq, readByte_eq, h, hm]

/-- A store reads back. -/
theorem readByte_writeBytes (s : State) (a k : Nat) (l : List Byte) (h : Memory.wf s.mem = true) (hk : k < l.length) :
    (s.writeBytes a l).readByte (a + k) = l.getD k 0 := by
  rw [readByte_eq]
  simp only [State.writeBytes, seedAt_carve]
  have : inRange a l.length (a + k) = true := by simp [inRange, hk]
  simp only [this, if_true]
  exact memGet_write l h hk

/-- A store leaves every other byte as it was. -/
theorem readByte_writeBytes_out (s : State) (a x : Nat) (l : List Byte) (h : Memory.wf s.mem = true)
    (hx : x < a ∨ a + l.length ≤ x) : (s.writeBytes a l).readByte x = s.readByte x := by
  apply readByte_congr
  · simp only [State.writeBytes, seedAt_carve]
    rw [if_neg]
    simp only [inRange, Bool.and_eq_true, decide_eq_true_eq]
    omega
  · exact memGet_write_out l h hx

/-- A range that becomes undefined leaves every other byte as it was. -/
theorem readByte_markUndef (s : State) (r : Region) (x : Nat) (hx : inRange r.base r.len x = false) :
    (s.markUndef r).readByte x = s.readByte x := by
  apply readByte_congr
  · simp only [State.markUndef, seedAt_cons, seedAt_carve, UndefArea.holds, hx, Bool.false_and, Bool.false_eq_true, if_false]
  · rfl

/-- Several ranges that become undefined leave every other byte as it was. -/
theorem readByte_markUndefs (s : State) (l : List Region) (x : Nat) (hx : ∀ r ∈ l, inRange r.base r.len x = false) :
    (s.markUndefs l).readByte x = s.readByte x := by
  induction l generalizing s with
  | nil => rfl
  | cons r l ih =>
    simp only [State.markUndefs]
    rw [ih _ (fun q hq => hx q (List.mem_cons_of_mem _ hq)), readByte_markUndef _ _ _ (hx r (List.mem_cons_self ..))]

/-- Single bytes written leave every other byte as it was. -/
theorem readByte_writeCells_out (s : State) (l : List (Nat × Byte)) (x : Nat) (h : Memory.wf s.mem = true)
    (hx : ∀ c ∈ l, c.1 ≠ x) : (s.writeCells l).readByte x = s.readByte x := by
  induction l generalizing s with
  | nil => rfl
  | cons c r ih =>
    obtain ⟨a, b⟩ := c
    have ha : a ≠ x := hx (a, b) (List.mem_cons_self ..)
    simp only [State.writeCells]
    rw [ih _ (memWrite_wf a [b] h) (fun q hq => hx q (List.mem_cons_of_mem _ hq)),
      readByte_writeBytes_out _ _ _ _ h (by simp only [List.length_singleton]; omega)]

/-! ### The canonical form under the operations on device memory -/

theorem writeBytes_wf {s : State} (a : Nat) (l : List Byte) (h : Memory.wf s.mem = true) : Memory.wf (s.writeBytes a l).mem = true :=
  memWrite_wf a l h

theorem writeCells_wf {s : State} (l : List (Nat × Byte)) (h : Memory.wf s.mem = true) : Memory.wf (s.writeCells l).mem = true := by
  induction l generalizing s with
  | nil => exact h
  | cons c r ih => exact ih (writeBytes_wf c.1 [c.2] h)

theorem zeroRange_wf {s : State} (base len : Nat) (h : Memory.wf s.mem = true) : Memory.wf (s.zeroRange base len).mem = true :=
  filter_wf _ h

theorem zeroBank_wf {s : State} (h : Half) (bank : Nat) (hw : Memory.wf s.mem = true) : Memory.wf (s.zeroBank h bank).mem = true :=
  filter_wf _ hw

end Sys2Proof.Machine
end

