-- ==== Sys2Proof/Laws/Kept.lean ====
section
/-! SUPPORT. What every operation keeps: `Kept`, and that the primitive operations keep it. -/

namespace Sys2Proof.Machine
open Sys2Proof

/-- The bytes from an address are those at its offsets. -/
theorem State.readBytes_eq_map (s : State) (a n : Nat) :
    s.readBytes a n = (List.range n).map (fun i => s.readByte (a + i)) := by
  induction n generalizing a with
  | zero => rfl
  | succ n ih =>
    rw [List.range_succ_eq_map]
    simp only [State.readBytes, ih, List.map_cons, List.map_map, Nat.add_zero]
    congr 2
    funext i
    simp only [Function.comp_apply, Nat.succ_eq_add_one, Nat.add_right_comm, Nat.add_assoc]

/-- Outside a command's work an object is read from memory. -/
theorem State.objLe_of_held_nil {s : State} (h : s.held = []) (a n : Nat) : s.objLe a n = s.readLe a n := by
  simp [State.objLe, State.objByte, State.readLe, State.readBytes_eq_map, h]

/-- Key fuses and rollback counters of one half after an operation: only burnt, never restored (R482, R484). -/
structure Burnt (x y : Boot) : Prop where
  revoked : ∀ k, x.custRevoked.getD k false = true → y.custRevoked.getD k false = true
  programmed : ∀ k, x.custProgrammed.getD k false = true → y.custProgrammed.getD k false = true
  hash : ∀ k, x.slotBlank k = false → y.custHash.getD k [] = x.custHash.getD k []
  rollback : ∀ k, x.rollback.getD k 0 ≤ y.rollback.getD k 0

theorem Burnt.refl (x : Boot) : Burnt x x := ⟨fun _ h => h, fun _ h => h, fun _ _ => rfl, fun _ => Nat.le_refl _⟩

theorem Burnt.of_eq {x y : Boot} (hr : y.custRevoked = x.custRevoked) (hp : y.custProgrammed = x.custProgrammed)
    (hh : y.custHash = x.custHash) (hb : y.rollback = x.rollback) : Burnt x y :=
  ⟨fun _ h => hr ▸ h, fun _ h => hp ▸ h, fun _ _ => by rw [hh], fun _ => Nat.le_of_eq (by rw [hb])⟩

theorem Burnt.trans {x y z : Boot} (h : Burnt x y) (g : Burnt y z) : Burnt x z :=
  ⟨fun k e => g.revoked k (h.revoked k e), fun k e => g.programmed k (h.programmed k e),
    fun k e => by
      have e1 := h.hash k e
      rw [g.hash k (by simpa only [Boot.slotBlank, e1] using e), e1],
    fun k => Nat.le_trans (h.rollback k) (g.rollback k)⟩

/-- What an operation may do to a half's protection block: nothing, a reset, a write that LOCK in effect refuses (R315),
or anything; and with `cut` it may also interrupt the programming of fuses (R501). -/
inductive ProtRel | eq | reset | locked | any | cut

/-- The protection blocks before and after. -/
def ProtRel.rel : ProtRel → Prot → Prot → Prop
  | .eq, x, y => y = x
  | .reset, x, y => y = x ∨ y = {}
  | .locked, x, y => x.lock = true → x.pending = false → y = x
  | .any, _, _ => True
  | .cut, _, _ => True

/-- The operation may reset a half. -/
def ProtRel.mayReset : ProtRel → Bool
  | .reset | .any | .cut => true
  | _ => false

/-- The operation may write the protection block. -/
def ProtRel.mayWrite : ProtRel → Bool
  | .locked | .any | .cut => true
  | _ => false

/-- The operation may interrupt the programming of fuses. -/
def ProtRel.mayCut : ProtRel → Bool
  | .cut => true
  | _ => false

theorem ProtRel.refl (pr : ProtRel) (x : Prot) : pr.rel x x := by
  cases pr <;> simp [ProtRel.rel]

theorem ProtRel.trans {pr : ProtRel} {x y z : Prot} (h : pr.rel x y) (g : pr.rel y z) : pr.rel x z := by
  cases pr
  · exact g.trans h
  · exact g.elim (fun a => h.imp (a.trans ·) (a.trans ·)) .inr
  · intro l n
    have e := h l n
    exact (g (by rw [e]; exact l) (by rw [e]; exact n)).trans e
  · trivial
  · trivial

theorem ProtRel.of_reset {pr : ProtRel} {x y : Prot} (h : pr.mayReset = true) (e : y = {}) : pr.rel x y := by
  cases pr <;> first | exact .inr e | trivial | exact absurd h (by decide)

theorem ProtRel.of_locked {pr : ProtRel} {x y : Prot} (h : pr.mayWrite = true)
    (e : x.lock = true → x.pending = false → y = x) : pr.rel x y := by
  cases pr <;> first | exact e | trivial | exact absurd h (by decide)

/-- A half's own part of `Kept`: fuses only burnt, where their programming is not cut short, and the protection block as `pr` allows. -/
structure HKept (pr : ProtRel) (x y : HalfState) : Prop where
  boot : pr.mayCut = false → Burnt x.boot y.boot
  prot : pr.rel x.prot y.prot

theorem HKept.refl (pr : ProtRel) (x : HalfState) : HKept pr x x := ⟨fun _ => .refl _, ProtRel.refl _ _⟩

theorem HKept.of_eq {pr : ProtRel} {x y : HalfState} (hb : y.boot = x.boot) (hp : y.prot = x.prot) : HKept pr x y :=
  ⟨fun _ => hb ▸ .refl _, hp ▸ ProtRel.refl _ _⟩

theorem HKept.of_prot {pr : ProtRel} {x y : HalfState} (hb : Burnt x.boot y.boot) (hp : y.prot = x.prot) : HKept pr x y :=
  ⟨fun _ => hb, hp ▸ ProtRel.refl _ _⟩

theorem HKept.of_cut {pr : ProtRel} {x y : HalfState} (hc : pr.mayCut = true) (hp : y.prot = x.prot) : HKept pr x y :=
  ⟨fun e => absurd (hc.symm.trans e) (by decide), hp ▸ ProtRel.refl _ _⟩

theorem HKept.of_reset {pr : ProtRel} {x y : HalfState} (h : pr.mayReset = true) (hb : Burnt x.boot y.boot)
    (hp : y.prot = {}) : HKept pr x y := ⟨fun _ => hb, ProtRel.of_reset h hp⟩

theorem HKept.of_locked {pr : ProtRel} {x y : HalfState} (h : pr.mayWrite = true) (hb : y.boot = x.boot)
    (hp : x.prot.lock = true → x.prot.pending = false → y.prot = x.prot) : HKept pr x y :=
  ⟨fun _ => hb ▸ .refl _, ProtRel.of_locked h hp⟩

theorem HKept.of_any {pr : ProtRel} {x y : HalfState} (h : pr.mayReset = true) (g : pr.mayWrite = true)
    (hb : Burnt x.boot y.boot) : HKept pr x y :=
  ⟨fun _ => hb, by cases pr <;> first | trivial | exact absurd h (by decide) | exact absurd g (by decide)⟩

theorem HKept.trans {pr : ProtRel} {x y z : HalfState} (h : HKept pr x y) (g : HKept pr y z) : HKept pr x z :=
  ⟨fun e => (h.boot e).trans (g.boot e), ProtRel.trans h.prot g.prot⟩

/-- What an operation on the way from `s` to `t` keeps: the queue, what the part is, the time axis, the canonical form of
both memories, the objects that a command's checks hold, the burnt fuses; where `tl` asks it, everything of the Tally unit but the island's notes of it, and the
protection blocks, as `pr` allows. -/
structure Kept (tl : Bool) (pr : ProtRel) (s t : State) : Prop where
  pending : t.pending = s.pending
  part : t.part = s.part
  uniqueId : t.uniqueId = s.uniqueId
  held : t.held = s.held
  now : s.now ≤ t.now
  mem : Memory.wf s.mem = true → Memory.wf t.mem = true
  hostMem : Memory.wf s.hostMem = true → Memory.wf t.hostMem = true
  half : ∀ h, HKept pr (s.half h) (t.half h)
  tally : tl = true → t.tally = { s.tally with
    islSeal := t.tally.islSeal, islState := t.tally.islState, islCount := t.tally.islCount }

variable {tl : Bool} {pr : ProtRel}

theorem Kept.refl (s : State) : Kept tl pr s s :=
  ⟨rfl, rfl, rfl, rfl, Nat.le_refl _, id, id, fun _ => .refl _ _, fun _ => rfl⟩

theorem Kept.trans {s t u : State} (h : Kept tl pr s t) (g : Kept tl pr t u) : Kept tl pr s u :=
  ⟨g.pending.trans h.pending, g.part.trans h.part, g.uniqueId.trans h.uniqueId, g.held.trans h.held, Nat.le_trans h.now g.now,
    fun e => g.mem (h.mem e), fun e => g.hostMem (h.hostMem e), fun x => (h.half x).trans (g.half x),
    fun e => by rw [g.tally e, h.tally e]⟩

theorem Kept.ite {s t u : State} {c : Prop} [Decidable c] (h : Kept tl pr s t) (g : Kept tl pr s u) :
    Kept tl pr s (if c then t else u) := by
  split
  · exact h
  · exact g

/-- An operation that leaves everything `Kept` speaks of. -/
theorem Kept.of_same {s0 s t : State} (k : Kept tl pr s0 s) (h1 : t.pending = s.pending) (h2 : t.part = s.part)
    (h3 : t.uniqueId = s.uniqueId) (h4 : t.now = s.now) (h5 : t.mem = s.mem) (h6 : t.hostMem = s.hostMem)
    (h7 : ∀ h, t.half h = s.half h) (h8 : t.tally = s.tally) (h9 : t.held = s.held) : Kept tl pr s0 t := by
  refine k.trans ⟨h1, h2, h3, h9, Nat.le_of_eq h4.symm, by rw [h5]; exact id, by rw [h6]; exact id, ?_, ?_⟩
  · intro h; rw [h7]; exact .refl _ _
  · intro _; rw [h8]

theorem foldl_kept {α : Type} {s0 s : State} (f : State → α → State) (l : List α)
    (k : Kept tl pr s0 s) (hf : ∀ t a, Kept tl pr s0 t → Kept tl pr s0 (f t a)) : Kept tl pr s0 (l.foldl f s) := by
  induction l generalizing s with
  | nil => exact k
  | cons a r ih => exact ih (hf _ _ k)

theorem set_free_kept {s0 s : State} (n : Nat) (k : Kept tl pr s0 s) : Kept tl pr s0 { s with free := n } :=
  k.of_same rfl rfl rfl rfl rfl rfl (fun h => by cases h <;> rfl) rfl rfl

theorem set_worlds_kept {s0 s : State} (a b c : Bool) (k : Kept tl pr s0 s) :
    Kept tl pr s0 { s with sdioWorld := a, canAWorld := b, canBWorld := c } :=
  k.of_same rfl rfl rfl rfl rfl rfl (fun h => by cases h <;> rfl) rfl rfl

theorem set_pkgLimit_kept {s0 s : State} (n : Nat) (k : Kept tl pr s0 s) : Kept tl pr s0 { s with pkgLimit := n } :=
  k.of_same rfl rfl rfl rfl rfl rfl (fun h => by cases h <;> rfl) rfl rfl

theorem set_port_kept {s0 s : State} (x : Sdio) (a b c : Bool) (n : Nat) (k : Kept tl pr s0 s) :
    Kept tl pr s0 { s with sdio := x, sdioWorld := a, canAWorld := b, canBWorld := c, pkgLimit := n } :=
  k.of_same rfl rfl rfl rfl rfl rfl (fun h => by cases h <;> rfl) rfl rfl

theorem set_sdio_kept {s0 s : State} (x : Sdio) (k : Kept tl pr s0 s) : Kept tl pr s0 { s with sdio := x } :=
  k.of_same rfl rfl rfl rfl rfl rfl (fun h => by cases h <;> rfl) rfl rfl

/-- What changes in the Tally unit, where nothing is asked of it. -/
theorem set_tally_kept {s0 s : State} (x : Tally) (k : Kept tl pr s0 s) (ht : tl = false) :
    Kept tl pr s0 { s with tally := x } :=
  k.trans ⟨rfl, rfl, rfl, rfl, Nat.le_refl _, id, id, fun h => by cases h <;> exact .refl _ _, fun e => by simp [ht] at e⟩

/-! ### The primitive operations -/

theorem advance_kept {s0 s : State} (t : Nat) (k : Kept tl pr s0 s) : Kept tl pr s0 (s.advance t) :=
  k.trans ⟨rfl, rfl, rfl, rfl, Nat.le_max_left _ _, id, id, fun h => by cases h <;> exact .refl _ _, fun _ => rfl⟩

theorem writeBytes_kept {s0 s : State} (a : Nat) (l : List Byte) (k : Kept tl pr s0 s) : Kept tl pr s0 (s.writeBytes a l) :=
  k.trans ⟨rfl, rfl, rfl, rfl, Nat.le_refl _, writeBytes_wf a l, id, fun h => by cases h <;> exact .refl _ _, fun _ => rfl⟩

theorem writeCells_kept {s0 s : State} (l : List (Nat × Byte)) (k : Kept tl pr s0 s) : Kept tl pr s0 (s.writeCells l) := by
  induction l generalizing s with
  | nil => exact k
  | cons p r ih => exact ih (writeBytes_kept _ _ k)

theorem markUndef_kept {s0 s : State} (r : Region) (k : Kept tl pr s0 s) : Kept tl pr s0 (s.markUndef r) :=
  k.trans ⟨rfl, rfl, rfl, rfl, Nat.le_refl _, id, id, fun h => by cases h <;> exact .refl _ _, fun _ => rfl⟩

theorem markUndefs_kept {s0 s : State} (l : List Region) (k : Kept tl pr s0 s) : Kept tl pr s0 (s.markUndefs l) := by
  induction l generalizing s with
  | nil => exact k
  | cons p r ih => exact ih (markUndef_kept _ k)

theorem markBankUndef_kept {s0 s : State} (pool bank : Nat) (k : Kept tl pr s0 s) : Kept tl pr s0 (s.markBankUndef pool bank) :=
  k.trans ⟨rfl, rfl, rfl, rfl, Nat.le_refl _, id, id, fun h => by cases h <;> exact .refl _ _, fun _ => rfl⟩

theorem zeroRange_kept {s0 s : State} (b n : Nat) (k : Kept tl pr s0 s) : Kept tl pr s0 (s.zeroRange b n) :=
  k.trans ⟨rfl, rfl, rfl, rfl, Nat.le_refl _, zeroRange_wf b n, id, fun h => by cases h <;> exact .refl _ _, fun _ => rfl⟩

theorem zeroBank_kept {s0 s : State} (h : Half) (b : Nat) (k : Kept tl pr s0 s) : Kept tl pr s0 (s.zeroBank h b) :=
  k.trans ⟨rfl, rfl, rfl, rfl, Nat.le_refl _, zeroBank_wf h b, id, fun h => by cases h <;> exact .refl _ _, fun _ => rfl⟩

theorem hostWrite_kept {s0 s : State} (a : Nat) (l : List Byte) (k : Kept tl pr s0 s) : Kept tl pr s0 (s.hostWrite a l) :=
  k.trans ⟨rfl, rfl, rfl, rfl, Nat.le_refl _, id, fun e => memWrite_wf _ _ e, fun h => by cases h <;> exact .refl _ _, fun _ => rfl⟩

theorem modHalf_kept {s0 s : State} (h : Half) (f : HalfState → HalfState) (k : Kept tl pr s0 s)
    (hf : HKept pr (s.half h) (f (s.half h))) : Kept tl pr s0 (s.modHalf h f) := by
  refine k.trans ⟨?_, ?_, ?_, ?_, ?_, ?_, ?_, ?_, ?_⟩
  all_goals first | (simp; done) | (intro g; simp; done) | skip
  intro g
  cases h <;> cases g <;> first | exact hf | exact .refl _ _

theorem modBoot_kept {s0 s : State} (h : Half) (f : Boot → Boot) (k : Kept tl pr s0 s)
    (hf : Burnt (s.half h).boot (f (s.half h).boot)) : Kept tl pr s0 (s.modBoot h f) :=
  modHalf_kept h _ k (.of_prot hf rfl)

theorem modBoot_cut_kept {s0 s : State} (h : Half) (f : Boot → Boot) (k : Kept tl pr s0 s) (hc : pr.mayCut = true) :
    Kept tl pr s0 (s.modBoot h f) := modHalf_kept h _ k (.of_cut hc rfl)

theorem modProt_kept {s0 s : State} (h : Half) (f : Prot → Prot) (k : Kept tl pr s0 s) (hw : pr.mayWrite = true)
    (hf : (s.half h).prot.lock = true → (s.half h).prot.pending = false → f (s.half h).prot = (s.half h).prot) :
    Kept tl pr s0 (s.modProt h f) := modHalf_kept h _ k (.of_locked hw rfl hf)

theorem onHalf_kept {s0 s : State} (h : Half) (f : State → State) (k : Kept tl pr s0 s)
    (hf : Kept tl pr s0 s → Kept tl pr s0 (f s)) : Kept tl pr s0 (onHalf s h f) := .ite (hf k) k

theorem onLive_kept {s0 s : State} (h : Half) (f : State → State) (k : Kept tl pr s0 s)
    (hf : Kept tl pr s0 s → Kept tl pr s0 (f s)) : Kept tl pr s0 (onLive s h f) := .ite (hf k) k

theorem modDisp_kept {s0 s : State} (h : Half) (f : Disp → Disp) (k : Kept tl pr s0 s) : Kept tl pr s0 (s.modDisp h f) :=
  modHalf_kept h _ k (.of_eq rfl rfl)

theorem modDolly_kept {s0 s : State} (h : Half) (f : Dolly → Dolly) (k : Kept tl pr s0 s) : Kept tl pr s0 (s.modDolly h f) :=
  modHalf_kept h _ k (.of_eq rfl rfl)

theorem modHbm_kept {s0 s : State} (h : Half) (f : Hbm → Hbm) (k : Kept tl pr s0 s) : Kept tl pr s0 (s.modHbm h f) :=
  modHalf_kept h _ k (.of_eq rfl rfl)

theorem modLink_kept {s0 s : State} (h : Half) (f : Link → Link) (k : Kept tl pr s0 s) : Kept tl pr s0 (s.modLink h f) :=
  modHalf_kept h _ k (.of_eq rfl rfl)

theorem modHzn_kept {s0 s : State} (h : Half) (f : Hzn → Hzn) (k : Kept tl pr s0 s) : Kept tl pr s0 (s.modHzn h f) :=
  modHalf_kept h _ k (.of_eq rfl rfl)

theorem modIsl_kept {s0 s : State} (h : Half) (f : Isl → Isl) (k : Kept tl pr s0 s) : Kept tl pr s0 (s.modIsl h f) :=
  modHalf_kept h _ k (.of_eq rfl rfl)

theorem modZen_kept {s0 s : State} (h : Half) (f : Zen → Zen) (k : Kept tl pr s0 s) : Kept tl pr s0 (s.modZen h f) :=
  modHalf_kept h _ k (.of_eq rfl rfl)

theorem modSession_kept {s0 s : State} (h : Half) (f : Session → Session) (k : Kept tl pr s0 s) : Kept tl pr s0 (s.modSession h f) :=
  modHalf_kept h _ k (.of_eq rfl rfl)

theorem modCan_kept {s0 s : State} (h : Half) (f : Can → Can) (k : Kept tl pr s0 s) : Kept tl pr s0 (s.modCan h f) :=
  modHalf_kept h _ k (.of_eq rfl rfl)

theorem modPcie_kept {s0 s : State} (h : Half) (f : Pcie → Pcie) (k : Kept tl pr s0 s) : Kept tl pr s0 (s.modPcie h f) :=
  modHalf_kept h _ k (.of_eq rfl rfl)

theorem modJob_kept {s0 s : State} (h : Half) (c : Nat) (f : Job → Job) (k : Kept tl pr s0 s) : Kept tl pr s0 (s.modJob h c f) :=
  modDisp_kept h _ k

theorem modBank_kept {s0 s : State} (h : Half) (b : Nat) (f : Bank → Bank) (k : Kept tl pr s0 s) : Kept tl pr s0 (s.modBank h b f) :=
  modDolly_kept h _ k

theorem modStream_kept {s0 s : State} (h : Half) (n : Nat) (f : Stream → Stream) (k : Kept tl pr s0 s) : Kept tl pr s0 (s.modStream h n f) :=
  modHzn_kept h _ k

theorem modRing_kept {s0 s : State} (h : Half) (n : Nat) (f : Ring → Ring) (k : Kept tl pr s0 s) : Kept tl pr s0 (s.modRing h n f) :=
  modHzn_kept h _ k

theorem modUnit_kept {s0 s : State} (h : Half) (n : Nat) (f : Unit → Unit) (k : Kept tl pr s0 s) : Kept tl pr s0 (s.modUnit h n f) :=
  modZen_kept h _ k

theorem modSlab_kept {s0 s : State} (h : Half) (n : Nat) (f : Slab → Slab) (k : Kept tl pr s0 s) : Kept tl pr s0 (s.modSlab h n f) :=
  modIsl_kept h _ k

/-! ### Halves started, fenced and restarted -/

theorem coldStart_hkept (h : Half) (now : Nat) (x : HalfState) (hr : pr.mayReset = true) :
    HKept pr x (HalfState.coldStart h now x) :=
  .of_reset hr (.of_eq rfl rfl rfl rfl) (by cases h <;> rfl)

theorem lose_hkept (h : Half) (now : Nat) (x : HalfState) (hr : pr.mayReset = true) :
    HKept pr x (HalfState.lose h now x) :=
  .of_reset hr (.of_eq rfl rfl rfl rfl) (by cases h <;> rfl)

theorem restarted_hkept (h : Half) (two ok : Bool) (now : Nat) (x : HalfState) (hr : pr.mayReset = true) :
    HKept pr x (HalfState.restarted h two ok now x) :=
  .of_reset hr (.of_eq rfl rfl rfl rfl) (by cases h <;> rfl)

theorem fence_hkept (now : Nat) (x : HalfState) : HKept pr x (HalfState.fence now x) := .of_prot (.of_eq rfl rfl rfl rfl) rfl

theorem senseFuses_hkept (x : HalfState) : HKept pr x x.senseFuses := by
  unfold HalfState.senseFuses
  generalize List.foldl _ _ _ = b
  exact .of_prot (.of_eq rfl rfl rfl rfl) rfl

theorem reach_hkept (a b c d : Nat) (x : HalfState) : HKept pr x (x.reach a b c d) := .of_prot (.of_eq rfl rfl rfl rfl) rfl

theorem restore_boot (now : Nat) (x : HalfState) : (x.restore now).boot = x.boot := by
  simp only [HalfState.restore]
  split <;> rfl

theorem directorRuns_hkept (h : Half) (now : Nat) (x : HalfState) (hr : pr.mayReset = true) (hw : pr.mayWrite = true) :
    HKept pr x (HalfState.directorRuns h now x) := by
  refine .of_any hr hw ?_
  simp only [HalfState.directorRuns]
  split
  · rw [restore_boot]; exact .refl _
  · exact .refl _

theorem getD_lset {α : Type} (l : List α) (i k : Nat) (v d : α) :
    (lset l i v).getD k d = if i = k ∧ k < l.length then v else l.getD k d := by
  simp only [lset, List.getD_eq_getElem?_getD, List.getElem?_set]
  by_cases h : i = k
  · subst h
    by_cases hl : i < l.length <;> simp [hl]
  · simp [h]

theorem burnKey_burnt (now slot : Nat) (hash : List Byte) (b : Boot) : Burnt b (Boot.burnKey now slot hash b) := by
  simp only [Boot.burnKey]
  split
  · rename_i hb
    refine ⟨fun _ h => h, fun k h => ?_, fun k h => ?_, fun _ => Nat.le_refl _⟩
    · simp only [getD_lset]; split <;> simp_all
    · simp only [getD_lset]; split <;> simp_all
  · exact .refl _

theorem revoke_burnt (slot : Nat) (b : Boot) : Burnt b { b with custRevoked := lset b.custRevoked slot true } := by
  refine ⟨fun k h => ?_, fun _ h => h, fun _ _ => rfl, fun _ => Nat.le_refl _⟩
  simp only [getD_lset]; split <;> simp_all

theorem commitRollback_burnt (now t : Nat) (b : Boot) : Burnt b (Boot.commitRollback now t b) := by
  simp only [Boot.commitRollback]
  split
  · split
    · refine ⟨fun _ h => h, fun _ h => h, fun _ _ => rfl, fun k => ?_⟩
      simp only [getD_lset]; split
      · rename_i h; rw [← h.1]; omega
      · exact Nat.le_refl _
    · exact .refl _
  · exact .refl _

theorem apply_hkept (x y : HalfState) (hw : pr.mayWrite = true) (hb : y.boot = x.boot) (hp : y.prot = x.prot.apply) :
    HKept pr x y := .of_locked hw hb (fun _ h => by rw [hp]; simp [Prot.apply, h])

end Sys2Proof.Machine
end

