-- ==== Sys2Proof/Laws/Operations.lean ====
section
/-! SUPPORT. Every operation keeps what `Kept` says. -/

namespace Sys2Proof.Machine
open Sys2Proof

variable {tl : Bool} {pr : ProtRel}

/-! ### Ops -/

theorem logOnly_kept {t0 s : State} (h : Half) (e : Event) (kp : Kept tl pr t0 s) :
    Kept tl pr t0 (State.logOnly s h e) := by
  unfold State.logOnly
  repeat' first
    | intro _ | assumption | exact Kept.refl _ | exact HKept.of_eq rfl rfl | with_reducible apply modIsl_kept
    | with_reducible apply Kept.ite | with_reducible apply foldl_kept | dsimp -zeta only | extract_lets | split
    | dsimp +zetaDelta only | (rename_i e; have e := congrArg Prod.fst e; dsimp only at e; rw [← e])

theorem logWith_kept {t0 s : State} (h : Half) (e : Event) (status : Bool) (kp : Kept tl pr t0 s) :
    Kept tl pr t0 (State.logWith s h e status) := by
  unfold State.logWith
  repeat' first
    | intro _ | assumption | exact Kept.refl _ | exact HKept.of_eq rfl rfl | with_reducible apply logOnly_kept
    | with_reducible apply modCan_kept | with_reducible apply Kept.ite | with_reducible apply foldl_kept
    | dsimp -zeta only | extract_lets | split | dsimp +zetaDelta only
    | (rename_i e; have e := congrArg Prod.fst e; dsimp only at e; rw [← e])

theorem logUnlisted_kept {t0 s : State} (h : Half) (u : Unlisted) (e : Event) (kp : Kept tl pr t0 s) :
    Kept tl pr t0 (State.logUnlisted s h u e) := by
  unfold State.logUnlisted
  repeat' first
    | intro _ | assumption | exact Kept.refl _ | exact HKept.of_eq rfl rfl | with_reducible apply logOnly_kept
    | with_reducible apply Kept.ite | with_reducible apply foldl_kept | dsimp -zeta only | extract_lets | split
    | dsimp +zetaDelta only | (rename_i e; have e := congrArg Prod.fst e; dsimp only at e; rw [← e])

theorem log_kept {t0 s : State} (h : Half) (e : Event) (kp : Kept tl pr t0 s) :
    Kept tl pr t0 (State.log s h e) := by
  unfold State.log
  repeat' first
    | intro _ | assumption | exact Kept.refl _ | exact HKept.of_eq rfl rfl | with_reducible apply logWith_kept
    | with_reducible apply Kept.ite | with_reducible apply foldl_kept | dsimp -zeta only | extract_lets | split
    | dsimp +zetaDelta only | (rename_i e; have e := congrArg Prod.fst e; dsimp only at e; rw [← e])

/-! ### Regions -/

theorem loseRegion_kept {t0 s : State} (r : Region) (kp : Kept tl pr t0 s) : Kept tl pr t0 (s.loseRegion r) :=
  kp.of_same rfl rfl rfl rfl rfl rfl (fun h => by cases h <;> rfl) rfl rfl

theorem loseRegions_kept {t0 s : State} (z0 : List Region) (kp : Kept tl pr t0 s) :
    Kept tl pr t0 (State.loseRegions s z0) := by
  induction z0 generalizing s with
  | nil => exact kp
  | cons x r ih =>
    unfold State.loseRegions
    repeat' first
      | with_reducible apply ih | intro _ | assumption | exact Kept.refl _ | exact HKept.of_eq rfl rfl
      | with_reducible apply loseRegion_kept | with_reducible apply Kept.ite | with_reducible apply foldl_kept
      | dsimp -zeta only | extract_lets | split | dsimp +zetaDelta only
      | (rename_i e; have e := congrArg Prod.fst e; dsimp only at e; rw [← e])

theorem loseBank_kept {t0 s : State} (h : Half) (bank : Nat) (kp : Kept tl pr t0 s) :
    Kept tl pr t0 (State.loseBank s h bank) := by
  unfold State.loseBank
  repeat' first
    | intro _ | assumption | exact Kept.refl _ | exact HKept.of_eq rfl rfl | with_reducible apply markBankUndef_kept
    | with_reducible apply Kept.ite | with_reducible apply foldl_kept | dsimp -zeta only | extract_lets | split
    | dsimp +zetaDelta only | (rename_i e; have e := congrArg Prod.fst e; dsimp only at e; rw [← e])

theorem lineCheck_kept {t0 s : State} (h : Half) (bank : Nat) (z0 : LineCheck) (kp : Kept tl pr t0 s) :
    Kept tl pr t0 (State.lineCheck s h bank z0) := by
  unfold State.lineCheck
  repeat' first
    | intro _ | assumption | exact Kept.refl _ | exact HKept.of_eq rfl rfl | with_reducible apply modBank_kept
    | with_reducible apply Kept.ite | with_reducible apply foldl_kept | dsimp -zeta only | extract_lets | split
    | dsimp +zetaDelta only | (rename_i e; have e := congrArg Prod.fst e; dsimp only at e; rw [← e])

/-! ### Cues -/

theorem modCue_kept {t0 s : State} (cue : Nat) (f : Cue → Cue) (kp : Kept tl pr t0 s) :
    Kept tl pr t0 (State.modCue s cue f) := by
  unfold State.modCue
  repeat' first
    | intro _ | assumption | exact Kept.refl _ | exact HKept.of_eq rfl rfl | with_reducible apply modDisp_kept
    | with_reducible apply Kept.ite | with_reducible apply foldl_kept | dsimp -zeta only | extract_lets | split
    | dsimp +zetaDelta only | (rename_i e; have e := congrArg Prod.fst e; dsimp only at e; rw [← e])

theorem send_kept {t0 s : State} (h : Half) (m : CtrMessage) (kp : Kept tl pr t0 s) :
    Kept tl pr t0 (State.send s h m) := by
  unfold State.send
  repeat' first
    | intro _ | assumption | exact Kept.refl _ | exact HKept.of_eq rfl rfl | with_reducible apply modLink_kept
    | with_reducible apply Kept.ite | with_reducible apply foldl_kept | dsimp -zeta only | extract_lets | split
    | dsimp +zetaDelta only | (rename_i e; have e := congrArg Prod.fst e; dsimp only at e; rw [← e])

theorem ackFlit_kept {t0 s : State} (sender : Half) (kp : Kept tl pr t0 s) :
    Kept tl pr t0 (State.ackFlit s sender) := by
  unfold State.ackFlit
  repeat' first
    | intro _ | assumption | exact Kept.refl _ | exact HKept.of_eq rfl rfl | with_reducible apply modLink_kept
    | with_reducible apply Kept.ite | with_reducible apply foldl_kept | dsimp -zeta only | extract_lets | split
    | dsimp +zetaDelta only | (rename_i e; have e := congrArg Prod.fst e; dsimp only at e; rw [← e])

theorem dropMessage_kept {t0 s : State} (h : Half) (kp : Kept tl pr t0 s) :
    Kept tl pr t0 (State.dropMessage s h) := by
  unfold State.dropMessage
  repeat' first
    | intro _ | assumption | exact Kept.refl _ | exact HKept.of_eq rfl rfl | with_reducible apply ackFlit_kept
    | with_reducible apply modLink_kept | with_reducible apply Kept.ite | with_reducible apply foldl_kept
    | dsimp -zeta only | extract_lets | split | dsimp +zetaDelta only
    | (rename_i e; have e := congrArg Prod.fst e; dsimp only at e; rw [← e])

theorem serve_kept {t0 s : State} (cue : Nat) (w : Waiter) (kp : Kept tl pr t0 s) :
    Kept tl pr t0 (State.serve s cue w) := by
  unfold State.serve
  repeat' first
    | intro _ | assumption | exact Kept.refl _ | exact HKept.of_eq rfl rfl | with_reducible apply send_kept
    | with_reducible apply modJob_kept | with_reducible apply Kept.ite | with_reducible apply foldl_kept
    | dsimp -zeta only | extract_lets | split | dsimp +zetaDelta only
    | (rename_i e; have e := congrArg Prod.fst e; dsimp only at e; rw [← e])

theorem serveAll_kept {t0 s : State} (cue : Nat) (z0 : List Waiter) (kp : Kept tl pr t0 s) :
    Kept tl pr t0 (State.serveAll s cue z0) := by
  induction z0 generalizing s with
  | nil => exact kp
  | cons x r ih =>
    unfold State.serveAll
    repeat' first
      | with_reducible apply ih | intro _ | assumption | exact Kept.refl _ | exact HKept.of_eq rfl rfl
      | with_reducible apply serve_kept | with_reducible apply Kept.ite | with_reducible apply foldl_kept
      | dsimp -zeta only | extract_lets | split | dsimp +zetaDelta only
      | (rename_i e; have e := congrArg Prod.fst e; dsimp only at e; rw [← e])

theorem evalCue_kept {t0 s : State} (cue : Nat) (kp : Kept tl pr t0 s) :
    Kept tl pr t0 (State.evalCue s cue) := by
  unfold State.evalCue
  repeat' first
    | intro _ | assumption | exact Kept.refl _ | exact HKept.of_eq rfl rfl | with_reducible apply modCue_kept
    | with_reducible apply serveAll_kept | with_reducible apply Kept.ite | with_reducible apply foldl_kept
    | dsimp -zeta only | extract_lets | split | dsimp +zetaDelta only
    | (rename_i e; have e := congrArg Prod.fst e; dsimp only at e; rw [← e])

theorem raiseCue_kept {t0 s : State} (cue : Nat) (amount : Nat) (kp : Kept tl pr t0 s) :
    Kept tl pr t0 (State.raiseCue s cue amount) := by
  unfold State.raiseCue
  repeat' first
    | intro _ | assumption | exact Kept.refl _ | exact HKept.of_eq rfl rfl | with_reducible apply modCue_kept
    | with_reducible apply evalCue_kept | with_reducible apply Kept.ite | with_reducible apply foldl_kept
    | dsimp -zeta only | extract_lets | split | dsimp +zetaDelta only
    | (rename_i e; have e := congrArg Prod.fst e; dsimp only at e; rw [← e])

theorem signalCue_kept {t0 s : State} (ctx : Nat) (tag : Nat) (session : Nat) (cue : Nat) (amount : Nat) (kp : Kept
    tl pr t0 s) :
    Kept tl pr t0 (State.signalCue s ctx tag session cue amount) := by
  unfold State.signalCue
  repeat' first
    | intro _ | assumption | exact Kept.refl _ | exact HKept.of_eq rfl rfl | with_reducible apply log_kept
    | with_reducible apply raiseCue_kept | with_reducible apply Kept.ite | with_reducible apply foldl_kept
    | dsimp -zeta only | extract_lets | split | dsimp +zetaDelta only
    | (rename_i e; have e := congrArg Prod.fst e; dsimp only at e; rw [← e])

theorem askCue_kept {t0 s : State} (w : Waiter) (cue : Nat) (kp : Kept tl pr t0 s) :
    Kept tl pr t0 (State.askCue s w cue).2 := by
  unfold State.askCue
  repeat' first
    | intro _ | assumption | exact Kept.refl _ | exact HKept.of_eq rfl rfl | with_reducible apply modCue_kept
    | with_reducible apply Kept.ite | with_reducible apply foldl_kept | dsimp -zeta only | extract_lets | split
    | dsimp +zetaDelta only | (rename_i e; have e := congrArg Prod.fst e; dsimp only at e; rw [← e])

theorem dropWaiters_kept {t0 s : State} (home : Half) (h : Half) (ctx : Nat) (kp : Kept tl pr t0 s) :
    Kept tl pr t0 (State.dropWaiters s home h ctx) := by
  unfold State.dropWaiters
  repeat' first
    | intro _ | assumption | exact Kept.refl _ | exact HKept.of_eq rfl rfl | with_reducible apply modDisp_kept
    | with_reducible apply Kept.ite | with_reducible apply foldl_kept | dsimp -zeta only | extract_lets | split
    | dsimp +zetaDelta only | (rename_i e; have e := congrArg Prod.fst e; dsimp only at e; rw [← e])

theorem returnEscrow_kept {t0 s : State} (home : Half) (z0 : List (Nat × Nat)) (kp : Kept tl pr t0 s) :
    Kept tl pr t0 (State.returnEscrow s home z0) := by
  induction z0 generalizing s with
  | nil => exact kp
  | cons x r ih =>
    unfold State.returnEscrow
    repeat' first
      | with_reducible apply ih | intro _ | assumption | exact Kept.refl _ | exact HKept.of_eq rfl rfl
      | with_reducible apply raiseCue_kept | with_reducible apply Kept.ite | with_reducible apply foldl_kept
      | dsimp -zeta only | extract_lets | split | dsimp +zetaDelta only
      | (rename_i e; have e := congrArg Prod.fst e; dsimp only at e; rw [← e])

/-! ### Threads -/

theorem freeThreads_kept {t0 s : State} (h : Half) (e : Exec) (kp : Kept tl pr t0 s) :
    Kept tl pr t0 (State.freeThreads s h e) := by
  unfold State.freeThreads
  repeat' first
    | intro _ | assumption | exact Kept.refl _ | exact HKept.of_eq rfl rfl | with_reducible apply modDolly_kept
    | with_reducible apply Kept.ite | with_reducible apply foldl_kept | dsimp -zeta only | extract_lets | split
    | dsimp +zetaDelta only | (rename_i e; have e := congrArg Prod.fst e; dsimp only at e; rw [← e])

theorem startEarly_kept {t0 s : State} (h : Half) (ctx : Nat) (c : Rec) (kp : Kept tl pr t0 s) :
    Kept tl pr t0 (State.startEarly s h ctx c) := by
  unfold State.startEarly
  repeat' first
    | intro _ | assumption | exact Kept.refl _ | exact HKept.of_eq rfl rfl | with_reducible apply freeThreads_kept
    | with_reducible apply modJob_kept | with_reducible apply modDolly_kept | with_reducible apply Kept.ite
    | with_reducible apply foldl_kept | dsimp -zeta only | extract_lets | split | dsimp +zetaDelta only
    | (rename_i e; have e := congrArg Prod.fst e; dsimp only at e; rw [← e])

theorem stopEarly_kept {t0 s : State} (h : Half) (ctx : Nat) (kp : Kept tl pr t0 s) :
    Kept tl pr t0 (State.stopEarly s h ctx) := by
  unfold State.stopEarly
  repeat' first
    | intro _ | assumption | exact Kept.refl _ | exact HKept.of_eq rfl rfl | with_reducible apply modJob_kept
    | with_reducible apply modDolly_kept | with_reducible apply Kept.ite | with_reducible apply foldl_kept
    | dsimp -zeta only | extract_lets | split | dsimp +zetaDelta only
    | (rename_i e; have e := congrArg Prod.fst e; dsimp only at e; rw [← e])

/-! ### Jobs -/

theorem logKill_kept {t0 s : State} (h : Half) (ctx : Nat) (e : Exec) (kp : Kept tl pr t0 s) :
    Kept tl pr t0 (State.logKill s h ctx e) := by
  unfold State.logKill
  repeat' first
    | intro _ | assumption | exact Kept.refl _ | exact HKept.of_eq rfl rfl | with_reducible apply logUnlisted_kept
    | with_reducible apply log_kept | with_reducible apply Kept.ite | with_reducible apply foldl_kept | dsimp -zeta only
    | extract_lets | split | dsimp +zetaDelta only
    | (rename_i e; have e := congrArg Prod.fst e; dsimp only at e; rw [← e])

theorem sendPacket_kept {t0 s : State} (h : Half) (p : LinkPacket) (kp : Kept tl pr t0 s) :
    Kept tl pr t0 (State.sendPacket s h p) := by
  unfold State.sendPacket
  repeat' first
    | intro _ | assumption | exact Kept.refl _ | exact HKept.of_eq rfl rfl | with_reducible apply modLink_kept
    | with_reducible apply modJob_kept | with_reducible apply Kept.ite | with_reducible apply foldl_kept
    | dsimp -zeta only | extract_lets | split | dsimp +zetaDelta only
    | (rename_i e; have e := congrArg Prod.fst e; dsimp only at e; rw [← e])

theorem sendWaiting_kept {t0 s : State} (h : Half) (part : Nat) (kp : Kept tl pr t0 s) :
    Kept tl pr t0 (State.sendWaiting s h part) := by
  unfold State.sendWaiting
  repeat' first
    | intro _ | assumption | exact Kept.refl _ | exact HKept.of_eq rfl rfl | with_reducible apply sendPacket_kept
    | with_reducible apply Kept.ite | with_reducible apply foldl_kept | dsimp -zeta only | extract_lets | split
    | dsimp +zetaDelta only | (rename_i e; have e := congrArg Prod.fst e; dsimp only at e; rw [← e])

theorem sendAllWaiting_kept {t0 s : State} (h : Half) (kp : Kept tl pr t0 s) :
    Kept tl pr t0 (State.sendAllWaiting s h) := by
  unfold State.sendAllWaiting
  repeat' first
    | intro _ | assumption | exact Kept.refl _ | exact HKept.of_eq rfl rfl | with_reducible apply sendWaiting_kept
    | with_reducible apply Kept.ite | with_reducible apply foldl_kept | dsimp -zeta only | extract_lets | split
    | dsimp +zetaDelta only | (rename_i e; have e := congrArg Prod.fst e; dsimp only at e; rw [← e])

theorem freeCredits_kept {t0 s : State} (h : Half) (ctx : Nat) (kp : Kept tl pr t0 s) :
    Kept tl pr t0 (State.freeCredits s h ctx) := by
  unfold State.freeCredits
  repeat' first
    | intro _ | assumption | exact Kept.refl _ | exact HKept.of_eq rfl rfl | with_reducible apply sendWaiting_kept
    | with_reducible apply modLink_kept | with_reducible apply modJob_kept | with_reducible apply Kept.ite
    | with_reducible apply foldl_kept | dsimp -zeta only | extract_lets | split | dsimp +zetaDelta only
    | (rename_i e; have e := congrArg Prod.fst e; dsimp only at e; rw [← e])

theorem dropPackets_kept {t0 s : State} (h : Half) (ctx : Nat) (e : Exec) (kp : Kept tl pr t0 s) :
    Kept tl pr t0 (State.dropPackets s h ctx e) := by
  unfold State.dropPackets
  repeat' first
    | intro _ | assumption | exact Kept.refl _ | exact HKept.of_eq rfl rfl | with_reducible apply send_kept
    | with_reducible apply modLink_kept | with_reducible apply Kept.ite | with_reducible apply foldl_kept
    | dsimp -zeta only | extract_lets | split | dsimp +zetaDelta only
    | (rename_i e; have e := congrArg Prod.fst e; dsimp only at e; rw [← e])

theorem kill_kept {t0 s : State} (h : Half) (ctx : Nat) (k : RetakeKind) (kp : Kept tl pr t0 s) :
    Kept tl pr t0 (State.kill s h ctx k) := by
  unfold State.kill
  repeat' first
    | intro _ | assumption | exact Kept.refl _ | exact HKept.of_eq rfl rfl | with_reducible apply loseRegions_kept
    | with_reducible apply dropWaiters_kept | with_reducible apply returnEscrow_kept | with_reducible apply logKill_kept
    | with_reducible apply dropPackets_kept | with_reducible apply modJob_kept | with_reducible apply Kept.ite
    | with_reducible apply foldl_kept | dsimp -zeta only | extract_lets | split | dsimp +zetaDelta only
    | (rename_i e; have e := congrArg Prod.fst e; dsimp only at e; rw [← e])

theorem logHolds_kept {t0 s : State} (h : Half) (ctx : Nat) (z0 : List (Nat × Nat)) (kp : Kept tl pr t0 s) :
    Kept tl pr t0 (State.logHolds s h ctx z0) := by
  induction z0 generalizing s with
  | nil => exact kp
  | cons x r ih =>
    unfold State.logHolds
    repeat' first
      | with_reducible apply ih | intro _ | assumption | exact Kept.refl _ | exact HKept.of_eq rfl rfl
      | with_reducible apply logUnlisted_kept | with_reducible apply Kept.ite | with_reducible apply foldl_kept
      | dsimp -zeta only | extract_lets | split | dsimp +zetaDelta only
      | (rename_i e; have e := congrArg Prod.fst e; dsimp only at e; rw [← e])

theorem loseBanks_kept {t0 s : State} (h : Half) (ctx : Nat) (kp : Kept tl pr t0 s) :
    Kept tl pr t0 (State.loseBanks s h ctx) := by
  unfold State.loseBanks
  repeat' first
    | intro _ | assumption | exact Kept.refl _ | exact HKept.of_eq rfl rfl | with_reducible apply loseBank_kept
    | with_reducible apply Kept.ite | with_reducible apply foldl_kept | dsimp -zeta only | extract_lets | split
    | dsimp +zetaDelta only | (rename_i e; have e := congrArg Prod.fst e; dsimp only at e; rw [← e])

theorem overRun_kept {t0 s : State} (h : Half) (ctx : Nat) (kp : Kept tl pr t0 s) :
    Kept tl pr t0 (State.overRun s h ctx) := by
  unfold State.overRun
  repeat' first
    | intro _ | assumption | exact Kept.refl _ | exact HKept.of_eq rfl rfl | with_reducible apply modStream_kept
    | with_reducible apply Kept.ite | with_reducible apply foldl_kept | dsimp -zeta only | extract_lets | split
    | dsimp +zetaDelta only | (rename_i e; have e := congrArg Prod.fst e; dsimp only at e; rw [← e])

theorem loseRun_kept {t0 s : State} (h : Half) (ctx : Nat) (kp : Kept tl pr t0 s) :
    Kept tl pr t0 (State.loseRun s h ctx) := by
  unfold State.loseRun
  repeat' first
    | intro _ | assumption | exact Kept.refl _ | exact HKept.of_eq rfl rfl | with_reducible apply modStream_kept
    | with_reducible apply Kept.ite | with_reducible apply foldl_kept | dsimp -zeta only | extract_lets | split
    | dsimp +zetaDelta only | (rename_i e; have e := congrArg Prod.fst e; dsimp only at e; rw [← e])

theorem teardown_kept {t0 s : State} (h : Half) (ctx : Nat) (code : Nat) (tag : Nat) (detail : Nat) (kp : Kept tl pr
    t0 s) :
    Kept tl pr t0 (State.teardown s h ctx code tag detail) := by
  unfold State.teardown
  repeat' first
    | intro _ | assumption | exact Kept.refl _ | exact HKept.of_eq rfl rfl | with_reducible apply log_kept
    | with_reducible apply stopEarly_kept | with_reducible apply kill_kept | with_reducible apply logHolds_kept
    | with_reducible apply loseBanks_kept | with_reducible apply overRun_kept | with_reducible apply modDisp_kept
    | with_reducible apply modJob_kept | with_reducible apply Kept.ite | with_reducible apply foldl_kept
    | dsimp -zeta only | extract_lets | split | dsimp +zetaDelta only
    | (rename_i e; have e := congrArg Prod.fst e; dsimp only at e; rw [← e])

theorem startRun_kept {t0 s : State} (h : Half) (ctx : Nat) (frame : Option Nat) (kp : Kept tl pr t0 s) :
    Kept tl pr t0 (State.startRun s h ctx frame) := by
  unfold State.startRun
  repeat' first
    | intro _ | assumption | exact Kept.refl _ | exact HKept.of_eq rfl rfl | with_reducible apply stopEarly_kept
    | with_reducible apply modJob_kept | with_reducible apply Kept.ite | with_reducible apply foldl_kept
    | dsimp -zeta only | extract_lets | split | dsimp +zetaDelta only
    | (rename_i e; have e := congrArg Prod.fst e; dsimp only at e; rw [← e])

theorem release_kept {t0 s : State} (h : Half) (ctx : Nat) (frame : Option Nat) (kp : Kept tl pr t0 s) :
    Kept tl pr t0 (State.release s h ctx frame) := by
  unfold State.release
  repeat' first
    | intro _ | assumption | exact Kept.refl _ | exact HKept.of_eq rfl rfl | with_reducible apply log_kept
    | with_reducible apply kill_kept | with_reducible apply overRun_kept | with_reducible apply teardown_kept
    | with_reducible apply startRun_kept | with_reducible apply modDisp_kept | with_reducible apply modJob_kept
    | with_reducible apply Kept.ite | with_reducible apply foldl_kept | dsimp -zeta only | extract_lets | split
    | dsimp +zetaDelta only | (rename_i e; have e := congrArg Prod.fst e; dsimp only at e; rw [← e])

theorem endRun_kept {t0 s : State} (h : Half) (ctx : Nat) (kp : Kept tl pr t0 s) :
    Kept tl pr t0 (State.endRun s h ctx) := by
  unfold State.endRun
  repeat' first
    | intro _ | assumption | exact Kept.refl _ | exact HKept.of_eq rfl rfl | with_reducible apply stopEarly_kept
    | with_reducible apply overRun_kept | with_reducible apply startRun_kept | with_reducible apply release_kept
    | with_reducible apply modJob_kept | with_reducible apply Kept.ite | with_reducible apply foldl_kept
    | dsimp -zeta only | extract_lets | split | dsimp +zetaDelta only
    | (rename_i e; have e := congrArg Prod.fst e; dsimp only at e; rw [← e])

theorem preempt_kept {t0 s : State} (h : Half) (ctx : Nat) (strict : Bool) (kp : Kept tl pr t0 s) :
    Kept tl pr t0 (State.preempt s h ctx strict) := by
  unfold State.preempt
  repeat' first
    | intro _ | assumption | exact Kept.refl _ | exact HKept.of_eq rfl rfl | with_reducible apply log_kept
    | with_reducible apply stopEarly_kept | with_reducible apply kill_kept | with_reducible apply modDisp_kept
    | with_reducible apply modJob_kept | with_reducible apply Kept.ite | with_reducible apply foldl_kept
    | dsimp -zeta only | extract_lets | split | dsimp +zetaDelta only
    | (rename_i e; have e := congrArg Prod.fst e; dsimp only at e; rw [← e])

theorem preemptAll_kept {t0 s : State} (h : Half) (strict : Nat → Bool) (z0 : Nat) (kp : Kept tl pr t0 s) :
    Kept tl pr t0 (State.preemptAll s h strict z0) := by
  induction z0 generalizing s with
  | zero => exact kp
  | succ n ih =>
    unfold State.preemptAll
    repeat' first
      | with_reducible apply ih | intro _ | assumption | exact Kept.refl _ | exact HKept.of_eq rfl rfl
      | with_reducible apply preempt_kept | with_reducible apply Kept.ite | with_reducible apply foldl_kept
      | dsimp -zeta only | extract_lets | split | dsimp +zetaDelta only
      | (rename_i e; have e := congrArg Prod.fst e; dsimp only at e; rw [← e])

theorem defer_kept {t0 s : State} (h : Half) (kp : Kept tl pr t0 s) :
    Kept tl pr t0 (State.defer s h) := by
  unfold State.defer
  repeat' first
    | intro _ | assumption | exact Kept.refl _ | exact HKept.of_eq rfl rfl | with_reducible apply modDisp_kept
    | with_reducible apply Kept.ite | with_reducible apply foldl_kept | dsimp -zeta only | extract_lets | split
    | dsimp +zetaDelta only | (rename_i e; have e := congrArg Prod.fst e; dsimp only at e; rw [← e])

theorem account_kept {t0 s : State} (h : Half) (kp : Kept tl pr t0 s) :
    Kept tl pr t0 (State.account s h) := by
  unfold State.account
  repeat' first
    | intro _ | assumption | exact Kept.refl _ | exact HKept.of_eq rfl rfl | with_reducible apply modDisp_kept
    | with_reducible apply Kept.ite | with_reducible apply foldl_kept | dsimp -zeta only | extract_lets | split
    | dsimp +zetaDelta only | (rename_i e; have e := congrArg Prod.fst e; dsimp only at e; rw [← e])

theorem dispatchWith_kept {t0 s : State} (h : Half) (strict : Nat → Bool) (kp : Kept tl pr t0 s) :
    Kept tl pr t0 (State.dispatchWith s h strict) := by
  unfold State.dispatchWith
  repeat' first
    | intro _ | assumption | exact Kept.refl _ | exact HKept.of_eq rfl rfl | with_reducible apply preemptAll_kept
    | with_reducible apply defer_kept | with_reducible apply account_kept | with_reducible apply modDisp_kept
    | with_reducible apply modJob_kept | with_reducible apply Kept.ite | with_reducible apply foldl_kept
    | dsimp -zeta only | extract_lets | split | dsimp +zetaDelta only
    | (rename_i e; have e := congrArg Prod.fst e; dsimp only at e; rw [← e])

theorem dispatch_kept {t0 s : State} (h : Half) (kp : Kept tl pr t0 s) :
    Kept tl pr t0 (State.dispatch s h) := by
  unfold State.dispatch
  repeat' first
    | intro _ | assumption | exact Kept.refl _ | exact HKept.of_eq rfl rfl | with_reducible apply dispatchWith_kept
    | with_reducible apply Kept.ite | with_reducible apply foldl_kept | dsimp -zeta only | extract_lets | split
    | dsimp +zetaDelta only | (rename_i e; have e := congrArg Prod.fst e; dsimp only at e; rw [← e])

theorem dispatchBoth_kept {t0 s : State}  (kp : Kept tl pr t0 s) :
    Kept tl pr t0 (State.dispatchBoth s) := by
  unfold State.dispatchBoth
  repeat' first
    | intro _ | assumption | exact Kept.refl _ | exact HKept.of_eq rfl rfl | with_reducible apply dispatch_kept
    | with_reducible apply Kept.ite | with_reducible apply foldl_kept | dsimp -zeta only | extract_lets | split
    | dsimp +zetaDelta only | (rename_i e; have e := congrArg Prod.fst e; dsimp only at e; rw [← e])

/-! ### Command -/

theorem countDerate_kept {t0 s : State} (h : Half) (unit : Nat) (kp : Kept tl pr t0 s) :
    Kept tl pr t0 (State.countDerate s h unit) := by
  unfold State.countDerate
  repeat' first
    | intro _ | assumption | exact Kept.refl _ | exact HKept.of_eq rfl rfl | with_reducible apply modIsl_kept
    | with_reducible apply Kept.ite | with_reducible apply foldl_kept | dsimp -zeta only | extract_lets | split
    | dsimp +zetaDelta only | (rename_i e; have e := congrArg Prod.fst e; dsimp only at e; rw [← e])

theorem disagree_kept {t0 s0 : State} (h : Half) (unit : Nat) (kp : Kept tl pr t0 s0) :
    Kept tl pr t0 (State.disagree s0 h unit) := by
  unfold State.disagree
  repeat' first
    | intro _ | assumption | exact Kept.refl _ | exact HKept.of_eq rfl rfl | with_reducible apply countDerate_kept
    | with_reducible apply modIsl_kept | with_reducible apply Kept.ite | with_reducible apply foldl_kept
    | dsimp -zeta only | extract_lets | split | dsimp +zetaDelta only
    | (rename_i e; have e := congrArg Prod.fst e; dsimp only at e; rw [← e])

theorem park_kept {t0 s : State} (h : Half) (ctx : Nat) (kp : Kept tl pr t0 s) :
    Kept tl pr t0 (State.park s h ctx) := by
  unfold State.park
  repeat' first
    | intro _ | assumption | exact Kept.refl _ | exact HKept.of_eq rfl rfl | with_reducible apply modDisp_kept
    | with_reducible apply modJob_kept | with_reducible apply Kept.ite | with_reducible apply foldl_kept
    | dsimp -zeta only | extract_lets | split | dsimp +zetaDelta only
    | (rename_i e; have e := congrArg Prod.fst e; dsimp only at e; rw [← e])

theorem awaitCue_kept {t0 s : State} (h : Half) (ctx : Nat) (c : Rec) (kp : Kept tl pr t0 s) :
    Kept tl pr t0 (State.awaitCue s h ctx c) := by
  unfold State.awaitCue
  repeat' first
    | intro _ | assumption | exact Kept.refl _ | exact HKept.of_eq rfl rfl | with_reducible apply send_kept
    | with_reducible apply askCue_kept | with_reducible apply park_kept | with_reducible apply modJob_kept
    | with_reducible apply Kept.ite | with_reducible apply foldl_kept | dsimp -zeta only | extract_lets | split
    | dsimp +zetaDelta only | (rename_i e; have e := congrArg Prod.fst e; dsimp only at e; rw [← e])

theorem failCheck_kept {t0 s : State} (h : Half) (ctx : Nat) (pass : Nat) (row : Nat) (fl : Flags) (kp : Kept tl pr
    t0 s) :
    Kept tl pr t0 (State.failCheck s h ctx pass row fl) := by
  unfold State.failCheck
  repeat' first
    | intro _ | assumption | exact Kept.refl _ | exact HKept.of_eq rfl rfl | with_reducible apply log_kept
    | with_reducible apply kill_kept | with_reducible apply disagree_kept | with_reducible apply modStream_kept
    | with_reducible apply modJob_kept | with_reducible apply Kept.ite | with_reducible apply foldl_kept
    | dsimp -zeta only | extract_lets | split | dsimp +zetaDelta only
    | (rename_i e; have e := congrArg Prod.fst e; dsimp only at e; rw [← e])

theorem flagExec_kept {t0 s : State} (h : Half) (ctx : Nat) (fl : Flags) (kp : Kept tl pr t0 s) :
    Kept tl pr t0 (State.flagExec s h ctx fl) := by
  unfold State.flagExec
  repeat' first
    | intro _ | assumption | exact Kept.refl _ | exact HKept.of_eq rfl rfl | with_reducible apply modJob_kept
    | with_reducible apply Kept.ite | with_reducible apply foldl_kept | dsimp -zeta only | extract_lets | split
    | dsimp +zetaDelta only | (rename_i e; have e := congrArg Prod.fst e; dsimp only at e; rw [← e])

theorem takeWide_kept {t0 s : State} (h : Half) (ctx : Nat) (fl : Flags) (kp : Kept tl pr t0 s) :
    Kept tl pr t0 (State.takeWide s h ctx fl) := by
  unfold State.takeWide
  repeat' first
    | intro _ | assumption | exact Kept.refl _ | exact HKept.of_eq rfl rfl | with_reducible apply kill_kept
    | with_reducible apply flagExec_kept | with_reducible apply Kept.ite | with_reducible apply foldl_kept
    | dsimp -zeta only | extract_lets | split | dsimp +zetaDelta only
    | (rename_i e; have e := congrArg Prod.fst e; dsimp only at e; rw [← e])

theorem push_kept {t0 s : State} (h : Half) (ctx : Nat) (l : List LinkPacket) (kp : Kept tl pr t0 s) :
    Kept tl pr t0 (State.push s h ctx l) := by
  unfold State.push
  repeat' first
    | intro _ | assumption | exact Kept.refl _ | exact HKept.of_eq rfl rfl | with_reducible apply sendWaiting_kept
    | with_reducible apply modLink_kept | with_reducible apply modJob_kept | with_reducible apply Kept.ite
    | with_reducible apply foldl_kept | dsimp -zeta only | extract_lets | split | dsimp +zetaDelta only
    | (rename_i e; have e := congrArg Prod.fst e; dsimp only at e; rw [← e])

theorem wrote_kept {t0 s : State} (h : Half) (ctx : Nat) (cs : List Rec) (w : Written) (log : List (BitVec 64)) (kp
    : Kept tl pr t0 s) :
    Kept tl pr t0 (State.wrote s h ctx cs w log) := by
  unfold State.wrote
  repeat' first
    | intro _ | assumption | exact Kept.refl _ | exact HKept.of_eq rfl rfl | with_reducible apply push_kept
    | with_reducible apply modJob_kept | with_reducible apply Kept.ite | with_reducible apply foldl_kept
    | dsimp -zeta only | extract_lets | split | dsimp +zetaDelta only
    | (rename_i e; have e := congrArg Prod.fst e; dsimp only at e; rw [← e])

theorem logAttb_kept {t0 s : State} (h : Half) (ctx : Nat) (c : Rec) (kp : Kept tl pr t0 s) :
    Kept tl pr t0 (State.logAttb s h ctx c) := by
  unfold State.logAttb
  repeat' first
    | intro _ | assumption | exact Kept.refl _ | exact HKept.of_eq rfl rfl | with_reducible apply logUnlisted_kept
    | with_reducible apply Kept.ite | with_reducible apply foldl_kept | dsimp -zeta only | extract_lets | split
    | dsimp +zetaDelta only | (rename_i e; have e := congrArg Prod.fst e; dsimp only at e; rw [← e])

theorem faultJob_kept {t0 s : State} (h : Half) (ctx : Nat) (code : Nat) (detail : Nat) (kp : Kept tl pr t0 s) :
    Kept tl pr t0 (State.faultJob s h ctx code detail) := by
  unfold State.faultJob
  repeat' first
    | intro _ | assumption | exact Kept.refl _ | exact HKept.of_eq rfl rfl | with_reducible apply teardown_kept
    | with_reducible apply Kept.ite | with_reducible apply foldl_kept | dsimp -zeta only | extract_lets | split
    | dsimp +zetaDelta only | (rename_i e; have e := congrArg Prod.fst e; dsimp only at e; rw [← e])

theorem admitRequests_kept {t0 s : State} (h : Half) (ctx : Nat) (kp : Kept tl pr t0 s) :
    Kept tl pr t0 (State.admitRequests s h ctx) := by
  unfold State.admitRequests
  repeat' first
    | intro _ | assumption | exact Kept.refl _ | exact HKept.of_eq rfl rfl | with_reducible apply modJob_kept
    | with_reducible apply modDolly_kept | with_reducible apply Kept.ite | with_reducible apply foldl_kept
    | dsimp -zeta only | extract_lets | split | dsimp +zetaDelta only
    | (rename_i e; have e := congrArg Prod.fst e; dsimp only at e; rw [← e])

theorem drainPacked_kept {t0 s : State} (h : Half) (ctx : Nat) (e : Exec) (w : Written) (kp : Kept tl pr t0 s) :
    Kept tl pr t0 (State.drainPacked s h ctx e w) := by
  unfold State.drainPacked
  repeat' first
    | intro _ | assumption | exact Kept.refl _ | exact HKept.of_eq rfl rfl | with_reducible apply admitRequests_kept
    | with_reducible apply modJob_kept | with_reducible apply modDolly_kept | with_reducible apply Kept.ite
    | with_reducible apply foldl_kept | dsimp -zeta only | extract_lets | split | dsimp +zetaDelta only
    | (rename_i e; have e := congrArg Prod.fst e; dsimp only at e; rw [← e])

theorem finish_kept {t0 s : State} (h : Half) (ctx : Nat) (e : Exec) (w : Written) (log : List (BitVec 64)) (kp :
    Kept tl pr t0 s) :
    Kept tl pr t0 (State.finish s h ctx e w log) := by
  unfold State.finish
  repeat' first
    | intro _ | assumption | exact Kept.refl _ | exact HKept.of_eq rfl rfl | with_reducible apply log_kept
    | with_reducible apply flagExec_kept | with_reducible apply takeWide_kept | with_reducible apply wrote_kept
    | with_reducible apply logAttb_kept | with_reducible apply faultJob_kept | with_reducible apply Kept.ite
    | with_reducible apply foldl_kept | dsimp -zeta only | extract_lets | split | dsimp +zetaDelta only
    | (rename_i e; have e := congrArg Prod.fst e; dsimp only at e; rw [← e]) | with_reducible apply set_free_kept

theorem work_kept {t0 s0 : State} (h : Half) (ctx : Nat) (e : Exec) (u : Option Upset) (kp : Kept tl pr t0 s0) :
    Kept tl pr t0 (State.work s0 h ctx e u) := by
  unfold State.work
  repeat' first
    | intro _ | assumption | exact Kept.refl _ | exact HKept.of_eq rfl rfl | with_reducible apply log_kept
    | with_reducible apply failCheck_kept | with_reducible apply faultJob_kept | with_reducible apply drainPacked_kept
    | with_reducible apply finish_kept | with_reducible apply modJob_kept | with_reducible apply Kept.ite
    | with_reducible apply foldl_kept | dsimp -zeta only | extract_lets | split | dsimp +zetaDelta only
    | (rename_i e; have e := congrArg Prod.fst e; dsimp only at e; rw [← e]) | with_reducible apply set_free_kept

theorem takeThreads_kept {t0 s : State} (h : Half) (ctx : Nat) (e : Exec) (plan : List Plan) (free : List Nat) (kp :
    Kept tl pr t0 s) :
    Kept tl pr t0 (State.takeThreads s h ctx e plan free) := by
  unfold State.takeThreads
  repeat' first
    | intro _ | assumption | exact Kept.refl _ | exact HKept.of_eq rfl rfl | with_reducible apply startEarly_kept
    | with_reducible apply modJob_kept | with_reducible apply modDolly_kept | with_reducible apply Kept.ite
    | with_reducible apply foldl_kept | dsimp -zeta only | extract_lets | split | dsimp +zetaDelta only
    | (rename_i e; have e := congrArg Prod.fst e; dsimp only at e; rw [← e])

theorem workAdmitted_kept {t0 s : State} (h : Half) (ctx : Nat) (u : Option Upset) (kp : Kept tl pr t0 s) :
    Kept tl pr t0 (State.workAdmitted s h ctx u) := by
  unfold State.workAdmitted
  repeat' first
    | intro _ | assumption | exact Kept.refl _ | exact HKept.of_eq rfl rfl | with_reducible apply admitRequests_kept
    | with_reducible apply work_kept | with_reducible apply Kept.ite | with_reducible apply foldl_kept
    | dsimp -zeta only | extract_lets | split | dsimp +zetaDelta only
    | (rename_i e; have e := congrArg Prod.fst e; dsimp only at e; rw [← e])

theorem proceed_kept {t0 s0 : State} (h : Half) (ctx : Nat) (u : Option Upset) (kp : Kept tl pr t0 s0) :
    Kept tl pr t0 (State.proceed s0 h ctx u) := by
  unfold State.proceed
  repeat' first
    | intro _ | assumption | exact Kept.refl _ | exact HKept.of_eq rfl rfl | with_reducible apply freeThreads_kept
    | with_reducible apply stopEarly_kept | with_reducible apply takeThreads_kept
    | with_reducible apply workAdmitted_kept | with_reducible apply Kept.ite | with_reducible apply foldl_kept
    | dsimp -zeta only | extract_lets | split | dsimp +zetaDelta only
    | (rename_i e; have e := congrArg Prod.fst e; dsimp only at e; rw [← e])

theorem issue_kept {t0 s : State} (h : Half) (ctx : Nat) (cs : List (Nat × Rec)) (halo : Option (Nat × Nat)) (kp :
    Kept tl pr t0 s) :
    Kept tl pr t0 (State.issue s h ctx cs halo) := by
  unfold State.issue
  repeat' first
    | intro _ | assumption | exact Kept.refl _ | exact HKept.of_eq rfl rfl | with_reducible apply loseRun_kept
    | with_reducible apply teardown_kept | with_reducible apply awaitCue_kept | with_reducible apply modDisp_kept
    | with_reducible apply modJob_kept | with_reducible apply Kept.ite | with_reducible apply foldl_kept
    | dsimp -zeta only | extract_lets | split | dsimp +zetaDelta only
    | (rename_i e; have e := congrArg Prod.fst e; dsimp only at e; rw [← e])

theorem command_kept {t0 s : State} (h : Half) (ctx : Nat) (op : Op) (mode : Option Nat) (u : Option Upset) (halo :
    Option (Nat × Nat)) (kp : Kept tl pr t0 s) :
    Kept tl pr t0 (State.command s h ctx op mode u halo) := by
  unfold State.command
  repeat' first
    | intro _ | assumption | exact Kept.refl _ | exact HKept.of_eq rfl rfl | with_reducible apply dispatchBoth_kept
    | with_reducible apply proceed_kept | with_reducible apply issue_kept | with_reducible apply onLive_kept
    | with_reducible apply Kept.ite | with_reducible apply foldl_kept | dsimp -zeta only | extract_lets | split
    | dsimp +zetaDelta only | (rename_i e; have e := congrArg Prod.fst e; dsimp only at e; rw [← e])

/-! ### Banks -/

theorem handover_kept {t0 s : State} (h : Half) (bank : Nat) (v : Nat) (kp : Kept tl pr t0 s) :
    Kept tl pr t0 (State.handover s h bank v) := by
  unfold State.handover
  repeat' first
    | intro _ | assumption | exact Kept.refl _ | exact HKept.of_eq rfl rfl | with_reducible apply modBank_kept
    | with_reducible apply zeroBank_kept | with_reducible apply Kept.ite | with_reducible apply foldl_kept
    | dsimp -zeta only | extract_lets | split | dsimp +zetaDelta only
    | (rename_i e; have e := congrArg Prod.fst e; dsimp only at e; rw [← e])

theorem islandHandover_kept {t0 s : State} (h : Half) (bank : Nat) (v : Nat) (kp : Kept tl pr t0 s) :
    Kept tl pr t0 (State.islandHandover s h bank v) := by
  unfold State.islandHandover
  repeat' first
    | intro _ | assumption | exact Kept.refl _ | exact HKept.of_eq rfl rfl | with_reducible apply teardown_kept
    | with_reducible apply handover_kept | with_reducible apply Kept.ite | with_reducible apply foldl_kept
    | dsimp -zeta only | extract_lets | split | dsimp +zetaDelta only
    | (rename_i e; have e := congrArg Prod.fst e; dsimp only at e; rw [← e])

theorem refuseHandover_kept {t0 s : State} (h : Half) (bank : Nat) (tag : Nat) (kp : Kept tl pr t0 s) :
    Kept tl pr t0 (State.refuseHandover s h bank tag) := by
  unfold State.refuseHandover
  repeat' first
    | intro _ | assumption | exact Kept.refl _ | exact HKept.of_eq rfl rfl | with_reducible apply log_kept
    | with_reducible apply Kept.ite | with_reducible apply foldl_kept | dsimp -zeta only | extract_lets | split
    | dsimp +zetaDelta only | (rename_i e; have e := congrArg Prod.fst e; dsimp only at e; rw [← e])

theorem bankCtl_kept {t0 s : State} (h : Half) (bank : Nat) (v : Nat) (z0 : Writer) (kp : Kept tl pr t0 s) :
    Kept tl pr t0 (State.bankCtl s h bank v z0) := by
  unfold State.bankCtl
  repeat' first
    | intro _ | assumption | exact Kept.refl _ | exact HKept.of_eq rfl rfl | with_reducible apply handover_kept
    | with_reducible apply islandHandover_kept | with_reducible apply refuseHandover_kept
    | with_reducible apply Kept.ite | with_reducible apply foldl_kept | dsimp -zeta only | extract_lets | split
    | dsimp +zetaDelta only | (rename_i e; have e := congrArg Prod.fst e; dsimp only at e; rw [← e])

theorem execBankCtlWrite_kept {s out : State} (t : Nat) (h : Half) (bank : Nat) (v : BitVec 32) (who : Writer) (e :
    execBankCtlWrite t h bank v who s = .next out) : Kept tl pr s out := by
  cases e
  repeat' first
    | intro _ | assumption | exact Kept.refl _ | exact HKept.of_eq rfl rfl | with_reducible apply bankCtl_kept
    | with_reducible apply advance_kept | with_reducible apply onHalf_kept | with_reducible apply Kept.ite
    | with_reducible apply foldl_kept | dsimp -zeta only | extract_lets | split | dsimp +zetaDelta only
    | (rename_i e; have e := congrArg Prod.fst e; dsimp only at e; rw [← e])

theorem refusePacket_kept {t0 s : State} (h : Half) (p : LinkPacket) (owner : Bool) (kp : Kept tl pr t0 s) :
    Kept tl pr t0 (State.refusePacket s h p owner) := by
  unfold State.refusePacket
  repeat' first
    | intro _ | assumption | exact Kept.refl _ | exact HKept.of_eq rfl rfl | with_reducible apply log_kept
    | with_reducible apply faultJob_kept | with_reducible apply Kept.ite | with_reducible apply foldl_kept
    | dsimp -zeta only | extract_lets | split | dsimp +zetaDelta only
    | (rename_i e; have e := congrArg Prod.fst e; dsimp only at e; rw [← e])

theorem landPacket_kept {t0 s : State} (h : Half) (p : LinkPacket) (kp : Kept tl pr t0 s) :
    Kept tl pr t0 (State.landPacket s h p) := by
  unfold State.landPacket
  repeat' first
    | intro _ | assumption | exact Kept.refl _ | exact HKept.of_eq rfl rfl | with_reducible apply send_kept
    | with_reducible apply refusePacket_kept | with_reducible apply writeBytes_kept | with_reducible apply Kept.ite
    | with_reducible apply foldl_kept | dsimp -zeta only | extract_lets | split | dsimp +zetaDelta only
    | (rename_i e; have e := congrArg Prod.fst e; dsimp only at e; rw [← e])

theorem drain_kept {t0 s : State} (h : Half) (kp : Kept tl pr t0 s) :
    Kept tl pr t0 (State.drain s h) := by
  unfold State.drain
  repeat' first
    | intro _ | assumption | exact Kept.refl _ | exact HKept.of_eq rfl rfl | with_reducible apply dispatchBoth_kept
    | with_reducible apply landPacket_kept | with_reducible apply modLink_kept | with_reducible apply Kept.ite
    | with_reducible apply foldl_kept | dsimp -zeta only | extract_lets | split | dsimp +zetaDelta only
    | (rename_i e; have e := congrArg Prod.fst e; dsimp only at e; rw [← e])

/-! ### HznCfg -/

theorem modFrame_kept {t0 s : State} (h : Half) (k : Nat) (seq : Nat) (f : Frame → Frame) (kp : Kept tl pr t0 s) :
    Kept tl pr t0 (State.modFrame s h k seq f) := by
  unfold State.modFrame
  repeat' first
    | intro _ | assumption | exact Kept.refl _ | exact HKept.of_eq rfl rfl | with_reducible apply modStream_kept
    | with_reducible apply Kept.ite | with_reducible apply foldl_kept | dsimp -zeta only | extract_lets | split
    | dsimp +zetaDelta only | (rename_i e; have e := congrArg Prod.fst e; dsimp only at e; rw [← e])

/-! ### Delivery -/

theorem putRecord_kept {t0 s : State} (h : Half) (r : Nat) (i : RecordInfo) (payload : List Byte) (isData : Bool)
    (kp : Kept tl pr t0 s) : Kept tl pr t0 (s.putRecord h r i payload isData) := by
  unfold State.putRecord
  extract_lets
  exact modPcie_kept _ _ (modRing_kept _ _ _ (hostWrite_kept _ _ (hostWrite_kept _ _ (hostWrite_kept _ _
    (hostWrite_kept _ _ (hostWrite_kept _ _ kp))))))

theorem putOverflow_kept {t0 s : State} (h : Half) (r : Nat) (kp : Kept tl pr t0 s) :
    Kept tl pr t0 (State.putOverflow s h r) := by
  unfold State.putOverflow
  repeat' first
    | intro _ | assumption | exact Kept.refl _ | exact HKept.of_eq rfl rfl | with_reducible apply putRecord_kept
    | with_reducible apply modRing_kept | with_reducible apply Kept.ite | with_reducible apply foldl_kept
    | dsimp -zeta only | extract_lets | split | dsimp +zetaDelta only
    | (rename_i e; have e := congrArg Prod.fst e; dsimp only at e; rw [← e]) | with_reducible apply set_free_kept

theorem deliver_kept {t0 s : State} (h : Half) (k : Nat) (i : RecordInfo) (payload : List Byte) (kp : Kept tl pr t0 s) :
    Kept tl pr t0 (State.deliver s h k i payload) := by
  unfold State.deliver
  repeat' first
    | intro _ | assumption | exact Kept.refl _ | exact HKept.of_eq rfl rfl | with_reducible apply modFrame_kept
    | with_reducible apply putRecord_kept | with_reducible apply putOverflow_kept | with_reducible apply modStream_kept
    | with_reducible apply modRing_kept | with_reducible apply Kept.ite | with_reducible apply foldl_kept
    | dsimp -zeta only | extract_lets | split | dsimp +zetaDelta only
    | (rename_i e; have e := congrArg Prod.fst e; dsimp only at e; rw [← e])

theorem withhold_kept {t0 s : State} (h : Half) (k : Nat) (seq : Nat) (kp : Kept tl pr t0 s) :
    Kept tl pr t0 (State.withhold s h k seq) := by
  unfold State.withhold
  repeat' first
    | intro _ | assumption | exact Kept.refl _ | exact HKept.of_eq rfl rfl | with_reducible apply modFrame_kept
    | with_reducible apply deliver_kept | with_reducible apply Kept.ite | with_reducible apply foldl_kept
    | dsimp -zeta only | extract_lets | split | dsimp +zetaDelta only
    | (rename_i e; have e := congrArg Prod.fst e; dsimp only at e; rw [← e]) | with_reducible apply set_free_kept

theorem stopRun_kept {t0 s : State} (h : Half) (ctx : Nat) (kp : Kept tl pr t0 s) :
    Kept tl pr t0 (State.stopRun s h ctx) := by
  unfold State.stopRun
  repeat' first
    | intro _ | assumption | exact Kept.refl _ | exact HKept.of_eq rfl rfl | with_reducible apply kill_kept
    | with_reducible apply endRun_kept | with_reducible apply modDisp_kept | with_reducible apply Kept.ite
    | with_reducible apply foldl_kept | dsimp -zeta only | extract_lets | split | dsimp +zetaDelta only
    | (rename_i e; have e := congrArg Prod.fst e; dsimp only at e; rw [← e])

theorem stopRuns_kept {t0 s : State} (h : Half) (z0 : List Nat) (kp : Kept tl pr t0 s) :
    Kept tl pr t0 (State.stopRuns s h z0) := by
  induction z0 generalizing s with
  | nil => exact kp
  | cons x r ih =>
    unfold State.stopRuns
    repeat' first
      | with_reducible apply ih | intro _ | assumption | exact Kept.refl _ | exact HKept.of_eq rfl rfl
      | with_reducible apply stopRun_kept | with_reducible apply Kept.ite | with_reducible apply foldl_kept
      | dsimp -zeta only | extract_lets | split | dsimp +zetaDelta only
      | (rename_i e; have e := congrArg Prod.fst e; dsimp only at e; rw [← e])

theorem askToken_kept {t0 s : State} (h : Half) (ctx : Nat) (k : Nat) (seq : Nat) (kp : Kept tl pr t0 s) :
    Kept tl pr t0 (State.askToken s h ctx k seq) := by
  unfold State.askToken
  repeat' first
    | intro _ | assumption | exact Kept.refl _ | exact HKept.of_eq rfl rfl | with_reducible apply send_kept
    | with_reducible apply Kept.ite | with_reducible apply foldl_kept | dsimp -zeta only | extract_lets | split
    | dsimp +zetaDelta only | (rename_i e; have e := congrArg Prod.fst e; dsimp only at e; rw [← e])

/-! ### Fence -/

theorem recover_kept {t0 s : State} (h : Half) (ctx : Nat) (e : Event) (kp : Kept tl pr t0 s) :
    Kept tl pr t0 (State.recover s h ctx e) := by
  unfold State.recover
  repeat' first
    | intro _ | assumption | exact Kept.refl _ | exact HKept.of_eq rfl rfl | with_reducible apply log_kept
    | with_reducible apply kill_kept | with_reducible apply Kept.ite | with_reducible apply foldl_kept
    | dsimp -zeta only | extract_lets | split | dsimp +zetaDelta only
    | (rename_i e; have e := congrArg Prod.fst e; dsimp only at e; rw [← e])

theorem halfFault_kept {t0 s : State} (h : Half) (e : Event) (kp : Kept tl pr t0 s) :
    Kept tl pr t0 (State.halfFault s h e) := by
  unfold State.halfFault
  repeat' first
    | intro _ | assumption | exact Kept.refl _ | exact HKept.of_eq rfl rfl | with_reducible apply log_kept
    | with_reducible apply modIsl_kept | with_reducible apply modHalf_kept | with_reducible apply fence_hkept
    | with_reducible apply Kept.ite | with_reducible apply foldl_kept | dsimp -zeta only | extract_lets | split
    | dsimp +zetaDelta only | (rename_i e; have e := congrArg Prod.fst e; dsimp only at e; rw [← e])

theorem secureOnly_kept {t0 s : State} (h : Half) (unit : Nat) (w : World) (f : State → State) (kp : Kept tl pr t0
    s) (hf : ∀ t, Kept tl pr t0 t → Kept tl pr t0 (f t)) :
    Kept tl pr t0 (State.secureOnly s h unit w f) := by
  unfold State.secureOnly
  repeat' first
    | intro _ | assumption | exact Kept.refl _ | exact HKept.of_eq rfl rfl | with_reducible apply logUnlisted_kept
    | with_reducible apply hf | with_reducible apply Kept.ite | with_reducible apply foldl_kept | dsimp -zeta only
    | extract_lets | split | dsimp +zetaDelta only
    | (rename_i e; have e := congrArg Prod.fst e; dsimp only at e; rw [← e])

/-! ### Dolly -/

theorem modThread_kept {t0 s : State} (h : Half) (n : Nat) (f : Thread → Thread) (kp : Kept tl pr t0 s) :
    Kept tl pr t0 (State.modThread s h n f) := by
  unfold State.modThread
  repeat' first
    | intro _ | assumption | exact Kept.refl _ | exact HKept.of_eq rfl rfl | with_reducible apply modDolly_kept
    | with_reducible apply Kept.ite | with_reducible apply foldl_kept | dsimp -zeta only | extract_lets | split
    | dsimp +zetaDelta only | (rename_i e; have e := congrArg Prod.fst e; dsimp only at e; rw [← e])

theorem refuseAccess_kept {t0 s : State} (h : Half) (n : Nat) (t : Thread) (addr : Nat) (kp : Kept tl pr t0 s) :
    Kept tl pr t0 (State.refuseAccess s h n t addr) := by
  unfold State.refuseAccess
  repeat' first
    | intro _ | assumption | exact Kept.refl _ | exact HKept.of_eq rfl rfl | with_reducible apply log_kept
    | with_reducible apply stopEarly_kept | with_reducible apply faultJob_kept | with_reducible apply Kept.ite
    | with_reducible apply foldl_kept | dsimp -zeta only | extract_lets | split | dsimp +zetaDelta only
    | (rename_i e; have e := congrArg Prod.fst e; dsimp only at e; rw [← e])

theorem spendFor_kept {t0 s : State} (h : Half) (ctx : Nat) (bucket : Nat) (k : Nat) (kp : Kept tl pr t0 s) :
    Kept tl pr t0 (State.spendFor s h ctx bucket k) := by
  unfold State.spendFor
  repeat' first
    | intro _ | assumption | exact Kept.refl _ | exact HKept.of_eq rfl rfl | with_reducible apply modJob_kept
    | with_reducible apply modDolly_kept | with_reducible apply Kept.ite | with_reducible apply foldl_kept
    | dsimp -zeta only | extract_lets | split | dsimp +zetaDelta only
    | (rename_i e; have e := congrArg Prod.fst e; dsimp only at e; rw [← e])

theorem answerLine_kept {t0 s : State} (h : Half) (n : Nat) (gen : Nat) (addr : Nat) (check : LineCheck) (kp : Kept
    tl pr t0 s) :
    Kept tl pr t0 (State.answerLine s h n gen addr check) := by
  unfold State.answerLine
  repeat' first
    | intro _ | assumption | exact Kept.refl _ | exact HKept.of_eq rfl rfl | with_reducible apply lineCheck_kept
    | with_reducible apply dispatch_kept | with_reducible apply disagree_kept | with_reducible apply recover_kept
    | with_reducible apply modThread_kept | with_reducible apply refuseAccess_kept | with_reducible apply spendFor_kept
    | with_reducible apply modDolly_kept | with_reducible apply Kept.ite | with_reducible apply foldl_kept
    | dsimp -zeta only | extract_lets | split | dsimp +zetaDelta only
    | (rename_i e; have e := congrArg Prod.fst e; dsimp only at e; rw [← e])

theorem execLineResponse_kept {s out : State} (t : Nat) (h : Half) (thread : Nat) (gen : Nat) (addr : Nat) (check :
    LineCheck) (e : execLineResponse t h thread gen addr check s = .next out) : Kept tl pr s out := by
  cases e
  repeat' first
    | intro _ | assumption | exact Kept.refl _ | exact HKept.of_eq rfl rfl | with_reducible apply faultJob_kept
    | with_reducible apply answerLine_kept | with_reducible apply advance_kept | with_reducible apply onLive_kept
    | with_reducible apply Kept.ite | with_reducible apply foldl_kept | dsimp -zeta only | extract_lets | split
    | dsimp +zetaDelta only | (rename_i e; have e := congrArg Prod.fst e; dsimp only at e; rw [← e])

theorem execScrubber_kept {s out : State} (t : Nat) (h : Half) (check : LineCheck) (e : execScrubber t h check s =
    .next out) : Kept tl pr s out := by
  cases e
  repeat' first
    | intro _ | assumption | exact Kept.refl _ | exact HKept.of_eq rfl rfl | with_reducible apply log_kept
    | with_reducible apply lineCheck_kept | with_reducible apply disagree_kept | with_reducible apply modDolly_kept
    | with_reducible apply advance_kept | with_reducible apply onLive_kept | with_reducible apply Kept.ite
    | with_reducible apply foldl_kept | dsimp -zeta only | extract_lets | split | dsimp +zetaDelta only
    | (rename_i e; have e := congrArg Prod.fst e; dsimp only at e; rw [← e])

theorem dollyApply_kept {t0 s : State} (h : Half) (w : World) (kp : Kept tl pr t0 s) :
    Kept tl pr t0 (State.dollyApply s h w) := by
  unfold State.dollyApply
  repeat' first
    | intro _ | assumption | exact Kept.refl _ | exact HKept.of_eq rfl rfl | with_reducible apply secureOnly_kept
    | with_reducible apply modDolly_kept | with_reducible apply Kept.ite | with_reducible apply foldl_kept
    | dsimp -zeta only | extract_lets | split | dsimp +zetaDelta only
    | (rename_i e; have e := congrArg Prod.fst e; dsimp only at e; rw [← e])

theorem execDollyApply_kept {s out : State} (t : Nat) (h : Half) (w : World) (e : execDollyApply t h w s = .next
    out) : Kept tl pr s out := by
  cases e
  repeat' first
    | intro _ | assumption | exact Kept.refl _ | exact HKept.of_eq rfl rfl | with_reducible apply dollyApply_kept
    | with_reducible apply advance_kept | with_reducible apply onLive_kept | with_reducible apply Kept.ite
    | with_reducible apply foldl_kept | dsimp -zeta only | extract_lets | split | dsimp +zetaDelta only
    | (rename_i e; have e := congrArg Prod.fst e; dsimp only at e; rw [← e])

theorem groupCtl_kept {t0 s : State} (h : Half) (group : Nat) (value : Nat) (w : World) (kp : Kept tl pr t0 s) :
    Kept tl pr t0 (State.groupCtl s h group value w) := by
  unfold State.groupCtl
  repeat' first
    | intro _ | assumption | exact Kept.refl _ | exact HKept.of_eq rfl rfl | with_reducible apply logUnlisted_kept
    | with_reducible apply secureOnly_kept | with_reducible apply modDolly_kept | with_reducible apply Kept.ite
    | with_reducible apply foldl_kept | dsimp -zeta only | extract_lets | split | dsimp +zetaDelta only
    | (rename_i e; have e := congrArg Prod.fst e; dsimp only at e; rw [← e])

theorem execGroupCtlWrite_kept {s out : State} (t : Nat) (h : Half) (group : Nat) (value : BitVec 32) (w : World) (e
    : execGroupCtlWrite t h group value w s = .next out) : Kept tl pr s out := by
  cases e
  repeat' first
    | intro _ | assumption | exact Kept.refl _ | exact HKept.of_eq rfl rfl | with_reducible apply groupCtl_kept
    | with_reducible apply advance_kept | with_reducible apply onLive_kept | with_reducible apply Kept.ite
    | with_reducible apply foldl_kept | dsimp -zeta only | extract_lets | split | dsimp +zetaDelta only
    | (rename_i e; have e := congrArg Prod.fst e; dsimp only at e; rw [← e])

/-! ### HbmQueue -/

theorem modPc_kept {t0 s : State} (h : Half) (pc : Nat) (f : HbmQueue → HbmQueue) (kp : Kept tl pr t0 s) :
    Kept tl pr t0 (State.modPc s h pc f) := by
  unfold State.modPc
  repeat' first
    | intro _ | assumption | exact Kept.refl _ | exact HKept.of_eq rfl rfl | with_reducible apply modHbm_kept
    | with_reducible apply Kept.ite | with_reducible apply foldl_kept | dsimp -zeta only | extract_lets | split
    | dsimp +zetaDelta only | (rename_i e; have e := congrArg Prod.fst e; dsimp only at e; rw [← e])

theorem modPcErr_kept {t0 s : State} (h : Half) (pc : Nat) (f : HbmErr → HbmErr) (kp : Kept tl pr t0 s) :
    Kept tl pr t0 (State.modPcErr s h pc f) := by
  unfold State.modPcErr
  repeat' first
    | intro _ | assumption | exact Kept.refl _ | exact HKept.of_eq rfl rfl | with_reducible apply modHbm_kept
    | with_reducible apply Kept.ite | with_reducible apply foldl_kept | dsimp -zeta only | extract_lets | split
    | dsimp +zetaDelta only | (rename_i e; have e := congrArg Prod.fst e; dsimp only at e; rw [← e])

theorem enqueue_kept {t0 s : State} (h : Half) (port : HbmPort) (addr : Nat) (kp : Kept tl pr t0 s) :
    Kept tl pr t0 (State.enqueue s h port addr) := by
  unfold State.enqueue
  repeat' first
    | intro _ | assumption | exact Kept.refl _ | exact HKept.of_eq rfl rfl | with_reducible apply modPc_kept
    | with_reducible apply Kept.ite | with_reducible apply foldl_kept | dsimp -zeta only | extract_lets | split
    | dsimp +zetaDelta only | (rename_i e; have e := congrArg Prod.fst e; dsimp only at e; rw [← e])

theorem serveRead_kept {t0 s : State} (h : Half) (port : HbmPort) (addr : Nat) (kp : Kept tl pr t0 s) :
    Kept tl pr t0 (State.serveRead s h port addr).1 := by
  unfold State.serveRead
  repeat' first
    | intro _ | assumption | exact Kept.refl _ | exact HKept.of_eq rfl rfl | with_reducible apply serve_kept
    | with_reducible apply modPc_kept | with_reducible apply Kept.ite | with_reducible apply foldl_kept
    | dsimp -zeta only | extract_lets | split | dsimp +zetaDelta only
    | (rename_i e; have e := congrArg Prod.fst e; dsimp only at e; rw [← e])

theorem portSpend_kept {t0 s : State} (h : Half) (port : HbmPort) (kp : Kept tl pr t0 s) :
    Kept tl pr t0 (State.portSpend s h port) := by
  unfold State.portSpend
  repeat' first
    | intro _ | assumption | exact Kept.refl _ | exact HKept.of_eq rfl rfl | with_reducible apply modHbm_kept
    | with_reducible apply Kept.ite | with_reducible apply foldl_kept | dsimp -zeta only | extract_lets | split
    | dsimp +zetaDelta only | (rename_i e; have e := congrArg Prod.fst e; dsimp only at e; rw [← e])

theorem portUse_kept {t0 s : State} (h : Half) (port : HbmPort) (r : Region) (kp : Kept tl pr t0 s) :
    Kept tl pr t0 (State.portUse s h port r) := by
  unfold State.portUse
  repeat' first
    | intro _ | assumption | exact Kept.refl _ | exact HKept.of_eq rfl rfl | with_reducible apply enqueue_kept
    | with_reducible apply modHbm_kept | with_reducible apply Kept.ite | with_reducible apply foldl_kept
    | dsimp -zeta only | extract_lets | split | dsimp +zetaDelta only
    | (rename_i e; have e := congrArg Prod.fst e; dsimp only at e; rw [← e])

/-! ### Hbm -/

theorem execHbmRefresh_kept {s out : State} (t : Nat) (h : Half) (pc : Nat) (bank : Nat) (e : execHbmRefresh t h pc
    bank s = .next out) : Kept tl pr s out := by
  cases e
  repeat' first
    | intro _ | assumption | exact Kept.refl _ | exact HKept.of_eq rfl rfl | with_reducible apply modPc_kept
    | with_reducible apply advance_kept | with_reducible apply onHalf_kept | with_reducible apply Kept.ite
    | with_reducible apply foldl_kept | dsimp -zeta only | extract_lets | split | dsimp +zetaDelta only
    | (rename_i e; have e := congrArg Prod.fst e; dsimp only at e; rw [← e]) | with_reducible apply set_free_kept

theorem execHbmRetrainStep_kept {s out : State} (t : Nat) (h : Half) (pc : Nat) (bank : Nat) (e : execHbmRetrainStep
    t h pc bank s = .next out) : Kept tl pr s out := by
  cases e
  repeat' first
    | intro _ | assumption | exact Kept.refl _ | exact HKept.of_eq rfl rfl | with_reducible apply modPc_kept
    | with_reducible apply advance_kept | with_reducible apply modHbm_kept | with_reducible apply onLive_kept
    | with_reducible apply Kept.ite | with_reducible apply foldl_kept | dsimp -zeta only | extract_lets | split
    | dsimp +zetaDelta only | (rename_i e; have e := congrArg Prod.fst e; dsimp only at e; rw [← e])
    | with_reducible apply set_free_kept

theorem execRetrainDue_kept {s out : State} (t : Nat) (h : Half) (e : execRetrainDue t h s = .next out) : Kept tl pr
    s out := by
  cases e
  repeat' first
    | intro _ | assumption | exact Kept.refl _ | exact HKept.of_eq rfl rfl | with_reducible apply advance_kept
    | with_reducible apply modHbm_kept | with_reducible apply onHalf_kept | with_reducible apply Kept.ite
    | with_reducible apply foldl_kept | dsimp -zeta only | extract_lets | split | dsimp +zetaDelta only
    | (rename_i e; have e := congrArg Prod.fst e; dsimp only at e; rw [← e])

theorem execHbmRetrainLate_kept {s out : State} (t : Nat) (h : Half) (e : execHbmRetrainLate t h s = .next out) :
    Kept tl pr s out := by
  cases e
  repeat' first
    | intro _ | assumption | exact Kept.refl _ | exact HKept.of_eq rfl rfl | with_reducible apply log_kept
    | with_reducible apply advance_kept | with_reducible apply modHbm_kept | with_reducible apply onHalf_kept
    | with_reducible apply Kept.ite | with_reducible apply foldl_kept | dsimp -zeta only | extract_lets | split
    | dsimp +zetaDelta only | (rename_i e; have e := congrArg Prod.fst e; dsimp only at e; rw [← e])

theorem execHbmTraining_kept {s out : State} (t : Nat) (h : Half) (ok : Bool) (lanes : Nat) (e : execHbmTraining t h
    ok lanes s = .next out) : Kept tl pr s out := by
  cases e
  repeat' first
    | intro _ | assumption | exact Kept.refl _ | exact HKept.of_eq rfl rfl | with_reducible apply log_kept
    | with_reducible apply advance_kept | with_reducible apply modHbm_kept | with_reducible apply onHalf_kept
    | with_reducible apply Kept.ite | with_reducible apply foldl_kept | dsimp -zeta only | extract_lets | split
    | dsimp +zetaDelta only | (rename_i e; have e := congrArg Prod.fst e; dsimp only at e; rw [← e])

theorem execHbmTempRead_kept {s out : State} (t : Nat) (h : Half) (temp : Nat) (e : execHbmTempRead t h temp s =
    .next out) : Kept tl pr s out := by
  cases e
  repeat' first
    | intro _ | assumption | exact Kept.refl _ | exact HKept.of_eq rfl rfl | with_reducible apply advance_kept
    | with_reducible apply modHbm_kept | with_reducible apply onHalf_kept | with_reducible apply Kept.ite
    | with_reducible apply foldl_kept | dsimp -zeta only | extract_lets | split | dsimp +zetaDelta only
    | (rename_i e; have e := congrArg Prod.fst e; dsimp only at e; rw [← e])

theorem hbmError_kept {t0 s : State} (h : Half) (type : Nat) (port : HbmPort) (addr : Nat) (syn : Nat) (kp : Kept tl
    pr t0 s) :
    Kept tl pr t0 (State.hbmError s h type port addr syn) := by
  unfold State.hbmError
  repeat' first
    | intro _ | assumption | exact Kept.refl _ | exact HKept.of_eq rfl rfl | with_reducible apply log_kept
    | with_reducible apply modHbm_kept | with_reducible apply Kept.ite | with_reducible apply foldl_kept
    | dsimp -zeta only | extract_lets | split | dsimp +zetaDelta only
    | (rename_i e; have e := congrArg Prod.fst e; dsimp only at e; rw [← e])

theorem markLanded_kept {t0 s : State} (h : Half) (k : Nat) (addr : Nat) (kp : Kept tl pr t0 s) :
    Kept tl pr t0 (State.markLanded s h k addr) := by
  unfold State.markLanded
  repeat' first
    | intro _ | assumption | exact Kept.refl _ | exact HKept.of_eq rfl rfl | with_reducible apply modStream_kept
    | with_reducible apply Kept.ite | with_reducible apply foldl_kept | dsimp -zeta only | extract_lets | split
    | dsimp +zetaDelta only | (rename_i e; have e := congrArg Prod.fst e; dsimp only at e; rw [← e])

theorem errorResponse_kept {t0 s : State} (h : Half) (addr : Nat) (z0 : HbmPort) (kp : Kept tl pr t0 s) :
    Kept tl pr t0 (State.errorResponse s h addr z0) := by
  unfold State.errorResponse
  repeat' first
    | intro _ | assumption | exact Kept.refl _ | exact HKept.of_eq rfl rfl | with_reducible apply kill_kept
    | with_reducible apply dispatch_kept | with_reducible apply markLanded_kept | with_reducible apply Kept.ite
    | with_reducible apply foldl_kept | dsimp -zeta only | extract_lets | split | dsimp +zetaDelta only
    | (rename_i e; have e := congrArg Prod.fst e; dsimp only at e; rw [← e])

theorem hbmFails_kept {t0 s : State} (h : Half) (type : Nat) (port : HbmPort) (addr : Nat) (syn : Nat) (kp : Kept tl
    pr t0 s) :
    Kept tl pr t0 (State.hbmFails s h type port addr syn) := by
  unfold State.hbmFails
  repeat' first
    | intro _ | assumption | exact Kept.refl _ | exact HKept.of_eq rfl rfl | with_reducible apply hbmError_kept
    | with_reducible apply errorResponse_kept | with_reducible apply Kept.ite | with_reducible apply foldl_kept
    | dsimp -zeta only | extract_lets | split | dsimp +zetaDelta only
    | (rename_i e; have e := congrArg Prod.fst e; dsimp only at e; rw [← e])

theorem dropLate_kept {t0 s : State} (h : Half) (port : HbmPort) (addr : Nat) (kp : Kept tl pr t0 s) :
    Kept tl pr t0 (State.dropLate s h port addr) := by
  unfold State.dropLate
  repeat' first
    | intro _ | assumption | exact Kept.refl _ | exact HKept.of_eq rfl rfl | with_reducible apply modHbm_kept
    | with_reducible apply Kept.ite | with_reducible apply foldl_kept | dsimp -zeta only | extract_lets | split
    | dsimp +zetaDelta only | (rename_i e; have e := congrArg Prod.fst e; dsimp only at e; rw [← e])

theorem portDecode_kept {t0 s : State} (h : Half) (port : HbmPort) (addr : Nat) (kp : Kept tl pr t0 s) :
    Kept tl pr t0 (State.portDecode s h port addr) := by
  unfold State.portDecode
  repeat' first
    | intro _ | assumption | exact Kept.refl _ | exact HKept.of_eq rfl rfl | with_reducible apply log_kept
    | with_reducible apply faultJob_kept | with_reducible apply errorResponse_kept | with_reducible apply Kept.ite
    | with_reducible apply foldl_kept | dsimp -zeta only | extract_lets | split | dsimp +zetaDelta only
    | (rename_i e; have e := congrArg Prod.fst e; dsimp only at e; rw [← e])

theorem portMiss_kept {t0 s : State} (h : Half) (port : HbmPort) (write : Bool) (addr : Nat) (kp : Kept tl pr t0 s) :
    Kept tl pr t0 (State.portMiss s h port write addr) := by
  unfold State.portMiss
  repeat' first
    | intro _ | assumption | exact Kept.refl _ | exact HKept.of_eq rfl rfl | with_reducible apply portDecode_kept
    | with_reducible apply Kept.ite | with_reducible apply foldl_kept | dsimp -zeta only | extract_lets | split
    | dsimp +zetaDelta only | (rename_i e; have e := congrArg Prod.fst e; dsimp only at e; rw [← e])

theorem stallFor_kept {t0 s : State} (h : Half) (addr : Nat) (z0 : HbmPort) (kp : Kept tl pr t0 s) :
    Kept tl pr t0 (State.stallFor s h addr z0) := by
  unfold State.stallFor
  repeat' first
    | intro _ | assumption | exact Kept.refl _ | exact HKept.of_eq rfl rfl | with_reducible apply modThread_kept
    | with_reducible apply Kept.ite | with_reducible apply foldl_kept | dsimp -zeta only | extract_lets | split
    | dsimp +zetaDelta only | (rename_i e; have e := congrArg Prod.fst e; dsimp only at e; rw [← e])

theorem portRefuse_kept {t0 s : State} (h : Half) (port : HbmPort) (addr : Nat) (kp : Kept tl pr t0 s) :
    Kept tl pr t0 (State.portRefuse s h port addr) := by
  unfold State.portRefuse
  repeat' first
    | intro _ | assumption | exact Kept.refl _ | exact HKept.of_eq rfl rfl | with_reducible apply logUnlisted_kept
    | with_reducible apply faultJob_kept | with_reducible apply errorResponse_kept | with_reducible apply Kept.ite
    | with_reducible apply foldl_kept | dsimp -zeta only | extract_lets | split | dsimp +zetaDelta only
    | (rename_i e; have e := congrArg Prod.fst e; dsimp only at e; rw [← e])

theorem readRefuse_kept {t0 s : State} (h : Half) (port : HbmPort) (addr : Nat) (kp : Kept tl pr t0 s) :
    Kept tl pr t0 (State.readRefuse s h port addr) := by
  unfold State.readRefuse
  repeat' first
    | intro _ | assumption | exact Kept.refl _ | exact HKept.of_eq rfl rfl | with_reducible apply faultJob_kept
    | with_reducible apply Kept.ite | with_reducible apply foldl_kept | dsimp -zeta only | extract_lets | split
    | dsimp +zetaDelta only | (rename_i e; have e := congrArg Prod.fst e; dsimp only at e; rw [← e])

theorem countRead_kept {t0 s : State} (h : Half) (addr : Nat) (check : HbmCheck) (kp : Kept tl pr t0 s) :
    Kept tl pr t0 (State.countRead s h addr check) := by
  unfold State.countRead
  repeat' first
    | intro _ | assumption | exact Kept.refl _ | exact HKept.of_eq rfl rfl | with_reducible apply modPcErr_kept
    | with_reducible apply Kept.ite | with_reducible apply foldl_kept | dsimp -zeta only | extract_lets | split
    | dsimp +zetaDelta only | (rename_i e; have e := congrArg Prod.fst e; dsimp only at e; rw [← e])

theorem answerRead_kept {t0 s : State} (h : Half) (addr : Nat) (z0 : HbmPort) (kp : Kept tl pr t0 s) :
    Kept tl pr t0 (State.answerRead s h addr z0) := by
  unfold State.answerRead
  repeat' first
    | intro _ | assumption | exact Kept.refl _ | exact HKept.of_eq rfl rfl | with_reducible apply modJob_kept
    | with_reducible apply Kept.ite | with_reducible apply foldl_kept | dsimp -zeta only | extract_lets | split
    | dsimp +zetaDelta only | (rename_i e; have e := congrArg Prod.fst e; dsimp only at e; rw [← e])

theorem execHbmReadResponse_kept {s out : State} (t : Nat) (h : Half) (port : HbmPort) (addr : Nat) (answer :
    HbmAnswer) (e : execHbmReadResponse t h port addr answer s = .next out) : Kept tl pr s out := by
  cases e
  repeat' first
    | intro _ | assumption | exact Kept.refl _ | exact HKept.of_eq rfl rfl | with_reducible apply serveRead_kept
    | with_reducible apply portSpend_kept | with_reducible apply hbmError_kept | with_reducible apply hbmFails_kept
    | with_reducible apply dropLate_kept | with_reducible apply portDecode_kept | with_reducible apply portMiss_kept
    | with_reducible apply stallFor_kept | with_reducible apply readRefuse_kept | with_reducible apply countRead_kept
    | with_reducible apply answerRead_kept | with_reducible apply advance_kept | with_reducible apply onHalf_kept
    | with_reducible apply Kept.ite | with_reducible apply foldl_kept | dsimp -zeta only | extract_lets | split
    | dsimp +zetaDelta only | (rename_i e; have e := congrArg Prod.fst e; dsimp only at e; rw [← e])

theorem acceptWrite_kept {t0 s : State} (h : Half) (port : HbmPort) (addr : Nat) (data : List Byte) (kp : Kept tl pr
    t0 s) :
    Kept tl pr t0 (State.acceptWrite s h port addr data) := by
  unfold State.acceptWrite
  repeat' first
    | intro _ | assumption | exact Kept.refl _ | exact HKept.of_eq rfl rfl | with_reducible apply enqueue_kept
    | with_reducible apply writeBytes_kept | with_reducible apply modJob_kept | with_reducible apply Kept.ite
    | with_reducible apply foldl_kept | dsimp -zeta only | extract_lets | split | dsimp +zetaDelta only
    | (rename_i e; have e := congrArg Prod.fst e; dsimp only at e; rw [← e])

theorem execHbmWrite_kept {s out : State} (t : Nat) (h : Half) (port : HbmPort) (addr : Nat) (data : List Byte)
    (check : HbmWriteCheck) (e : execHbmWrite t h port addr data check s = .next out) : Kept tl pr s out := by
  cases e
  repeat' first
    | intro _ | assumption | exact Kept.refl _ | exact HKept.of_eq rfl rfl | with_reducible apply portSpend_kept
    | with_reducible apply hbmError_kept | with_reducible apply hbmFails_kept | with_reducible apply dropLate_kept
    | with_reducible apply portDecode_kept | with_reducible apply portMiss_kept | with_reducible apply stallFor_kept
    | with_reducible apply portRefuse_kept | with_reducible apply acceptWrite_kept | with_reducible apply advance_kept
    | with_reducible apply onLive_kept | with_reducible apply Kept.ite | with_reducible apply foldl_kept
    | dsimp -zeta only | extract_lets | split | dsimp +zetaDelta only
    | (rename_i e; have e := congrArg Prod.fst e; dsimp only at e; rw [← e])

theorem failQueued_kept {t0 s : State} (h : Half) (pc : Nat) (kp : Kept tl pr t0 s) :
    Kept tl pr t0 (State.failQueued s h pc) := by
  unfold State.failQueued
  repeat' first
    | intro _ | assumption | exact Kept.refl _ | exact HKept.of_eq rfl rfl | with_reducible apply modPc_kept
    | with_reducible apply errorResponse_kept | with_reducible apply Kept.ite | with_reducible apply foldl_kept
    | dsimp -zeta only | extract_lets | split | dsimp +zetaDelta only
    | (rename_i e; have e := congrArg Prod.fst e; dsimp only at e; rw [← e])

theorem execHbmParity_kept {s out : State} (t : Nat) (h : Half) (port : HbmPort) (addr : Nat) (again : Bool) (e :
    execHbmParity t h port addr again s = .next out) : Kept tl pr s out := by
  cases e
  repeat' first
    | intro _ | assumption | exact Kept.refl _ | exact HKept.of_eq rfl rfl | with_reducible apply kill_kept
    | with_reducible apply dispatch_kept | with_reducible apply modPcErr_kept | with_reducible apply hbmFails_kept
    | with_reducible apply failQueued_kept | with_reducible apply advance_kept | with_reducible apply onLive_kept
    | with_reducible apply Kept.ite | with_reducible apply foldl_kept | dsimp -zeta only | extract_lets | split
    | dsimp +zetaDelta only | (rename_i e; have e := congrArg Prod.fst e; dsimp only at e; rw [← e])

theorem timeOut_kept {t0 s : State} (h : Half) (port : HbmPort) (addr : Nat) (kp : Kept tl pr t0 s) :
    Kept tl pr t0 (State.timeOut s h port addr) := by
  unfold State.timeOut
  repeat' first
    | intro _ | assumption | exact Kept.refl _ | exact HKept.of_eq rfl rfl | with_reducible apply hbmFails_kept
    | with_reducible apply modHbm_kept | with_reducible apply Kept.ite | with_reducible apply foldl_kept
    | dsimp -zeta only | extract_lets | split | dsimp +zetaDelta only
    | (rename_i e; have e := congrArg Prod.fst e; dsimp only at e; rw [← e])

theorem execHbmTimeout_kept {s out : State} (t : Nat) (h : Half) (port : HbmPort) (addr : Nat) (e : execHbmTimeout t
    h port addr s = .next out) : Kept tl pr s out := by
  cases e
  repeat' first
    | intro _ | assumption | exact Kept.refl _ | exact HKept.of_eq rfl rfl | with_reducible apply timeOut_kept
    | with_reducible apply advance_kept | with_reducible apply onLive_kept | with_reducible apply Kept.ite
    | with_reducible apply foldl_kept | dsimp -zeta only | extract_lets | split | dsimp +zetaDelta only
    | (rename_i e; have e := congrArg Prod.fst e; dsimp only at e; rw [← e])

theorem hbmApply_kept {t0 s : State} (h : Half) (w : World) (kp : Kept tl pr t0 s) :
    Kept tl pr t0 (State.hbmApply s h w) := by
  unfold State.hbmApply
  repeat' first
    | intro _ | assumption | exact Kept.refl _ | exact HKept.of_eq rfl rfl | with_reducible apply secureOnly_kept
    | with_reducible apply modHbm_kept | with_reducible apply Kept.ite | with_reducible apply foldl_kept
    | dsimp -zeta only | extract_lets | split | dsimp +zetaDelta only
    | (rename_i e; have e := congrArg Prod.fst e; dsimp only at e; rw [← e])

theorem execHbmApply_kept {s out : State} (t : Nat) (h : Half) (w : World) (e : execHbmApply t h w s = .next out) :
    Kept tl pr s out := by
  cases e
  repeat' first
    | intro _ | assumption | exact Kept.refl _ | exact HKept.of_eq rfl rfl | with_reducible apply hbmApply_kept
    | with_reducible apply advance_kept | with_reducible apply onLive_kept | with_reducible apply Kept.ite
    | with_reducible apply foldl_kept | dsimp -zeta only | extract_lets | split | dsimp +zetaDelta only
    | (rename_i e; have e := congrArg Prod.fst e; dsimp only at e; rw [← e])

/-! ### Horizon -/

theorem modPort_kept {t0 s : State} (h : Half) (p : Nat) (f : Port → Port) (kp : Kept tl pr t0 s) :
    Kept tl pr t0 (State.modPort s h p f) := by
  unfold State.modPort
  repeat' first
    | intro _ | assumption | exact Kept.refl _ | exact HKept.of_eq rfl rfl | with_reducible apply modHzn_kept
    | with_reducible apply Kept.ite | with_reducible apply foldl_kept | dsimp -zeta only | extract_lets | split
    | dsimp +zetaDelta only | (rename_i e; have e := congrArg Prod.fst e; dsimp only at e; rw [← e])

theorem discard_kept {t0 s : State} (h : Half) (p : Nat) (kp : Kept tl pr t0 s) :
    Kept tl pr t0 (State.discard s h p) := by
  unfold State.discard
  repeat' first
    | intro _ | assumption | exact Kept.refl _ | exact HKept.of_eq rfl rfl | with_reducible apply modPort_kept
    | with_reducible apply Kept.ite | with_reducible apply foldl_kept | dsimp -zeta only | extract_lets | split
    | dsimp +zetaDelta only | (rename_i e; have e := congrArg Prod.fst e; dsimp only at e; rw [← e])

theorem headerCount_kept {t0 s : State} (h : Half) (p : Nat) (corrected : Bool) (kp : Kept tl pr t0 s) :
    Kept tl pr t0 (State.headerCount s h p corrected) := by
  unfold State.headerCount
  repeat' first
    | intro _ | assumption | exact Kept.refl _ | exact HKept.of_eq rfl rfl | with_reducible apply modPort_kept
    | with_reducible apply Kept.ite | with_reducible apply foldl_kept | dsimp -zeta only | extract_lets | split
    | dsimp +zetaDelta only | (rename_i e; have e := congrArg Prod.fst e; dsimp only at e; rw [← e])

theorem execFrameEnd_kept {s out : State} (t : Nat) (h : Half) (port : Nat) (vc : Nat) (corrected : Bool) (e :
    execFrameEnd t h port vc corrected s = .next out) : Kept tl pr s out := by
  cases e
  repeat' first
    | intro _ | assumption | exact Kept.refl _ | exact HKept.of_eq rfl rfl | with_reducible apply discard_kept
    | with_reducible apply headerCount_kept | with_reducible apply modStream_kept | with_reducible apply advance_kept
    | with_reducible apply onLive_kept | with_reducible apply Kept.ite | with_reducible apply foldl_kept
    | dsimp -zeta only | extract_lets | split | dsimp +zetaDelta only
    | (rename_i e; have e := congrArg Prod.fst e; dsimp only at e; rw [← e])

theorem execLineCount_kept {s out : State} (t : Nat) (h : Half) (stream : Nat) (e : execLineCount t h stream s =
    .next out) : Kept tl pr s out := by
  cases e
  repeat' first
    | intro _ | assumption | exact Kept.refl _ | exact HKept.of_eq rfl rfl | with_reducible apply modStream_kept
    | with_reducible apply advance_kept | with_reducible apply onLive_kept | with_reducible apply Kept.ite
    | with_reducible apply foldl_kept | dsimp -zeta only | extract_lets | split | dsimp +zetaDelta only
    | (rename_i e; have e := congrArg Prod.fst e; dsimp only at e; rw [← e])

theorem execLineLate_kept {s out : State} (t : Nat) (h : Half) (stream : Nat) (frame : Nat) (e : execLineLate t h
    stream frame s = .next out) : Kept tl pr s out := by
  cases e
  repeat' first
    | intro _ | assumption | exact Kept.refl _ | exact HKept.of_eq rfl rfl | with_reducible apply modStream_kept
    | with_reducible apply advance_kept | with_reducible apply onLive_kept | with_reducible apply Kept.ite
    | with_reducible apply foldl_kept | dsimp -zeta only | extract_lets | split | dsimp +zetaDelta only
    | (rename_i e; have e := congrArg Prod.fst e; dsimp only at e; rw [← e])

theorem execHdrUe_kept {s out : State} (t : Nat) (h : Half) (port : Nat) (e : execHdrUe t h port s = .next out) :
    Kept tl pr s out := by
  cases e
  repeat' first
    | intro _ | assumption | exact Kept.refl _ | exact HKept.of_eq rfl rfl | with_reducible apply discard_kept
    | with_reducible apply modHzn_kept | with_reducible apply advance_kept | with_reducible apply onLive_kept
    | with_reducible apply Kept.ite | with_reducible apply foldl_kept | dsimp -zeta only | extract_lets | split
    | dsimp +zetaDelta only | (rename_i e; have e := congrArg Prod.fst e; dsimp only at e; rw [← e])

theorem execLineStart_kept {s out : State} (t : Nat) (h : Half) (port : Nat) (vc : Nat) (corrected : Bool) (e :
    execLineStart t h port vc corrected s = .next out) : Kept tl pr s out := by
  cases e
  repeat' first
    | intro _ | assumption | exact Kept.refl _ | exact HKept.of_eq rfl rfl | with_reducible apply discard_kept
    | with_reducible apply headerCount_kept | with_reducible apply modStream_kept | with_reducible apply modHzn_kept
    | with_reducible apply advance_kept | with_reducible apply onLive_kept | with_reducible apply Kept.ite
    | with_reducible apply foldl_kept | dsimp -zeta only | extract_lets | split | dsimp +zetaDelta only
    | (rename_i e; have e := congrArg Prod.fst e; dsimp only at e; rw [← e])

theorem execLineLock_kept {s out : State} (t : Nat) (h : Half) (e : execLineLock t h s = .next out) : Kept tl pr s
    out := by
  cases e
  repeat' first
    | intro _ | assumption | exact Kept.refl _ | exact HKept.of_eq rfl rfl | with_reducible apply log_kept
    | with_reducible apply modHzn_kept | with_reducible apply advance_kept | with_reducible apply onLive_kept
    | with_reducible apply Kept.ite | with_reducible apply foldl_kept | dsimp -zeta only | extract_lets | split
    | dsimp +zetaDelta only | (rename_i e; have e := congrArg Prod.fst e; dsimp only at e; rw [← e])

theorem execLineUnlock_kept {s out : State} (t : Nat) (h : Half) (e : execLineUnlock t h s = .next out) : Kept tl pr
    s out := by
  cases e
  repeat' first
    | intro _ | assumption | exact Kept.refl _ | exact HKept.of_eq rfl rfl | with_reducible apply log_kept
    | with_reducible apply modHzn_kept | with_reducible apply advance_kept | with_reducible apply onLive_kept
    | with_reducible apply Kept.ite | with_reducible apply foldl_kept | dsimp -zeta only | extract_lets | split
    | dsimp +zetaDelta only | (rename_i e; have e := congrArg Prod.fst e; dsimp only at e; rw [← e])

theorem landWrite_kept {t0 s : State} (h : Half) (c : StreamCfg) (a : Nat) (bytes : List Byte) (z0 : LandVerdict)
    (kp : Kept tl pr t0 s) :
    Kept tl pr t0 (State.landWrite s h c a bytes z0) := by
  unfold State.landWrite
  repeat' first
    | intro _ | assumption | exact Kept.refl _ | exact HKept.of_eq rfl rfl | with_reducible apply log_kept
    | with_reducible apply portUse_kept | with_reducible apply writeBytes_kept | with_reducible apply Kept.ite
    | with_reducible apply foldl_kept | dsimp -zeta only | extract_lets | split | dsimp +zetaDelta only
    | (rename_i e; have e := congrArg Prod.fst e; dsimp only at e; rw [← e])

theorem hold_kept {t0 s : State} (h : Half) (w : HeldWrite) (kp : Kept tl pr t0 s) :
    Kept tl pr t0 (State.hold s h w) := by
  unfold State.hold
  repeat' first
    | intro _ | assumption | exact Kept.refl _ | exact HKept.of_eq rfl rfl | with_reducible apply modDolly_kept
    | with_reducible apply Kept.ite | with_reducible apply foldl_kept | dsimp -zeta only | extract_lets | split
    | dsimp +zetaDelta only | (rename_i e; have e := congrArg Prod.fst e; dsimp only at e; rw [← e])

theorem rowLands_kept {t0 s : State} (h : Half) (k : Nat) (seq : Nat) (r : Nat) (a : Nat) (bytes : List Byte) (clip
    : Bool) (kp : Kept tl pr t0 s) :
    Kept tl pr t0 (State.rowLands s h k seq r a bytes clip) := by
  unfold State.rowLands
  repeat' first
    | intro _ | assumption | exact Kept.refl _ | exact HKept.of_eq rfl rfl | with_reducible apply landWrite_kept
    | with_reducible apply modStream_kept | with_reducible apply Kept.ite | with_reducible apply foldl_kept
    | dsimp -zeta only | extract_lets | split | dsimp +zetaDelta only
    | (rename_i e; have e := congrArg Prod.fst e; dsimp only at e; rw [← e])

theorem rowArrives_kept {t0 s : State} (h : Half) (k : Nat) (seq : Nat) (r : Nat) (a : Nat) (bytes : List Byte)
    (clip : Bool) (kp : Kept tl pr t0 s) :
    Kept tl pr t0 (State.rowArrives s h k seq r a bytes clip) := by
  unfold State.rowArrives
  repeat' first
    | intro _ | assumption | exact Kept.refl _ | exact HKept.of_eq rfl rfl | with_reducible apply hold_kept
    | with_reducible apply rowLands_kept | with_reducible apply Kept.ite | with_reducible apply foldl_kept
    | dsimp -zeta only | extract_lets | split | dsimp +zetaDelta only
    | (rename_i e; have e := congrArg Prod.fst e; dsimp only at e; rw [← e])

theorem landRow_kept {t0 s : State} (h : Half) (k : Nat) (lines : List (List Nat)) (kp : Kept tl pr t0 s) :
    Kept tl pr t0 (State.landRow s h k lines) := by
  unfold State.landRow
  repeat' first
    | intro _ | assumption | exact Kept.refl _ | exact HKept.of_eq rfl rfl | with_reducible apply rowArrives_kept
    | with_reducible apply modStream_kept | with_reducible apply Kept.ite | with_reducible apply foldl_kept
    | dsimp -zeta only | extract_lets | split | dsimp +zetaDelta only
    | (rename_i e; have e := congrArg Prod.fst e; dsimp only at e; rw [← e])

theorem gatherLine_kept {t0 s : State} (h : Half) (k : Nat) (line : List Nat) (kp : Kept tl pr t0 s) :
    Kept tl pr t0 (State.gatherLine s h k line) := by
  unfold State.gatherLine
  repeat' first
    | intro _ | assumption | exact Kept.refl _ | exact HKept.of_eq rfl rfl | with_reducible apply landRow_kept
    | with_reducible apply modStream_kept | with_reducible apply Kept.ite | with_reducible apply foldl_kept
    | dsimp -zeta only | extract_lets | split | dsimp +zetaDelta only
    | (rename_i e; have e := congrArg Prod.fst e; dsimp only at e; rw [← e])

theorem takeLine_kept {t0 s : State} (h : Half) (k : Nat) (port : Nat) (wordCount : Nat) (payload : List Byte)
    (crcOk : Bool) (f : Frame) (kp : Kept tl pr t0 s) :
    Kept tl pr t0 (State.takeLine s h k port wordCount payload crcOk f) := by
  unfold State.takeLine
  repeat' first
    | intro _ | assumption | exact Kept.refl _ | exact HKept.of_eq rfl rfl | with_reducible apply discard_kept
    | with_reducible apply gatherLine_kept | with_reducible apply modStream_kept | with_reducible apply Kept.ite
    | with_reducible apply foldl_kept | dsimp -zeta only | extract_lets | split | dsimp +zetaDelta only
    | (rename_i e; have e := congrArg Prod.fst e; dsimp only at e; rw [← e])

theorem execLongPacket_kept {s out : State} (t : Nat) (h : Half) (port : Nat) (vc : Nat) (dt : Nat) (wordCount :
    Nat) (payload : List Byte) (crcOk : Bool) (corrected : Bool) (e : execLongPacket t h port vc dt wordCount
    payload crcOk corrected s = .next out) : Kept tl pr s out := by
  cases e
  repeat' first
    | intro _ | assumption | exact Kept.refl _ | exact HKept.of_eq rfl rfl | with_reducible apply discard_kept
    | with_reducible apply headerCount_kept | with_reducible apply takeLine_kept | with_reducible apply advance_kept
    | with_reducible apply onLive_kept | with_reducible apply Kept.ite | with_reducible apply foldl_kept
    | dsimp -zeta only | extract_lets | split | dsimp +zetaDelta only
    | (rename_i e; have e := congrArg Prod.fst e; dsimp only at e; rw [← e])

theorem leaderLands_kept {t0 s : State} (h : Half) (k : Nat) (seq : Nat) (row : Nat) (a : Nat) (bytes : List Byte)
    (clip : Bool) (kp : Kept tl pr t0 s) :
    Kept tl pr t0 (State.leaderLands s h k seq row a bytes clip) := by
  unfold State.leaderLands
  repeat' first
    | intro _ | assumption | exact Kept.refl _ | exact HKept.of_eq rfl rfl | with_reducible apply log_kept
    | with_reducible apply landWrite_kept | with_reducible apply modStream_kept | with_reducible apply Kept.ite
    | with_reducible apply foldl_kept | dsimp -zeta only | extract_lets | split | dsimp +zetaDelta only
    | (rename_i e; have e := congrArg Prod.fst e; dsimp only at e; rw [← e])

theorem leaderArrives_kept {t0 s : State} (h : Half) (k : Nat) (seq : Nat) (row : Nat) (a : Nat) (bytes : List Byte)
    (clip : Bool) (kp : Kept tl pr t0 s) :
    Kept tl pr t0 (State.leaderArrives s h k seq row a bytes clip) := by
  unfold State.leaderArrives
  repeat' first
    | intro _ | assumption | exact Kept.refl _ | exact HKept.of_eq rfl rfl | with_reducible apply hold_kept
    | with_reducible apply leaderLands_kept | with_reducible apply Kept.ite | with_reducible apply foldl_kept
    | dsimp -zeta only | extract_lets | split | dsimp +zetaDelta only
    | (rename_i e; have e := congrArg Prod.fst e; dsimp only at e; rw [← e])

theorem leaderRow_kept {t0 s : State} (h : Half) (k : Nat) (row : Nat) (kp : Kept tl pr t0 s) :
    Kept tl pr t0 (State.leaderRow s h k row) := by
  unfold State.leaderRow
  repeat' first
    | intro _ | assumption | exact Kept.refl _ | exact HKept.of_eq rfl rfl | with_reducible apply leaderArrives_kept
    | with_reducible apply Kept.ite | with_reducible apply foldl_kept | dsimp -zeta only | extract_lets | split
    | dsimp +zetaDelta only | (rename_i e; have e := congrArg Prod.fst e; dsimp only at e; rw [← e])

theorem leadersOf_kept {t0 s : State} (h : Half) (k : Nat) (kp : Kept tl pr t0 s) :
    Kept tl pr t0 (State.leadersOf s h k) := by
  unfold State.leadersOf
  repeat' first
    | intro _ | assumption | exact Kept.refl _ | exact HKept.of_eq rfl rfl | with_reducible apply leaderRow_kept
    | with_reducible apply Kept.ite | with_reducible apply foldl_kept | dsimp -zeta only | extract_lets | split
    | dsimp +zetaDelta only | (rename_i e; have e := congrArg Prod.fst e; dsimp only at e; rw [← e])

theorem leaderTally_kept {t0 s : State} (h : Half) (k : Nat) (kp : Kept tl pr t0 s) :
    Kept tl pr t0 (State.leaderTally s h k) := by
  unfold State.leaderTally
  repeat' first
    | intro _ | assumption | exact Kept.refl _ | exact HKept.of_eq rfl rfl | with_reducible apply disagree_kept
    | with_reducible apply modStream_kept | with_reducible apply modIsl_kept | with_reducible apply Kept.ite
    | with_reducible apply foldl_kept | dsimp -zeta only | extract_lets | split | dsimp +zetaDelta only
    | (rename_i e; have e := congrArg Prod.fst e; dsimp only at e; rw [← e])

theorem leaders_kept {t0 s : State} (h : Half) (kp : Kept tl pr t0 s) :
    Kept tl pr t0 (State.leaders s h) := by
  unfold State.leaders
  repeat' first
    | intro _ | assumption | exact Kept.refl _ | exact HKept.of_eq rfl rfl | with_reducible apply leadersOf_kept
    | with_reducible apply leaderTally_kept | with_reducible apply Kept.ite | with_reducible apply foldl_kept
    | dsimp -zeta only | extract_lets | split | dsimp +zetaDelta only
    | (rename_i e; have e := congrArg Prod.fst e; dsimp only at e; rw [← e])

theorem execFsyncFault_kept {s out : State} (t : Nat) (h : Half) (output : Nat) (e : execFsyncFault t h output s =
    .next out) : Kept tl pr s out := by
  cases e
  repeat' first
    | intro _ | assumption | exact Kept.refl _ | exact HKept.of_eq rfl rfl | with_reducible apply log_kept
    | with_reducible apply modHzn_kept | with_reducible apply advance_kept | with_reducible apply onLive_kept
    | with_reducible apply Kept.ite | with_reducible apply foldl_kept | dsimp -zeta only | extract_lets | split
    | dsimp +zetaDelta only | (rename_i e; have e := congrArg Prod.fst e; dsimp only at e; rw [← e])

theorem hznApply_kept {t0 s : State} (h : Half) (w : World) (kp : Kept tl pr t0 s) :
    Kept tl pr t0 (State.hznApply s h w) := by
  unfold State.hznApply
  repeat' first
    | intro _ | assumption | exact Kept.refl _ | exact HKept.of_eq rfl rfl | with_reducible apply logUnlisted_kept
    | with_reducible apply secureOnly_kept | with_reducible apply modHzn_kept | with_reducible apply Kept.ite
    | with_reducible apply foldl_kept | dsimp -zeta only | extract_lets | split | dsimp +zetaDelta only
    | (rename_i e; have e := congrArg Prod.fst e; dsimp only at e; rw [← e])

theorem execHznApply_kept {s out : State} (t : Nat) (h : Half) (w : World) (e : execHznApply t h w s = .next out) :
    Kept tl pr s out := by
  cases e
  repeat' first
    | intro _ | assumption | exact Kept.refl _ | exact HKept.of_eq rfl rfl | with_reducible apply hznApply_kept
    | with_reducible apply advance_kept | with_reducible apply onLive_kept | with_reducible apply Kept.ite
    | with_reducible apply foldl_kept | dsimp -zeta only | extract_lets | split | dsimp +zetaDelta only
    | (rename_i e; have e := congrArg Prod.fst e; dsimp only at e; rw [← e])

theorem execSheetFrameAdopt_kept {s out : State} (t : Nat) (h : Half) (lane : Nat) (e : execSheetFrameAdopt t h lane
    s = .next out) : Kept tl pr s out := by
  cases e
  repeat' first
    | intro _ | assumption | exact Kept.refl _ | exact HKept.of_eq rfl rfl | with_reducible apply modHzn_kept
    | with_reducible apply advance_kept | with_reducible apply onLive_kept | with_reducible apply Kept.ite
    | with_reducible apply foldl_kept | dsimp -zeta only | extract_lets | split | dsimp +zetaDelta only
    | (rename_i e; have e := congrArg Prod.fst e; dsimp only at e; rw [← e])

/-! ### Sheets -/

theorem assignBank_kept {t0 s : State} (h : Half) (entry : Option Nat) (b : Nat) (kp : Kept tl pr t0 s) :
    Kept tl pr t0 (State.assignBank s h entry b) := by
  unfold State.assignBank
  repeat' first
    | intro _ | assumption | exact Kept.refl _ | exact HKept.of_eq rfl rfl | with_reducible apply islandHandover_kept
    | with_reducible apply Kept.ite | with_reducible apply foldl_kept | dsimp -zeta only | extract_lets | split
    | dsimp +zetaDelta only | (rename_i e; have e := congrArg Prod.fst e; dsimp only at e; rw [← e])

theorem assignGroups_kept {t0 s : State} (h : Half) (sh : Sheet) (which : Nat → Bool) (kp : Kept tl pr t0 s) :
    Kept tl pr t0 (State.assignGroups s h sh which) := by
  unfold State.assignGroups
  repeat' first
    | intro _ | assumption | exact Kept.refl _ | exact HKept.of_eq rfl rfl | with_reducible apply modDolly_kept
    | with_reducible apply Kept.ite | with_reducible apply foldl_kept | dsimp -zeta only | extract_lets | split
    | dsimp +zetaDelta only | (rename_i e; have e := congrArg Prod.fst e; dsimp only at e; rw [← e])

theorem assignRegs_kept {t0 s : State} (h : Half) (sh : Sheet) (which : Nat → Bool) (kp : Kept tl pr t0 s) :
    Kept tl pr t0 (State.assignRegs s h sh which) := by
  unfold State.assignRegs
  repeat' first
    | intro _ | assumption | exact Kept.refl _ | exact HKept.of_eq rfl rfl | with_reducible apply sendAllWaiting_kept
    | with_reducible apply modLink_kept | with_reducible apply modDolly_kept | with_reducible apply Kept.ite
    | with_reducible apply foldl_kept | dsimp -zeta only | extract_lets | split | dsimp +zetaDelta only
    | (rename_i e; have e := congrArg Prod.fst e; dsimp only at e; rw [← e])

theorem assignCues_kept {t0 s : State} (h : Half) (l : List CueEntry) (gone : Nat → Bool) (kp : Kept tl pr t0 s) :
    Kept tl pr t0 (State.assignCues s h l gone) := by
  unfold State.assignCues
  repeat' first
    | intro _ | assumption | exact Kept.refl _ | exact HKept.of_eq rfl rfl | with_reducible apply evalCue_kept
    | with_reducible apply modDisp_kept | with_reducible apply Kept.ite | with_reducible apply foldl_kept
    | dsimp -zeta only | extract_lets | split | dsimp +zetaDelta only
    | (rename_i e; have e := congrArg Prod.fst e; dsimp only at e; rw [← e])

theorem releaseNew_kept {t0 s : State} (h : Half) (l : List JobEntry) (kp : Kept tl pr t0 s) :
    Kept tl pr t0 (State.releaseNew s h l) := by
  unfold State.releaseNew
  repeat' first
    | intro _ | assumption | exact Kept.refl _ | exact HKept.of_eq rfl rfl | with_reducible apply release_kept
    | with_reducible apply Kept.ite | with_reducible apply foldl_kept | dsimp -zeta only | extract_lets | split
    | dsimp +zetaDelta only | (rename_i e; have e := congrArg Prod.fst e; dsimp only at e; rw [← e])

theorem tearAll_kept {t0 s : State} (h : Half) (l : List Nat) (kp : Kept tl pr t0 s) :
    Kept tl pr t0 (State.tearAll s h l) := by
  unfold State.tearAll
  repeat' first
    | intro _ | assumption | exact Kept.refl _ | exact HKept.of_eq rfl rfl | with_reducible apply teardown_kept
    | with_reducible apply Kept.ite | with_reducible apply foldl_kept | dsimp -zeta only | extract_lets | split
    | dsimp +zetaDelta only | (rename_i e; have e := congrArg Prod.fst e; dsimp only at e; rw [← e])

theorem abandonFrames_kept {t0 s : State} (h : Half) (kp : Kept tl pr t0 s) :
    Kept tl pr t0 (State.abandonFrames s h) := by
  unfold State.abandonFrames
  repeat' first
    | intro _ | assumption | exact Kept.refl _ | exact HKept.of_eq rfl rfl | with_reducible apply modHzn_kept
    | with_reducible apply Kept.ite | with_reducible apply foldl_kept | dsimp -zeta only | extract_lets | split
    | dsimp +zetaDelta only | (rename_i e; have e := congrArg Prod.fst e; dsimp only at e; rw [← e])

theorem finishArming_kept {t0 s : State} (h : Half) (kp : Kept tl pr t0 s) :
    Kept tl pr t0 (State.finishArming s h) := by
  unfold State.finishArming
  repeat' first
    | intro _ | assumption | exact Kept.refl _ | exact HKept.of_eq rfl rfl | with_reducible apply assignCues_kept
    | with_reducible apply releaseNew_kept | with_reducible apply modDisp_kept | with_reducible apply Kept.ite
    | with_reducible apply foldl_kept | dsimp -zeta only | extract_lets | split | dsimp +zetaDelta only
    | (rename_i e; have e := congrArg Prod.fst e; dsimp only at e; rw [← e])

theorem armSheets_kept {t0 s : State} (h : Half) (act : Sheet) (deg : Option Sheet) (kp : Kept tl pr t0 s) :
    Kept tl pr t0 (State.armSheets s h act deg) := by
  unfold State.armSheets
  repeat' first
    | intro _ | assumption | exact Kept.refl _ | exact HKept.of_eq rfl rfl | with_reducible apply assignBank_kept
    | with_reducible apply assignGroups_kept | with_reducible apply assignRegs_kept | with_reducible apply tearAll_kept
    | with_reducible apply abandonFrames_kept | with_reducible apply finishArming_kept
    | with_reducible apply modLink_kept | with_reducible apply modDisp_kept | with_reducible apply Kept.ite
    | with_reducible apply foldl_kept | dsimp -zeta only | extract_lets | split | dsimp +zetaDelta only
    | (rename_i e; have e := congrArg Prod.fst e; dsimp only at e; rw [← e])

theorem disarmSheets_kept {t0 s : State} (h : Half) (kp : Kept tl pr t0 s) :
    Kept tl pr t0 (State.disarmSheets s h) := by
  unfold State.disarmSheets
  repeat' first
    | intro _ | assumption | exact Kept.refl _ | exact HKept.of_eq rfl rfl | with_reducible apply tearAll_kept
    | with_reducible apply abandonFrames_kept | with_reducible apply modDisp_kept | with_reducible apply Kept.ite
    | with_reducible apply foldl_kept | dsimp -zeta only | extract_lets | split | dsimp +zetaDelta only
    | (rename_i e; have e := congrArg Prod.fst e; dsimp only at e; rw [← e])

theorem switchSheets_kept {t0 s : State} (h : Half) (old : Sheet) (new : Sheet) (newState : Nat) (kp : Kept tl pr t0
    s) :
    Kept tl pr t0 (State.switchSheets s h old new newState) := by
  unfold State.switchSheets
  repeat' first
    | intro _ | assumption | exact Kept.refl _ | exact HKept.of_eq rfl rfl | with_reducible apply assignBank_kept
    | with_reducible apply assignGroups_kept | with_reducible apply assignRegs_kept | with_reducible apply tearAll_kept
    | with_reducible apply finishArming_kept | with_reducible apply modDisp_kept | with_reducible apply Kept.ite
    | with_reducible apply foldl_kept | dsimp -zeta only | extract_lets | split | dsimp +zetaDelta only
    | (rename_i e; have e := congrArg Prod.fst e; dsimp only at e; rw [← e])

/-! ### Print -/

theorem runAtomic_kept {t0 s : State} (h : Half) (ctx : Nat) (check : LineCheck) (e : BitVec 64) (kp : Kept tl pr t0
    s) :
    Kept tl pr t0 (State.runAtomic s h ctx check e).1 := by
  unfold State.runAtomic
  repeat' first
    | intro _ | assumption | exact Kept.refl _ | exact HKept.of_eq rfl rfl | with_reducible apply log_kept
    | with_reducible apply lineCheck_kept | with_reducible apply disagree_kept | with_reducible apply writeBytes_kept
    | with_reducible apply markUndef_kept | with_reducible apply Kept.ite | with_reducible apply foldl_kept
    | dsimp -zeta only | extract_lets | split | dsimp +zetaDelta only
    | (rename_i e; have e := congrArg Prod.fst e; dsimp only at e; rw [← e])

theorem runAtomics_kept {t0 s : State} (h : Half) (ctx : Nat) (cs : List LineCheck) (l : List (BitVec 64))
    (kp : Kept tl pr t0 s) : Kept tl pr t0 (s.runAtomics h ctx cs l).1 := by
  induction l generalizing s cs with
  | nil => cases cs <;> exact kp
  | cons e r ih =>
    cases cs <;> exact ih _ (runAtomic_kept _ _ _ _ kp)

theorem makeLight_kept {t0 s : State} (h : Half) (ctx : Nat) (e : Exec) (kp : Kept tl pr t0 s) :
    Kept tl pr t0 (State.makeLight s h ctx e) := by
  unfold State.makeLight
  repeat' first
    | intro _ | assumption | exact Kept.refl _ | exact HKept.of_eq rfl rfl | with_reducible apply markUndefs_kept
    | with_reducible apply modJob_kept | with_reducible apply writeCells_kept | with_reducible apply Kept.ite
    | with_reducible apply foldl_kept | dsimp -zeta only | extract_lets | split | dsimp +zetaDelta only
    | (rename_i e; have e := congrArg Prod.fst e; dsimp only at e; rw [← e])

theorem fire_kept {t0 s : State} (h : Half) (ctx : Nat) (tag : Nat) (p : Nat × Nat) (kp : Kept tl pr t0 s) :
    Kept tl pr t0 (State.fire s h ctx tag p) := by
  unfold State.fire
  repeat' first
    | intro _ | assumption | exact Kept.refl _ | exact HKept.of_eq rfl rfl | with_reducible apply send_kept
    | with_reducible apply signalCue_kept | with_reducible apply modJob_kept | with_reducible apply Kept.ite
    | with_reducible apply foldl_kept | dsimp -zeta only | extract_lets | split | dsimp +zetaDelta only
    | (rename_i e; have e := congrArg Prod.fst e; dsimp only at e; rw [← e])

theorem fireAll_kept {t0 s : State} (h : Half) (ctx : Nat) (tag : Nat) (l : List (Nat × Nat)) (kp : Kept tl pr t0 s) :
    Kept tl pr t0 (State.fireAll s h ctx tag l) := by
  unfold State.fireAll
  repeat' first
    | intro _ | assumption | exact Kept.refl _ | exact HKept.of_eq rfl rfl | with_reducible apply fire_kept
    | with_reducible apply Kept.ite | with_reducible apply foldl_kept | dsimp -zeta only | extract_lets | split
    | dsimp +zetaDelta only | (rename_i e; have e := congrArg Prod.fst e; dsimp only at e; rw [← e])

theorem complete_kept {t0 s : State} (h : Half) (ctx : Nat) (w : Nat) (kp : Kept tl pr t0 s) :
    Kept tl pr t0 (State.complete s h ctx w) := by
  unfold State.complete
  repeat' first
    | intro _ | assumption | exact Kept.refl _ | exact HKept.of_eq rfl rfl | with_reducible apply writeBytes_kept
    | with_reducible apply modJob_kept | with_reducible apply Kept.ite | with_reducible apply foldl_kept
    | dsimp -zeta only | extract_lets | split | dsimp +zetaDelta only
    | (rename_i e; have e := congrArg Prod.fst e; dsimp only at e; rw [← e])

theorem logPrint_kept {t0 s : State} (h : Half) (ctx : Nat) (e : Exec) (fl : Flags) (kp : Kept tl pr t0 s) :
    Kept tl pr t0 (State.logPrint s h ctx e fl) := by
  unfold State.logPrint
  repeat' first
    | intro _ | assumption | exact Kept.refl _ | exact HKept.of_eq rfl rfl | with_reducible apply logUnlisted_kept
    | with_reducible apply log_kept | with_reducible apply Kept.ite | with_reducible apply foldl_kept | dsimp -zeta only
    | extract_lets | split | dsimp +zetaDelta only
    | (rename_i e; have e := congrArg Prod.fst e; dsimp only at e; rw [← e])

theorem checkSlate_kept {t0 s : State} (h : Half) (ctx : Nat) (e : Exec) (kp : Kept tl pr t0 s) :
    Kept tl pr t0 (State.checkSlate s h ctx e) := by
  unfold State.checkSlate
  repeat' first
    | intro _ | assumption | exact Kept.refl _ | exact HKept.of_eq rfl rfl | with_reducible apply log_kept
    | with_reducible apply disagree_kept | with_reducible apply modIsl_kept | with_reducible apply Kept.ite
    | with_reducible apply foldl_kept | dsimp -zeta only | extract_lets | split | dsimp +zetaDelta only
    | (rename_i e; have e := congrArg Prod.fst e; dsimp only at e; rw [← e])

theorem notePrint_kept {t0 s : State} (h : Half) (ctx : Nat) (e : Exec) (retakes : Nat) (fl : Flags) (kp : Kept tl
    pr t0 s) :
    Kept tl pr t0 (State.notePrint s h ctx e retakes fl) := by
  unfold State.notePrint
  repeat' first
    | intro _ | assumption | exact Kept.refl _ | exact HKept.of_eq rfl rfl | with_reducible apply modFrame_kept
    | with_reducible apply Kept.ite | with_reducible apply foldl_kept | dsimp -zeta only | extract_lets | split
    | dsimp +zetaDelta only | (rename_i e; have e := congrArg Prod.fst e; dsimp only at e; rw [← e])

theorem nextRecord_kept {t0 s : State} (h : Half) (ctx : Nat) (e : Exec) (kp : Kept tl pr t0 s) :
    Kept tl pr t0 (State.nextRecord s h ctx e) := by
  unfold State.nextRecord
  repeat' first
    | intro _ | assumption | exact Kept.refl _ | exact HKept.of_eq rfl rfl | with_reducible apply freeThreads_kept
    | with_reducible apply freeCredits_kept | with_reducible apply endRun_kept | with_reducible apply modDisp_kept
    | with_reducible apply modJob_kept | with_reducible apply Kept.ite | with_reducible apply foldl_kept
    | dsimp -zeta only | extract_lets | split | dsimp +zetaDelta only
    | (rename_i e; have e := congrArg Prod.fst e; dsimp only at e; rw [← e])

theorem checkHalo_kept {t0 s : State} (h : Half) (ctx : Nat) (e : Exec) (kp : Kept tl pr t0 s) :
    Kept tl pr t0 (State.checkHalo s h ctx e) := by
  unfold State.checkHalo
  repeat' first
    | intro _ | assumption | exact Kept.refl _ | exact HKept.of_eq rfl rfl | with_reducible apply teardown_kept
    | with_reducible apply modDisp_kept | with_reducible apply Kept.ite | with_reducible apply foldl_kept
    | dsimp -zeta only | extract_lets | split | dsimp +zetaDelta only
    | (rename_i e; have e := congrArg Prod.fst e; dsimp only at e; rw [← e])

theorem printNow_kept {t0 s : State} (h : Half) (ctx : Nat) (e : Exec) (checks : List LineCheck) (kp : Kept tl pr t0
    s) :
    Kept tl pr t0 (State.printNow s h ctx e checks) := by
  unfold State.printNow
  repeat' first
    | intro _ | assumption | exact Kept.refl _ | exact HKept.of_eq rfl rfl | with_reducible apply runAtomics_kept
    | with_reducible apply makeLight_kept | with_reducible apply fireAll_kept | with_reducible apply complete_kept
    | with_reducible apply logPrint_kept | with_reducible apply checkSlate_kept | with_reducible apply notePrint_kept
    | with_reducible apply nextRecord_kept | with_reducible apply checkHalo_kept | with_reducible apply modJob_kept
    | with_reducible apply Kept.ite | with_reducible apply foldl_kept | dsimp -zeta only | extract_lets | split
    | dsimp +zetaDelta only | (rename_i e; have e := congrArg Prod.fst e; dsimp only at e; rw [← e])

theorem requestToken_kept {t0 s : State} (h : Half) (ctx : Nat) (e : Exec) (kp : Kept tl pr t0 s) :
    Kept tl pr t0 (State.requestToken s h ctx e) := by
  unfold State.requestToken
  repeat' first
    | intro _ | assumption | exact Kept.refl _ | exact HKept.of_eq rfl rfl | with_reducible apply askToken_kept
    | with_reducible apply Kept.ite | with_reducible apply foldl_kept | dsimp -zeta only | extract_lets | split
    | dsimp +zetaDelta only | (rename_i e; have e := congrArg Prod.fst e; dsimp only at e; rw [← e])

theorem execPrint_kept {s out : State} (t : Nat) (h : Half) (printing : Printing) (e : execPrint t h printing s =
    .next out) : Kept tl pr s out := by
  cases e
  repeat' first
    | intro _ | assumption | exact Kept.refl _ | exact HKept.of_eq rfl rfl | with_reducible apply kill_kept
    | with_reducible apply dispatchBoth_kept | with_reducible apply printNow_kept
    | with_reducible apply requestToken_kept | with_reducible apply advance_kept | with_reducible apply onLive_kept
    | with_reducible apply Kept.ite | with_reducible apply foldl_kept | dsimp -zeta only | extract_lets | split
    | dsimp +zetaDelta only | (rename_i e; have e := congrArg Prod.fst e; dsimp only at e; rw [← e])

theorem issueWide_kept {t0 s : State} (h : Half) (ctx : Nat) (e : Exec) (kp : Kept tl pr t0 s) :
    Kept tl pr t0 (State.issueWide s h ctx e) := by
  unfold State.issueWide
  repeat' first
    | intro _ | assumption | exact Kept.refl _ | exact HKept.of_eq rfl rfl | with_reducible apply log_kept
    | with_reducible apply teardown_kept | with_reducible apply modDisp_kept | with_reducible apply modJob_kept
    | with_reducible apply Kept.ite | with_reducible apply foldl_kept | dsimp -zeta only | extract_lets | split
    | dsimp +zetaDelta only | (rename_i e; have e := congrArg Prod.fst e; dsimp only at e; rw [← e])

theorem afterKill_kept {t0 s : State} (h : Half) (ctx : Nat) (e : Exec) (kp : Kept tl pr t0 s) :
    Kept tl pr t0 (State.afterKill s h ctx e) := by
  unfold State.afterKill
  repeat' first
    | intro _ | assumption | exact Kept.refl _ | exact HKept.of_eq rfl rfl | with_reducible apply teardown_kept
    | with_reducible apply startRun_kept | with_reducible apply endRun_kept | with_reducible apply issueWide_kept
    | with_reducible apply modDisp_kept | with_reducible apply modJob_kept | with_reducible apply Kept.ite
    | with_reducible apply foldl_kept | dsimp -zeta only | extract_lets | split | dsimp +zetaDelta only
    | (rename_i e; have e := congrArg Prod.fst e; dsimp only at e; rw [← e])

theorem execCommandWatchdog_kept {s out : State} (t : Nat) (h : Half) (ctx : Nat) (e : execCommandWatchdog t h ctx s
    = .next out) : Kept tl pr s out := by
  cases e
  repeat' first
    | intro _ | assumption | exact Kept.refl _ | exact HKept.of_eq rfl rfl | with_reducible apply log_kept
    | with_reducible apply kill_kept | with_reducible apply teardown_kept | with_reducible apply dispatchBoth_kept
    | with_reducible apply modJob_kept | with_reducible apply advance_kept | with_reducible apply onLive_kept
    | with_reducible apply Kept.ite | with_reducible apply foldl_kept | dsimp -zeta only | extract_lets | split
    | dsimp +zetaDelta only | (rename_i e; have e := congrArg Prod.fst e; dsimp only at e; rw [← e])

theorem execCueHoldOverrun_kept {s out : State} (t : Nat) (h : Half) (ctx : Nat) (e : execCueHoldOverrun t h ctx s =
    .next out) : Kept tl pr s out := by
  cases e
  repeat' first
    | intro _ | assumption | exact Kept.refl _ | exact HKept.of_eq rfl rfl | with_reducible apply teardown_kept
    | with_reducible apply dispatchBoth_kept | with_reducible apply advance_kept | with_reducible apply onLive_kept
    | with_reducible apply Kept.ite | with_reducible apply foldl_kept | dsimp -zeta only | extract_lets | split
    | dsimp +zetaDelta only | (rename_i e; have e := congrArg Prod.fst e; dsimp only at e; rw [← e])

theorem execSlotOverrun_kept {s out : State} (t : Nat) (h : Half) (ctx : Nat) (e : execSlotOverrun t h ctx s = .next
    out) : Kept tl pr s out := by
  cases e
  repeat' first
    | intro _ | assumption | exact Kept.refl _ | exact HKept.of_eq rfl rfl | with_reducible apply teardown_kept
    | with_reducible apply dispatchBoth_kept | with_reducible apply advance_kept | with_reducible apply onLive_kept
    | with_reducible apply Kept.ite | with_reducible apply foldl_kept | dsimp -zeta only | extract_lets | split
    | dsimp +zetaDelta only | (rename_i e; have e := congrArg Prod.fst e; dsimp only at e; rw [← e])

theorem forceDown_kept {t0 s : State} (h : Half) (ctx : Nat) (kp : Kept tl pr t0 s) :
    Kept tl pr t0 (State.forceDown s h ctx) := by
  unfold State.forceDown
  repeat' first
    | intro _ | assumption | exact Kept.refl _ | exact HKept.of_eq rfl rfl | with_reducible apply dropWaiters_kept
    | with_reducible apply returnEscrow_kept | with_reducible apply freeThreads_kept
    | with_reducible apply stopEarly_kept | with_reducible apply freeCredits_kept | with_reducible apply teardown_kept
    | with_reducible apply startRun_kept | with_reducible apply modDisp_kept | with_reducible apply modJob_kept
    | with_reducible apply Kept.ite | with_reducible apply foldl_kept | dsimp -zeta only | extract_lets | split
    | dsimp +zetaDelta only | (rename_i e; have e := congrArg Prod.fst e; dsimp only at e; rw [← e])

/-! ### Arming -/

theorem execKillComplete_kept {s out : State} (t : Nat) (h : Half) (ctx : Nat) (e : execKillComplete t h ctx s =
    .next out) : Kept tl pr s out := by
  cases e
  repeat' first
    | intro _ | assumption | exact Kept.refl _ | exact HKept.of_eq rfl rfl | with_reducible apply dropWaiters_kept
    | with_reducible apply returnEscrow_kept | with_reducible apply freeThreads_kept
    | with_reducible apply freeCredits_kept | with_reducible apply dispatchBoth_kept
    | with_reducible apply finishArming_kept | with_reducible apply afterKill_kept | with_reducible apply advance_kept
    | with_reducible apply onLive_kept | with_reducible apply Kept.ite | with_reducible apply foldl_kept
    | dsimp -zeta only | extract_lets | split | dsimp +zetaDelta only
    | (rename_i e; have e := congrArg Prod.fst e; dsimp only at e; rw [← e])

theorem execGroupDisableDone_kept {s out : State} (t : Nat) (h : Half) (group : Nat) (e : execGroupDisableDone t h
    group s = .next out) : Kept tl pr s out := by
  cases e
  repeat' first
    | intro _ | assumption | exact Kept.refl _ | exact HKept.of_eq rfl rfl | with_reducible apply dispatch_kept
    | with_reducible apply finishArming_kept | with_reducible apply modDolly_kept | with_reducible apply advance_kept
    | with_reducible apply onLive_kept | with_reducible apply Kept.ite | with_reducible apply foldl_kept
    | dsimp -zeta only | extract_lets | split | dsimp +zetaDelta only
    | (rename_i e; have e := congrArg Prod.fst e; dsimp only at e; rw [← e])

theorem execPartReset_kept {s out : State} (t : Nat) (h : Half) (p : Nat) (e : execPartReset t h p s = .next out) :
    Kept tl pr s out := by
  cases e
  repeat' first
    | intro _ | assumption | exact Kept.refl _ | exact HKept.of_eq rfl rfl | with_reducible apply log_kept
    | with_reducible apply dispatchBoth_kept | with_reducible apply finishArming_kept
    | with_reducible apply forceDown_kept | with_reducible apply modDisp_kept | with_reducible apply modDolly_kept
    | with_reducible apply advance_kept | with_reducible apply onLive_kept | with_reducible apply Kept.ite
    | with_reducible apply foldl_kept | dsimp -zeta only | extract_lets | split | dsimp +zetaDelta only
    | (rename_i e; have e := congrArg Prod.fst e; dsimp only at e; rw [← e])

/-! ### Results -/

theorem execDeadlineMiss_kept {s out : State} (t : Nat) (h : Half) (stream : Nat) (frame : Nat) (e :
    execDeadlineMiss t h stream frame s = .next out) : Kept tl pr s out := by
  cases e
  repeat' first
    | intro _ | assumption | exact Kept.refl _ | exact HKept.of_eq rfl rfl | with_reducible apply log_kept
    | with_reducible apply modFrame_kept | with_reducible apply advance_kept | with_reducible apply onLive_kept
    | with_reducible apply Kept.ite | with_reducible apply foldl_kept | dsimp -zeta only | extract_lets | split
    | dsimp +zetaDelta only | (rename_i e; have e := congrArg Prod.fst e; dsimp only at e; rw [← e])

theorem execWithheld_kept {s out : State} (t : Nat) (h : Half) (stream : Nat) (frame : Nat) (e : execWithheld t h
    stream frame s = .next out) : Kept tl pr s out := by
  cases e
  repeat' first
    | intro _ | assumption | exact Kept.refl _ | exact HKept.of_eq rfl rfl | with_reducible apply dispatchBoth_kept
    | with_reducible apply withhold_kept | with_reducible apply stopRuns_kept | with_reducible apply advance_kept
    | with_reducible apply onLive_kept | with_reducible apply Kept.ite | with_reducible apply foldl_kept
    | dsimp -zeta only | extract_lets | split | dsimp +zetaDelta only
    | (rename_i e; have e := congrArg Prod.fst e; dsimp only at e; rw [← e])

theorem tryBackup_kept {t0 s : State} (h : Half) (k : Nat) (f : Frame) (kp : Kept tl pr t0 s) :
    Kept tl pr t0 (State.tryBackup s h k f) := by
  unfold State.tryBackup
  repeat' first
    | intro _ | assumption | exact Kept.refl _ | exact HKept.of_eq rfl rfl | with_reducible apply release_kept
    | with_reducible apply Kept.ite | with_reducible apply foldl_kept | dsimp -zeta only | extract_lets | split
    | dsimp +zetaDelta only | (rename_i e; have e := congrArg Prod.fst e; dsimp only at e; rw [← e])

theorem execBackupTime_kept {s out : State} (t : Nat) (h : Half) (stream : Nat) (frame : Nat) (e : execBackupTime t
    h stream frame s = .next out) : Kept tl pr s out := by
  cases e
  repeat' first
    | intro _ | assumption | exact Kept.refl _ | exact HKept.of_eq rfl rfl | with_reducible apply dispatch_kept
    | with_reducible apply modFrame_kept | with_reducible apply tryBackup_kept | with_reducible apply advance_kept
    | with_reducible apply onLive_kept | with_reducible apply Kept.ite | with_reducible apply foldl_kept
    | dsimp -zeta only | extract_lets | split | dsimp +zetaDelta only
    | (rename_i e; have e := congrArg Prod.fst e; dsimp only at e; rw [← e])

theorem holdToken_kept {t0 s : State} (h : Half) (ctx : Nat) (kp : Kept tl pr t0 s) :
    Kept tl pr t0 (State.holdToken s h ctx) := by
  unfold State.holdToken
  repeat' first
    | intro _ | assumption | exact Kept.refl _ | exact HKept.of_eq rfl rfl | with_reducible apply modJob_kept
    | with_reducible apply Kept.ite | with_reducible apply foldl_kept | dsimp -zeta only | extract_lets | split
    | dsimp +zetaDelta only | (rename_i e; have e := congrArg Prod.fst e; dsimp only at e; rw [← e])

theorem tokenTo_kept {t0 s : State} (h : Half) (k : Nat) (seq : Nat) (holder : Half) (kp : Kept tl pr t0 s) :
    Kept tl pr t0 (State.tokenTo s h k seq holder) := by
  unfold State.tokenTo
  repeat' first
    | intro _ | assumption | exact Kept.refl _ | exact HKept.of_eq rfl rfl | with_reducible apply modFrame_kept
    | with_reducible apply Kept.ite | with_reducible apply foldl_kept | dsimp -zeta only | extract_lets | split
    | dsimp +zetaDelta only | (rename_i e; have e := congrArg Prod.fst e; dsimp only at e; rw [← e])

theorem stopCamera_kept {t0 s : State} (h : Half) (camera : Nat) (seq : Nat) (kp : Kept tl pr t0 s) :
    Kept tl pr t0 (State.stopCamera s h camera seq) := by
  unfold State.stopCamera
  repeat' first
    | intro _ | assumption | exact Kept.refl _ | exact HKept.of_eq rfl rfl | with_reducible apply stopRuns_kept
    | with_reducible apply Kept.ite | with_reducible apply foldl_kept | dsimp -zeta only | extract_lets | split
    | dsimp +zetaDelta only | (rename_i e; have e := congrArg Prod.fst e; dsimp only at e; rw [← e])

theorem homeRequest_kept {t0 s : State} (h : Half) (ctx : Nat) (k : Nat) (f : Frame) (kp : Kept tl pr t0 s) :
    Kept tl pr t0 (State.homeRequest s h ctx k f) := by
  unfold State.homeRequest
  repeat' first
    | intro _ | assumption | exact Kept.refl _ | exact HKept.of_eq rfl rfl | with_reducible apply send_kept
    | with_reducible apply kill_kept | with_reducible apply stopRuns_kept | with_reducible apply holdToken_kept
    | with_reducible apply tokenTo_kept | with_reducible apply Kept.ite | with_reducible apply foldl_kept
    | dsimp -zeta only | extract_lets | split | dsimp +zetaDelta only
    | (rename_i e; have e := congrArg Prod.fst e; dsimp only at e; rw [← e])

theorem answerToken_kept {t0 s : State} (h : Half) (ctx : Nat) (camera : Nat) (seq : Nat) (kp : Kept tl pr t0 s) :
    Kept tl pr t0 (State.answerToken s h ctx camera seq) := by
  unfold State.answerToken
  repeat' first
    | intro _ | assumption | exact Kept.refl _ | exact HKept.of_eq rfl rfl | with_reducible apply send_kept
    | with_reducible apply stopRuns_kept | with_reducible apply holdToken_kept | with_reducible apply tokenTo_kept
    | with_reducible apply Kept.ite | with_reducible apply foldl_kept | dsimp -zeta only | extract_lets | split
    | dsimp +zetaDelta only | (rename_i e; have e := congrArg Prod.fst e; dsimp only at e; rw [← e])

theorem takeAnswer_kept {t0 s : State} (h : Half) (ctx : Nat) (k : Nat) (seq : Nat) (granted : Bool) (kp : Kept tl
    pr t0 s) :
    Kept tl pr t0 (State.takeAnswer s h ctx k seq granted) := by
  unfold State.takeAnswer
  repeat' first
    | intro _ | assumption | exact Kept.refl _ | exact HKept.of_eq rfl rfl | with_reducible apply kill_kept
    | with_reducible apply holdToken_kept | with_reducible apply tokenTo_kept | with_reducible apply Kept.ite
    | with_reducible apply foldl_kept | dsimp -zeta only | extract_lets | split | dsimp +zetaDelta only
    | (rename_i e; have e := congrArg Prod.fst e; dsimp only at e; rw [← e])

theorem idleAnswer_kept {t0 s : State} (h : Half) (ctx : Nat) (kp : Kept tl pr t0 s) :
    Kept tl pr t0 (State.idleAnswer s h ctx) := by
  unfold State.idleAnswer
  repeat' first
    | intro _ | assumption | exact Kept.refl _ | exact HKept.of_eq rfl rfl | with_reducible apply dropMessage_kept
    | with_reducible apply Kept.ite | with_reducible apply foldl_kept | dsimp -zeta only | extract_lets | split
    | dsimp +zetaDelta only | (rename_i e; have e := congrArg Prod.fst e; dsimp only at e; rw [← e])

theorem execPrintTokenGrant_kept {s out : State} (t : Nat) (h : Half) (ctx : Nat) (_tie : Bool) (e :
    execPrintTokenGrant t h ctx _tie s = .next out) : Kept tl pr s out := by
  cases e
  repeat' first
    | intro _ | assumption | exact Kept.refl _ | exact HKept.of_eq rfl rfl | with_reducible apply dropMessage_kept
    | with_reducible apply kill_kept | with_reducible apply dispatch_kept | with_reducible apply dispatchBoth_kept
    | with_reducible apply askToken_kept | with_reducible apply holdToken_kept | with_reducible apply tokenTo_kept
    | with_reducible apply homeRequest_kept | with_reducible apply takeAnswer_kept
    | with_reducible apply idleAnswer_kept | with_reducible apply advance_kept | with_reducible apply onLive_kept
    | with_reducible apply Kept.ite | with_reducible apply foldl_kept | dsimp -zeta only | extract_lets | split
    | dsimp +zetaDelta only | (rename_i e; have e := congrArg Prod.fst e; dsimp only at e; rw [← e])

theorem freeResult_kept {t0 s : State} (h : Half) (c : StreamCfg) (kp : Kept tl pr t0 s) :
    Kept tl pr t0 (State.freeResult s h c) := by
  unfold State.freeResult
  repeat' first
    | intro _ | assumption | exact Kept.refl _ | exact HKept.of_eq rfl rfl | with_reducible apply send_kept
    | with_reducible apply signalCue_kept | with_reducible apply Kept.ite | with_reducible apply foldl_kept
    | dsimp -zeta only | extract_lets | split | dsimp +zetaDelta only
    | (rename_i e; have e := congrArg Prod.fst e; dsimp only at e; rw [← e])

theorem execResultCopy_kept {s out : State} (t : Nat) (h : Half) (stream : Nat) (parity : Nat) (e : execResultCopy t
    h stream parity s = .next out) : Kept tl pr s out := by
  cases e
  repeat' first
    | intro _ | assumption | exact Kept.refl _ | exact HKept.of_eq rfl rfl | with_reducible apply modCue_kept
    | with_reducible apply dispatchBoth_kept | with_reducible apply deliver_kept | with_reducible apply withhold_kept
    | with_reducible apply freeResult_kept | with_reducible apply advance_kept | with_reducible apply onLive_kept
    | with_reducible apply Kept.ite | with_reducible apply foldl_kept | dsimp -zeta only | extract_lets | split
    | dsimp +zetaDelta only | (rename_i e; have e := congrArg Prod.fst e; dsimp only at e; rw [← e])
    | with_reducible apply set_free_kept

theorem execConsumerRead_kept {s out : State} (t : Nat) (h : Half) (ring : Nat) (consumer : Nat) (e :
    execConsumerRead t h ring consumer s = .next out) : Kept tl pr s out := by
  cases e
  repeat' first
    | intro _ | assumption | exact Kept.refl _ | exact HKept.of_eq rfl rfl | with_reducible apply putOverflow_kept
    | with_reducible apply modRing_kept | with_reducible apply advance_kept | with_reducible apply onLive_kept
    | with_reducible apply Kept.ite | with_reducible apply foldl_kept | dsimp -zeta only | extract_lets | split
    | dsimp +zetaDelta only | (rename_i e; have e := congrArg Prod.fst e; dsimp only at e; rw [← e])

theorem execGap_kept {s out : State} (t : Nat) (h : Half) (ring : Nat) (producer : Nat) (nextSeq : Nat) (lastFrame :
    Nat) (e : execGap t h ring producer nextSeq lastFrame s = .next out) : Kept tl pr s out := by
  cases e
  repeat' first
    | intro _ | assumption | exact Kept.refl _ | exact HKept.of_eq rfl rfl | with_reducible apply putRecord_kept
    | with_reducible apply modRing_kept | with_reducible apply advance_kept | with_reducible apply onLive_kept
    | with_reducible apply Kept.ite | with_reducible apply foldl_kept | dsimp -zeta only | extract_lets | split
    | dsimp +zetaDelta only | (rename_i e; have e := congrArg Prod.fst e; dsimp only at e; rw [← e])
    | with_reducible apply set_free_kept

/-! ### Contrail -/

theorem deliverFlit_kept {t0 s : State} (sender : Half) (kp : Kept tl pr t0 s) :
    Kept tl pr t0 (State.deliverFlit s sender) := by
  unfold State.deliverFlit
  repeat' first
    | intro _ | assumption | exact Kept.refl _ | exact HKept.of_eq rfl rfl | with_reducible apply ackFlit_kept
    | with_reducible apply drain_kept | with_reducible apply modLink_kept | with_reducible apply Kept.ite
    | with_reducible apply foldl_kept | dsimp -zeta only | extract_lets | split | dsimp +zetaDelta only
    | (rename_i e; have e := congrArg Prod.fst e; dsimp only at e; rw [← e])

theorem execFlitReceive_kept {s out : State} (t : Nat) (h : Half) (check : FlitCheck) (e : execFlitReceive t h check
    s = .next out) : Kept tl pr s out := by
  cases e
  repeat' first
    | intro _ | assumption | exact Kept.refl _ | exact HKept.of_eq rfl rfl | with_reducible apply deliverFlit_kept
    | with_reducible apply modLink_kept | with_reducible apply advance_kept | with_reducible apply onLive_kept
    | with_reducible apply Kept.ite | with_reducible apply foldl_kept | dsimp -zeta only | extract_lets | split
    | dsimp +zetaDelta only | (rename_i e; have e := congrArg Prod.fst e; dsimp only at e; rw [← e])

theorem execFlitReplay_kept {s out : State} (t : Nat) (h : Half) (ok : Bool) (e : execFlitReplay t h ok s = .next
    out) : Kept tl pr s out := by
  cases e
  repeat' first
    | intro _ | assumption | exact Kept.refl _ | exact HKept.of_eq rfl rfl | with_reducible apply deliverFlit_kept
    | with_reducible apply modLink_kept | with_reducible apply advance_kept | with_reducible apply onLive_kept
    | with_reducible apply Kept.ite | with_reducible apply foldl_kept | dsimp -zeta only | extract_lets | split
    | dsimp +zetaDelta only | (rename_i e; have e := congrArg Prod.fst e; dsimp only at e; rw [← e])

theorem execCreditReturn_kept {s out : State} (t : Nat) (h : Half) (part : Nat) (e : execCreditReturn t h part s =
    .next out) : Kept tl pr s out := by
  cases e
  repeat' first
    | intro _ | assumption | exact Kept.refl _ | exact HKept.of_eq rfl rfl | with_reducible apply sendWaiting_kept
    | with_reducible apply modLink_kept | with_reducible apply modJob_kept | with_reducible apply advance_kept
    | with_reducible apply onLive_kept | with_reducible apply Kept.ite | with_reducible apply foldl_kept
    | dsimp -zeta only | extract_lets | split | dsimp +zetaDelta only
    | (rename_i e; have e := congrArg Prod.fst e; dsimp only at e; rw [← e])

theorem granted_kept {t0 s : State} (h : Half) (ctx : Nat) (cue : Nat) (amount : Nat) (kp : Kept tl pr t0 s) :
    Kept tl pr t0 (State.granted s h ctx cue amount) := by
  unfold State.granted
  repeat' first
    | intro _ | assumption | exact Kept.refl _ | exact HKept.of_eq rfl rfl | with_reducible apply raiseCue_kept
    | with_reducible apply modJob_kept | with_reducible apply Kept.ite | with_reducible apply foldl_kept
    | dsimp -zeta only | extract_lets | split | dsimp +zetaDelta only
    | (rename_i e; have e := congrArg Prod.fst e; dsimp only at e; rw [← e])

theorem askRemote_kept {t0 s : State} (h : Half) (ctx : Nat) (cue : Nat) (amount : Nat) (acquire : Bool) (kp : Kept
    tl pr t0 s) :
    Kept tl pr t0 (State.askRemote s h ctx cue amount acquire) := by
  unfold State.askRemote
  repeat' first
    | intro _ | assumption | exact Kept.refl _ | exact HKept.of_eq rfl rfl | with_reducible apply send_kept
    | with_reducible apply askCue_kept | with_reducible apply granted_kept | with_reducible apply Kept.ite
    | with_reducible apply foldl_kept | dsimp -zeta only | extract_lets | split | dsimp +zetaDelta only
    | (rename_i e; have e := congrArg Prod.fst e; dsimp only at e; rw [← e])

theorem takeMessage_kept {t0 s : State} (h : Half) (z0 : CtrMessage) (kp : Kept tl pr t0 s) :
    Kept tl pr t0 (State.takeMessage s h z0) := by
  unfold State.takeMessage
  repeat' first
    | intro _ | assumption | exact Kept.refl _ | exact HKept.of_eq rfl rfl | with_reducible apply signalCue_kept
    | with_reducible apply stopRuns_kept | with_reducible apply answerToken_kept | with_reducible apply granted_kept
    | with_reducible apply askRemote_kept | with_reducible apply Kept.ite | with_reducible apply foldl_kept
    | dsimp -zeta only | extract_lets | split | dsimp +zetaDelta only
    | (rename_i e; have e := congrArg Prod.fst e; dsimp only at e; rw [← e])

theorem execControlMessage_kept {s out : State} (t : Nat) (h : Half) (e : execControlMessage t h s = .next out) :
    Kept tl pr s out := by
  cases e
  repeat' first
    | intro _ | assumption | exact Kept.refl _ | exact HKept.of_eq rfl rfl | with_reducible apply dropMessage_kept
    | with_reducible apply dispatchBoth_kept | with_reducible apply takeMessage_kept | with_reducible apply advance_kept
    | with_reducible apply onLive_kept | with_reducible apply Kept.ite | with_reducible apply foldl_kept
    | dsimp -zeta only | extract_lets | split | dsimp +zetaDelta only
    | (rename_i e; have e := congrArg Prod.fst e; dsimp only at e; rw [← e])

theorem execWriteComplete_kept {s out : State} (t : Nat) (h : Half) (ctx : Nat) (e : execWriteComplete t h ctx s =
    .next out) : Kept tl pr s out := by
  cases e
  repeat' first
    | intro _ | assumption | exact Kept.refl _ | exact HKept.of_eq rfl rfl | with_reducible apply dropMessage_kept
    | with_reducible apply dispatch_kept | with_reducible apply modJob_kept | with_reducible apply advance_kept
    | with_reducible apply onLive_kept | with_reducible apply Kept.ite | with_reducible apply foldl_kept
    | dsimp -zeta only | extract_lets | split | dsimp +zetaDelta only
    | (rename_i e; have e := congrArg Prod.fst e; dsimp only at e; rw [← e])

theorem voidAnswers_kept {t0 s : State} (h : Half) (ctx : Nat) (kp : Kept tl pr t0 s) :
    Kept tl pr t0 (State.voidAnswers s h ctx) := by
  unfold State.voidAnswers
  repeat' first
    | intro _ | assumption | exact Kept.refl _ | exact HKept.of_eq rfl rfl | with_reducible apply returnEscrow_kept
    | with_reducible apply granted_kept | with_reducible apply modLink_kept | with_reducible apply Kept.ite
    | with_reducible apply foldl_kept | dsimp -zeta only | extract_lets | split | dsimp +zetaDelta only
    | (rename_i e; have e := congrArg Prod.fst e; dsimp only at e; rw [← e])

theorem noteKill_kept {t0 s : State} (h : Half) (ctx : Nat) (kp : Kept tl pr t0 s) :
    Kept tl pr t0 (State.noteKill s h ctx) := by
  unfold State.noteKill
  repeat' first
    | intro _ | assumption | exact Kept.refl _ | exact HKept.of_eq rfl rfl | with_reducible apply dropWaiters_kept
    | with_reducible apply returnEscrow_kept | with_reducible apply freeCredits_kept
    | with_reducible apply voidAnswers_kept | with_reducible apply modLink_kept | with_reducible apply modJob_kept
    | with_reducible apply Kept.ite | with_reducible apply foldl_kept | dsimp -zeta only | extract_lets | split
    | dsimp +zetaDelta only | (rename_i e; have e := congrArg Prod.fst e; dsimp only at e; rw [← e])

theorem execKillNotice_kept {s out : State} (t : Nat) (h : Half) (ctx : Nat) (e : execKillNotice t h ctx s = .next
    out) : Kept tl pr s out := by
  cases e
  repeat' first
    | intro _ | assumption | exact Kept.refl _ | exact HKept.of_eq rfl rfl | with_reducible apply dropMessage_kept
    | with_reducible apply dispatchBoth_kept | with_reducible apply stopRuns_kept | with_reducible apply stopCamera_kept
    | with_reducible apply noteKill_kept | with_reducible apply advance_kept | with_reducible apply onLive_kept
    | with_reducible apply Kept.ite | with_reducible apply foldl_kept | dsimp -zeta only | extract_lets | split
    | dsimp +zetaDelta only | (rename_i e; have e := congrArg Prod.fst e; dsimp only at e; rw [← e])

theorem returnRemote_kept {t0 s : State} (h : Half) (kp : Kept tl pr t0 s) :
    Kept tl pr t0 (State.returnRemote s h) := by
  unfold State.returnRemote
  repeat' first
    | intro _ | assumption | exact Kept.refl _ | exact HKept.of_eq rfl rfl | with_reducible apply dropWaiters_kept
    | with_reducible apply returnEscrow_kept | with_reducible apply modJob_kept | with_reducible apply Kept.ite
    | with_reducible apply foldl_kept | dsimp -zeta only | extract_lets | split | dsimp +zetaDelta only
    | (rename_i e; have e := congrArg Prod.fst e; dsimp only at e; rw [← e])

theorem loseStriped_kept {t0 s : State} (h : Half) (kp : Kept tl pr t0 s) :
    Kept tl pr t0 (State.loseStriped s h) := by
  unfold State.loseStriped
  repeat' first
    | intro _ | assumption | exact Kept.refl _ | exact HKept.of_eq rfl rfl | with_reducible apply loseRun_kept
    | with_reducible apply Kept.ite | with_reducible apply foldl_kept | dsimp -zeta only | extract_lets | split
    | dsimp +zetaDelta only | (rename_i e; have e := congrArg Prod.fst e; dsimp only at e; rw [← e])

theorem loseLink_kept {t0 s : State} (h : Half) (kp : Kept tl pr t0 s) :
    Kept tl pr t0 (State.loseLink s h) := by
  unfold State.loseLink
  repeat' first
    | intro _ | assumption | exact Kept.refl _ | exact HKept.of_eq rfl rfl | with_reducible apply returnEscrow_kept
    | with_reducible apply teardown_kept | with_reducible apply returnRemote_kept
    | with_reducible apply loseStriped_kept | with_reducible apply modLink_kept | with_reducible apply modDisp_kept
    | with_reducible apply Kept.ite | with_reducible apply foldl_kept | dsimp -zeta only | extract_lets | split
    | dsimp +zetaDelta only | (rename_i e; have e := congrArg Prod.fst e; dsimp only at e; rw [← e])

theorem execCtrDown_kept {s out : State} (t : Nat) (h : Half) (e : execCtrDown t h s = .next out) : Kept tl pr s out
    := by
  cases e
  repeat' first
    | intro _ | assumption | exact Kept.refl _ | exact HKept.of_eq rfl rfl | with_reducible apply log_kept
    | with_reducible apply dispatchBoth_kept | with_reducible apply loseLink_kept | with_reducible apply advance_kept
    | with_reducible apply onLive_kept | with_reducible apply Kept.ite | with_reducible apply foldl_kept
    | dsimp -zeta only | extract_lets | split | dsimp +zetaDelta only
    | (rename_i e; have e := congrArg Prod.fst e; dsimp only at e; rw [← e])

theorem execCtrDegraded_kept {s out : State} (t : Nat) (h : Half) (e : execCtrDegraded t h s = .next out) : Kept tl
    pr s out := by
  cases e
  repeat' first
    | intro _ | assumption | exact Kept.refl _ | exact HKept.of_eq rfl rfl | with_reducible apply log_kept
    | with_reducible apply modLink_kept | with_reducible apply advance_kept | with_reducible apply onLive_kept
    | with_reducible apply Kept.ite | with_reducible apply foldl_kept | dsimp -zeta only | extract_lets | split
    | dsimp +zetaDelta only | (rename_i e; have e := congrArg Prod.fst e; dsimp only at e; rw [← e])

theorem execCtrTrain_kept {s out : State} (t : Nat) (spares : Nat) (e : execCtrTrain t spares s = .next out) : Kept
    tl pr s out := by
  cases e
  repeat' first
    | intro _ | assumption | exact Kept.refl _ | exact HKept.of_eq rfl rfl | with_reducible apply modLink_kept
    | with_reducible apply advance_kept | exact Burnt.of_eq rfl rfl rfl rfl
    | exact HKept.of_prot (.of_eq rfl rfl rfl rfl) rfl | with_reducible apply Kept.ite | with_reducible apply foldl_kept
    | dsimp -zeta only | extract_lets | split | dsimp +zetaDelta only
    | (rename_i e; have e := congrArg Prod.fst e; dsimp only at e; rw [← e])

theorem ctrRetrain_kept {t0 s : State} (h : Half) (w : World) (kp : Kept tl pr t0 s) :
    Kept tl pr t0 (State.ctrRetrain s h w) := by
  unfold State.ctrRetrain
  repeat' first
    | intro _ | assumption | exact Kept.refl _ | exact HKept.of_eq rfl rfl | with_reducible apply secureOnly_kept
    | with_reducible apply modLink_kept | with_reducible apply Kept.ite | with_reducible apply foldl_kept
    | dsimp -zeta only | extract_lets | split | dsimp +zetaDelta only
    | (rename_i e; have e := congrArg Prod.fst e; dsimp only at e; rw [← e])

theorem execCtrRetrain_kept {s out : State} (t : Nat) (h : Half) (w : World) (e : execCtrRetrain t h w s = .next
    out) : Kept tl pr s out := by
  cases e
  repeat' first
    | intro _ | assumption | exact Kept.refl _ | exact HKept.of_eq rfl rfl | with_reducible apply ctrRetrain_kept
    | with_reducible apply advance_kept | with_reducible apply onLive_kept | with_reducible apply Kept.ite
    | with_reducible apply foldl_kept | dsimp -zeta only | extract_lets | split | dsimp +zetaDelta only
    | (rename_i e; have e := congrArg Prod.fst e; dsimp only at e; rw [← e])

theorem ctrApply_kept {t0 s : State} (h : Half) (w : World) (kp : Kept tl pr t0 s) :
    Kept tl pr t0 (State.ctrApply s h w) := by
  unfold State.ctrApply
  repeat' first
    | intro _ | assumption | exact Kept.refl _ | exact HKept.of_eq rfl rfl | with_reducible apply secureOnly_kept
    | with_reducible apply modLink_kept | with_reducible apply Kept.ite | with_reducible apply foldl_kept
    | dsimp -zeta only | extract_lets | split | dsimp +zetaDelta only
    | (rename_i e; have e := congrArg Prod.fst e; dsimp only at e; rw [← e])

theorem execCtrApply_kept {s out : State} (t : Nat) (h : Half) (w : World) (e : execCtrApply t h w s = .next out) :
    Kept tl pr s out := by
  cases e
  repeat' first
    | intro _ | assumption | exact Kept.refl _ | exact HKept.of_eq rfl rfl | with_reducible apply ctrApply_kept
    | with_reducible apply advance_kept | with_reducible apply onLive_kept | with_reducible apply Kept.ite
    | with_reducible apply foldl_kept | dsimp -zeta only | extract_lets | split | dsimp +zetaDelta only
    | (rename_i e; have e := congrArg Prod.fst e; dsimp only at e; rw [← e])

theorem protCtl_kept {t0 s : State} (h : Half) (value : Nat) (w : World) (kp : Kept tl pr t0 s)
    (hw : pr.mayWrite = true) : Kept tl pr t0 (s.protCtl h value w) := by
  unfold State.protCtl
  refine secureOnly_kept _ _ _ _ kp (fun t k => ?_)
  split
  · exact logUnlisted_kept _ _ _ k
  · exact modProt_kept _ _ k hw (fun hl => by simp_all)

theorem execProtCtlApply_kept {s out : State} (t : Nat) (h : Half) (value : BitVec 32) (w : World) (hw : pr.mayWrite
    = true) (e : execProtCtlApply t h value w s = .next out) : Kept tl pr s out := by
  cases e
  repeat' first
    | intro _ | assumption | exact Kept.refl _ | exact HKept.of_eq rfl rfl | with_reducible apply protCtl_kept
    | with_reducible apply advance_kept | with_reducible apply onLive_kept | with_reducible apply Kept.ite
    | with_reducible apply foldl_kept | dsimp -zeta only | extract_lets | split | dsimp +zetaDelta only
    | (rename_i e; have e := congrArg Prod.fst e; dsimp only at e; rw [← e])

/-! ### Zenith -/

theorem sendCause_kept {t0 s : State} (h : Half) (entry : Bool) (kp : Kept tl pr t0 s) :
    Kept tl pr t0 (State.sendCause s h entry) := by
  unfold State.sendCause
  repeat' first
    | intro _ | assumption | exact Kept.refl _ | exact HKept.of_eq rfl rfl | with_reducible apply modCan_kept
    | with_reducible apply Kept.ite | with_reducible apply foldl_kept | dsimp -zeta only | extract_lets | split
    | dsimp +zetaDelta only | (rename_i e; have e := congrArg Prod.fst e; dsimp only at e; rw [← e])

theorem execDegradedExit_kept {s out : State} (t : Nat) (h : Half) (e : execDegradedExit t h s = .next out) : Kept
    tl pr s out := by
  cases e
  repeat' first
    | intro _ | assumption | exact Kept.refl _ | exact HKept.of_eq rfl rfl | with_reducible apply sendCause_kept
    | with_reducible apply modZen_kept | with_reducible apply advance_kept | with_reducible apply onHalf_kept
    | with_reducible apply Kept.ite | with_reducible apply foldl_kept | dsimp -zeta only | extract_lets | split
    | dsimp +zetaDelta only | (rename_i e; have e := congrArg Prod.fst e; dsimp only at e; rw [← e])

theorem execSupplyRange_kept {s out : State} (t : Nat) (h : Half) (mv : Nat) (e : execSupplyRange t h mv s = .next
    out) : Kept tl pr s out := by
  cases e
  repeat' first
    | intro _ | assumption | exact Kept.refl _ | exact HKept.of_eq rfl rfl | with_reducible apply log_kept
    | with_reducible apply modZen_kept | with_reducible apply advance_kept | with_reducible apply onHalf_kept
    | with_reducible apply Kept.ite | with_reducible apply foldl_kept | dsimp -zeta only | extract_lets | split
    | dsimp +zetaDelta only | (rename_i e; have e := congrArg Prod.fst e; dsimp only at e; rw [← e])

theorem execRegFault_kept {s out : State} (t : Nat) (h : Half) (rail : Nat) (mv : Nat) (e : execRegFault t h rail mv
    s = .next out) : Kept tl pr s out := by
  cases e
  repeat' first
    | intro _ | assumption | exact Kept.refl _ | exact HKept.of_eq rfl rfl | with_reducible apply halfFault_kept
    | with_reducible apply modZen_kept | with_reducible apply advance_kept | with_reducible apply onHalf_kept
    | with_reducible apply Kept.ite | with_reducible apply foldl_kept | dsimp -zeta only | extract_lets | split
    | dsimp +zetaDelta only | (rename_i e; have e := congrArg Prod.fst e; dsimp only at e; rw [← e])

theorem execClockFault_kept {s out : State} (t : Nat) (h : Half) (e : execClockFault t h s = .next out) : Kept tl pr
    s out := by
  cases e
  repeat' first
    | intro _ | assumption | exact Kept.refl _ | exact HKept.of_eq rfl rfl | with_reducible apply halfFault_kept
    | with_reducible apply modZen_kept | with_reducible apply advance_kept | with_reducible apply onHalf_kept
    | with_reducible apply Kept.ite | with_reducible apply foldl_kept | dsimp -zeta only | extract_lets | split
    | dsimp +zetaDelta only | (rename_i e; have e := congrArg Prod.fst e; dsimp only at e; rw [← e])

theorem trackCool_kept {t0 s : State} (h : Half) (kp : Kept tl pr t0 s) :
    Kept tl pr t0 (State.trackCool s h) := by
  unfold State.trackCool
  repeat' first
    | intro _ | assumption | exact Kept.refl _ | exact HKept.of_eq rfl rfl | with_reducible apply modZen_kept
    | with_reducible apply Kept.ite | with_reducible apply foldl_kept | dsimp -zeta only | extract_lets | split
    | dsimp +zetaDelta only | (rename_i e; have e := congrArg Prod.fst e; dsimp only at e; rw [← e])

theorem changeCool_kept {t0 s : State} (h : Half) (bit : Nat) (v : Bool) (kp : Kept tl pr t0 s) :
    Kept tl pr t0 (State.changeCool s h bit v) := by
  unfold State.changeCool
  repeat' first
    | intro _ | assumption | exact Kept.refl _ | exact HKept.of_eq rfl rfl | with_reducible apply logWith_kept
    | with_reducible apply modZen_kept | with_reducible apply Kept.ite | with_reducible apply foldl_kept
    | dsimp -zeta only | extract_lets | split | dsimp +zetaDelta only
    | (rename_i e; have e := congrArg Prod.fst e; dsimp only at e; rw [← e])

theorem execCoolStatusChange_kept {s out : State} (t : Nat) (h : Half) (bit : Nat) (e : execCoolStatusChange t h bit
    s = .next out) : Kept tl pr s out := by
  cases e
  repeat' first
    | intro _ | assumption | exact Kept.refl _ | exact HKept.of_eq rfl rfl | with_reducible apply trackCool_kept
    | with_reducible apply changeCool_kept | with_reducible apply advance_kept | with_reducible apply onHalf_kept
    | with_reducible apply Kept.ite | with_reducible apply foldl_kept | dsimp -zeta only | extract_lets | split
    | dsimp +zetaDelta only | (rename_i e; have e := congrArg Prod.fst e; dsimp only at e; rw [← e])

theorem execFlowPulse_kept {s out : State} (t : Nat) (h : Half) (e : execFlowPulse t h s = .next out) : Kept tl pr s
    out := by
  cases e
  repeat' first
    | intro _ | assumption | exact Kept.refl _ | exact HKept.of_eq rfl rfl | with_reducible apply modZen_kept
    | with_reducible apply advance_kept | with_reducible apply onHalf_kept | with_reducible apply Kept.ite
    | with_reducible apply foldl_kept | dsimp -zeta only | extract_lets | split | dsimp +zetaDelta only
    | (rename_i e; have e := congrArg Prod.fst e; dsimp only at e; rw [← e])

theorem forecastLine_kept {t0 s : State} (h : Half) (kp : Kept tl pr t0 s) :
    Kept tl pr t0 (State.forecastLine s h) := by
  unfold State.forecastLine
  repeat' first
    | intro _ | assumption | exact Kept.refl _ | exact HKept.of_eq rfl rfl | with_reducible apply modZen_kept
    | with_reducible apply Kept.ite | with_reducible apply foldl_kept | dsimp -zeta only | extract_lets | split
    | dsimp +zetaDelta only | (rename_i e; have e := congrArg Prod.fst e; dsimp only at e; rw [← e])

theorem execSensorRead_kept {s out : State} (t : Nat) (h : Half) (readings : List Int) (power16 : Nat) (inNtc : Nat)
    (outNtc : Nat) (e : execSensorRead t h readings power16 inNtc outNtc s = .next out) : Kept tl pr s out := by
  cases e
  repeat' first
    | intro _ | assumption | exact Kept.refl _ | exact HKept.of_eq rfl rfl | with_reducible apply trackCool_kept
    | with_reducible apply modZen_kept | with_reducible apply advance_kept | with_reducible apply onHalf_kept
    | with_reducible apply Kept.ite | with_reducible apply foldl_kept | dsimp -zeta only | extract_lets | split
    | dsimp +zetaDelta only | (rename_i e; have e := congrArg Prod.fst e; dsimp only at e; rw [← e])
    | with_reducible apply set_free_kept

theorem beyondFloor_kept {t0 s : State} (h : Half) (u : Nat) (kp : Kept tl pr t0 s) :
    Kept tl pr t0 (State.beyondFloor s h u) := by
  unfold State.beyondFloor
  repeat' first
    | intro _ | assumption | exact Kept.refl _ | exact HKept.of_eq rfl rfl | with_reducible apply log_kept
    | with_reducible apply modIsl_kept | with_reducible apply Kept.ite | with_reducible apply foldl_kept
    | dsimp -zeta only | extract_lets | split | dsimp +zetaDelta only
    | (rename_i e; have e := congrArg Prod.fst e; dsimp only at e; rw [← e])

theorem limitLog_kept {t0 s : State} (h : Half) (kp : Kept tl pr t0 s) :
    Kept tl pr t0 (State.limitLog s h) := by
  unfold State.limitLog
  repeat' first
    | intro _ | assumption | exact Kept.refl _ | exact HKept.of_eq rfl rfl | with_reducible apply log_kept
    | with_reducible apply modZen_kept | with_reducible apply Kept.ite | with_reducible apply foldl_kept
    | dsimp -zeta only | extract_lets | split | dsimp +zetaDelta only
    | (rename_i e; have e := congrArg Prod.fst e; dsimp only at e; rw [← e])

theorem execThrottleUpdate_kept {s out : State} (t : Nat) (h : Half) (e : execThrottleUpdate t h s = .next out) :
    Kept tl pr s out := by
  cases e
  repeat' first
    | intro _ | assumption | exact Kept.refl _ | exact HKept.of_eq rfl rfl | with_reducible apply log_kept
    | with_reducible apply beyondFloor_kept | with_reducible apply limitLog_kept | with_reducible apply modZen_kept
    | with_reducible apply advance_kept | with_reducible apply modHalf_kept | with_reducible apply onHalf_kept
    | with_reducible apply Kept.ite | with_reducible apply foldl_kept | dsimp -zeta only | extract_lets | split
    | dsimp +zetaDelta only | (rename_i e; have e := congrArg Prod.fst e; dsimp only at e; rw [← e])

theorem trip_kept {t0 s : State} (h : Half) (detail : Nat) (kp : Kept tl pr t0 s) :
    Kept tl pr t0 (State.trip s h detail) := by
  unfold State.trip
  repeat' first
    | intro _ | assumption | exact Kept.refl _ | exact HKept.of_eq rfl rfl | with_reducible apply halfFault_kept
    | with_reducible apply modZen_kept | with_reducible apply Kept.ite | with_reducible apply foldl_kept
    | dsimp -zeta only | extract_lets | split | dsimp +zetaDelta only
    | (rename_i e; have e := congrArg Prod.fst e; dsimp only at e; rw [← e])

theorem execThermalTrip_kept {s out : State} (t : Nat) (h : Half) (e : execThermalTrip t h s = .next out) : Kept tl
    pr s out := by
  cases e
  repeat' first
    | intro _ | assumption | exact Kept.refl _ | exact HKept.of_eq rfl rfl | with_reducible apply trip_kept
    | with_reducible apply advance_kept | with_reducible apply onHalf_kept | with_reducible apply Kept.ite
    | with_reducible apply foldl_kept | dsimp -zeta only | extract_lets | split | dsimp +zetaDelta only
    | (rename_i e; have e := congrArg Prod.fst e; dsimp only at e; rw [← e])

theorem execThermalTripHw_kept {s out : State} (t : Nat) (h : Half) (e : execThermalTripHw t h s = .next out) : Kept
    tl pr s out := by
  cases e
  repeat' first
    | intro _ | assumption | exact Kept.refl _ | exact HKept.of_eq rfl rfl | with_reducible apply trip_kept
    | with_reducible apply advance_kept | with_reducible apply onHalf_kept | with_reducible apply Kept.ite
    | with_reducible apply foldl_kept | dsimp -zeta only | extract_lets | split | dsimp +zetaDelta only
    | (rename_i e; have e := congrArg Prod.fst e; dsimp only at e; rw [← e])

theorem execAgeMeasure_kept {s out : State} (t : Nat) (h : Half) (temp : Int) (slowdowns : List Nat) (e :
    execAgeMeasure t h temp slowdowns s = .next out) : Kept tl pr s out := by
  cases e
  repeat' first
    | intro _ | assumption | exact Kept.refl _ | exact HKept.of_eq rfl rfl | with_reducible apply log_kept
    | with_reducible apply advance_kept | with_reducible apply modHalf_kept | with_reducible apply onHalf_kept
    | with_reducible apply Kept.ite | with_reducible apply foldl_kept | dsimp -zeta only | extract_lets | split
    | dsimp +zetaDelta only | (rename_i e; have e := congrArg Prod.fst e; dsimp only at e; rw [← e])

theorem repairAll_kept {t0 s : State} (h : Half) (z0 : List BistColumn) (kp : Kept tl pr t0 s) :
    Kept tl pr t0 (State.repairAll s h z0).1 := by
  induction z0 generalizing s with
  | nil => exact kp
  | cons x r ih =>
    unfold State.repairAll
    repeat' first
      | with_reducible apply ih | intro _ | assumption | exact Kept.refl _ | exact HKept.of_eq rfl rfl
      | with_reducible apply log_kept | with_reducible apply modZen_kept | with_reducible apply Kept.ite
      | with_reducible apply foldl_kept | dsimp -zeta only | extract_lets | split | dsimp +zetaDelta only
      | (rename_i e; have e := congrArg Prod.fst e; dsimp only at e; rw [← e])

theorem slabVerdict_kept {t0 s : State} (h : Half) (fails : List Nat) (k : Nat) (kp : Kept tl pr t0 s) :
    Kept tl pr t0 (State.slabVerdict s h fails k) := by
  unfold State.slabVerdict
  repeat' first
    | intro _ | assumption | exact Kept.refl _ | exact HKept.of_eq rfl rfl | with_reducible apply log_kept
    | with_reducible apply modIsl_kept | with_reducible apply modSlab_kept | with_reducible apply Kept.ite
    | with_reducible apply foldl_kept | dsimp -zeta only | extract_lets | split | dsimp +zetaDelta only
    | (rename_i e; have e := congrArg Prod.fst e; dsimp only at e; rw [← e])

theorem logBistFail_kept {t0 s : State} (h : Half) (u : Nat × Nat) (kp : Kept tl pr t0 s) :
    Kept tl pr t0 (State.logBistFail s h u) := by
  unfold State.logBistFail
  repeat' first
    | intro _ | assumption | exact Kept.refl _ | exact HKept.of_eq rfl rfl | with_reducible apply log_kept
    | with_reducible apply Kept.ite | with_reducible apply foldl_kept | dsimp -zeta only | extract_lets | split
    | dsimp +zetaDelta only | (rename_i e; have e := congrArg Prod.fst e; dsimp only at e; rw [← e])

theorem regsOff_kept {t0 s : State} (h : Half) (kp : Kept tl pr t0 s) :
    Kept tl pr t0 (State.regsOff s h) := by
  unfold State.regsOff
  repeat' first
    | intro _ | assumption | exact Kept.refl _ | exact HKept.of_eq rfl rfl | with_reducible apply markUndef_kept
    | with_reducible apply modZen_kept | with_reducible apply Kept.ite | with_reducible apply foldl_kept
    | dsimp -zeta only | extract_lets | split | dsimp +zetaDelta only
    | (rename_i e; have e := congrArg Prod.fst e; dsimp only at e; rw [← e])

theorem execBistDone_kept {s out : State} (t : Nat) (h : Half) (columns : List BistColumn) (slabs : List Nat) (units
    : List (Nat × Nat)) (e : execBistDone t h columns slabs units s = .next out) : Kept tl pr s out := by
  cases e
  repeat' first
    | intro _ | assumption | exact Kept.refl _ | exact HKept.of_eq rfl rfl | with_reducible apply repairAll_kept
    | with_reducible apply slabVerdict_kept | with_reducible apply logBistFail_kept | with_reducible apply regsOff_kept
    | with_reducible apply modZen_kept | with_reducible apply advance_kept | with_reducible apply modHalf_kept
    | with_reducible apply onHalf_kept | with_reducible apply Kept.ite | with_reducible apply foldl_kept
    | dsimp -zeta only | extract_lets | split | dsimp +zetaDelta only
    | (rename_i e; have e := congrArg Prod.fst e; dsimp only at e; rw [← e])

/-! ### Island -/

theorem faultPin_kept {t0 s : State} (h : Half) (kp : Kept tl pr t0 s) :
    Kept tl pr t0 (State.faultPin s h) := by
  unfold State.faultPin
  repeat' first
    | intro _ | assumption | exact Kept.refl _ | exact HKept.of_eq rfl rfl | with_reducible apply modHalf_kept
    | with_reducible apply Kept.ite | with_reducible apply foldl_kept | dsimp -zeta only | extract_lets | split
    | dsimp +zetaDelta only | (rename_i e; have e := congrArg Prod.fst e; dsimp only at e; rw [← e])

theorem modPair_kept {t0 s : State} (h : Half) (p : Nat) (f : Pair → Pair) (kp : Kept tl pr t0 s) :
    Kept tl pr t0 (State.modPair s h p f) := by
  unfold State.modPair
  repeat' first
    | intro _ | assumption | exact Kept.refl _ | exact HKept.of_eq rfl rfl | with_reducible apply modIsl_kept
    | with_reducible apply Kept.ite | with_reducible apply foldl_kept | dsimp -zeta only | extract_lets | split
    | dsimp +zetaDelta only | (rename_i e; have e := congrArg Prod.fst e; dsimp only at e; rw [← e])

theorem execLockstepMismatch_kept {s out : State} (t : Nat) (h : Half) (pair : Nat) (e : execLockstepMismatch t h
    pair s = .next out) : Kept tl pr s out := by
  cases e
  repeat' first
    | intro _ | assumption | exact Kept.refl _ | exact HKept.of_eq rfl rfl | with_reducible apply halfFault_kept
    | with_reducible apply modPair_kept | with_reducible apply advance_kept | with_reducible apply onLive_kept
    | with_reducible apply Kept.ite | with_reducible apply foldl_kept | dsimp -zeta only | extract_lets | split
    | dsimp +zetaDelta only | (rename_i e; have e := congrArg Prod.fst e; dsimp only at e; rw [← e])

theorem execCoreSelftest_kept {s out : State} (t : Nat) (h : Half) (pair : Nat) (verdict : Verdict) (e :
    execCoreSelftest t h pair verdict s = .next out) : Kept tl pr s out := by
  cases e
  repeat' first
    | intro _ | assumption | exact Kept.refl _ | exact HKept.of_eq rfl rfl | with_reducible apply log_kept
    | with_reducible apply countDerate_kept | with_reducible apply modPair_kept | with_reducible apply modIsl_kept
    | with_reducible apply advance_kept | with_reducible apply onHalf_kept | with_reducible apply Kept.ite
    | with_reducible apply foldl_kept | dsimp -zeta only | extract_lets | split | dsimp +zetaDelta only
    | (rename_i e; have e := congrArg Prod.fst e; dsimp only at e; rw [← e])

theorem execLockstepInput_kept {s out : State} (t : Nat) (h : Half) (pair : Nat) (e : execLockstepInput t h pair s =
    .next out) : Kept tl pr s out := by
  cases e
  repeat' first
    | intro _ | assumption | exact Kept.refl _ | exact HKept.of_eq rfl rfl | with_reducible apply halfFault_kept
    | with_reducible apply advance_kept | with_reducible apply onLive_kept | with_reducible apply Kept.ite
    | with_reducible apply foldl_kept | dsimp -zeta only | extract_lets | split | dsimp +zetaDelta only
    | (rename_i e; have e := congrArg Prod.fst e; dsimp only at e; rw [← e])

theorem execDebugHalt_kept {s out : State} (t : Nat) (h : Half) (pair : Nat) (e : execDebugHalt t h pair s = .next
    out) : Kept tl pr s out := by
  cases e
  repeat' first
    | intro _ | assumption | exact Kept.refl _ | exact HKept.of_eq rfl rfl | with_reducible apply logUnlisted_kept
    | with_reducible apply faultPin_kept | with_reducible apply modPair_kept | with_reducible apply modIsl_kept
    | with_reducible apply advance_kept | with_reducible apply onHalf_kept | with_reducible apply Kept.ite
    | with_reducible apply foldl_kept | dsimp -zeta only | extract_lets | split | dsimp +zetaDelta only
    | (rename_i e; have e := congrArg Prod.fst e; dsimp only at e; rw [← e])

theorem debugStore_kept {t0 s : State} (h : Half) (pair : Nat) (addr : Nat) (bytes : List Byte) (kp : Kept tl pr t0 s) :
    Kept tl pr t0 (State.debugStore s h pair addr bytes) := by
  unfold State.debugStore
  repeat' first
    | intro _ | assumption | exact Kept.refl _ | exact HKept.of_eq rfl rfl | with_reducible apply log_kept
    | with_reducible apply portUse_kept | with_reducible apply writeBytes_kept | with_reducible apply Kept.ite
    | with_reducible apply foldl_kept | dsimp -zeta only | extract_lets | split | dsimp +zetaDelta only
    | (rename_i e; have e := congrArg Prod.fst e; dsimp only at e; rw [← e])

theorem execDebugWrite_kept {s out : State} (t : Nat) (h : Half) (pair : Nat) (what : DebugTarget) (bytes : List
    Byte) (replayed : Bool) (e : execDebugWrite t h pair what bytes replayed s = .next out) : Kept tl pr s out := by
  cases e
  repeat' first
    | intro _ | assumption | exact Kept.refl _ | exact HKept.of_eq rfl rfl | with_reducible apply modPair_kept
    | with_reducible apply debugStore_kept | with_reducible apply advance_kept | with_reducible apply onHalf_kept
    | with_reducible apply Kept.ite | with_reducible apply foldl_kept | dsimp -zeta only | extract_lets | split
    | dsimp +zetaDelta only | (rename_i e; have e := congrArg Prod.fst e; dsimp only at e; rw [← e])

theorem execDebugResume_kept {s out : State} (t : Nat) (h : Half) (pair : Nat) (e : execDebugResume t h pair s =
    .next out) : Kept tl pr s out := by
  cases e
  repeat' first
    | intro _ | assumption | exact Kept.refl _ | exact HKept.of_eq rfl rfl | with_reducible apply halfFault_kept
    | with_reducible apply faultPin_kept | with_reducible apply modPair_kept | with_reducible apply advance_kept
    | with_reducible apply onHalf_kept | with_reducible apply Kept.ite | with_reducible apply foldl_kept
    | dsimp -zeta only | extract_lets | split | dsimp +zetaDelta only
    | (rename_i e; have e := congrArg Prod.fst e; dsimp only at e; rw [← e])

theorem execHeartbeatSend_kept {s out : State} (t : Nat) (h : Half) (e : execHeartbeatSend t h s = .next out) : Kept
    tl pr s out := by
  cases e
  repeat' first
    | intro _ | assumption | exact Kept.refl _ | exact HKept.of_eq rfl rfl | with_reducible apply modIsl_kept
    | with_reducible apply advance_kept | with_reducible apply onHalf_kept | exact Burnt.of_eq rfl rfl rfl rfl
    | exact HKept.of_prot (.of_eq rfl rfl rfl rfl) rfl | with_reducible apply Kept.ite | with_reducible apply foldl_kept
    | dsimp -zeta only | extract_lets | split | dsimp +zetaDelta only
    | (rename_i e; have e := congrArg Prod.fst e; dsimp only at e; rw [← e])

theorem execHeartbeatReceive_kept {s out : State} (t : Nat) (h : Half) (lane : Nat) (bytes : List Byte) (e :
    execHeartbeatReceive t h lane bytes s = .next out) : Kept tl pr s out := by
  cases e
  repeat' first
    | intro _ | assumption | exact Kept.refl _ | exact HKept.of_eq rfl rfl | with_reducible apply modIsl_kept
    | with_reducible apply advance_kept | with_reducible apply onHalf_kept | with_reducible apply Kept.ite
    | with_reducible apply foldl_kept | dsimp -zeta only | extract_lets | split | dsimp +zetaDelta only
    | (rename_i e; have e := congrArg Prod.fst e; dsimp only at e; rw [← e])

theorem execHbLane_kept {s out : State} (t : Nat) (h : Half) (lane : Nat) (e : execHbLane t h lane s = .next out) :
    Kept tl pr s out := by
  cases e
  repeat' first
    | intro _ | assumption | exact Kept.refl _ | exact HKept.of_eq rfl rfl | with_reducible apply log_kept
    | with_reducible apply modIsl_kept | with_reducible apply advance_kept | with_reducible apply onLive_kept
    | with_reducible apply Kept.ite | with_reducible apply foldl_kept | dsimp -zeta only | extract_lets | split
    | dsimp +zetaDelta only | (rename_i e; have e := congrArg Prod.fst e; dsimp only at e; rw [← e])

theorem backupDue_kept {t0 s : State} (h : Half) (k : Nat) (kp : Kept tl pr t0 s) :
    Kept tl pr t0 (State.backupDue s h k) := by
  unfold State.backupDue
  repeat' first
    | intro _ | assumption | exact Kept.refl _ | exact HKept.of_eq rfl rfl | with_reducible apply tryBackup_kept
    | with_reducible apply Kept.ite | with_reducible apply foldl_kept | dsimp -zeta only | extract_lets | split
    | dsimp +zetaDelta only | (rename_i e; have e := congrArg Prod.fst e; dsimp only at e; rw [← e])

theorem loseHalos_kept {t0 s : State} (h : Half) (kp : Kept tl pr t0 s) :
    Kept tl pr t0 (State.loseHalos s h) := by
  unfold State.loseHalos
  repeat' first
    | intro _ | assumption | exact Kept.refl _ | exact HKept.of_eq rfl rfl | with_reducible apply teardown_kept
    | with_reducible apply loseStriped_kept | with_reducible apply Kept.ite | with_reducible apply foldl_kept
    | dsimp -zeta only | extract_lets | split | dsimp +zetaDelta only
    | (rename_i e; have e := congrArg Prod.fst e; dsimp only at e; rw [← e])

theorem noteDelivered_kept {t0 s : State} (h : Half) (kp : Kept tl pr t0 s) :
    Kept tl pr t0 (State.noteDelivered s h) := by
  unfold State.noteDelivered
  repeat' first
    | intro _ | assumption | exact Kept.refl _ | exact HKept.of_eq rfl rfl | with_reducible apply modHzn_kept
    | with_reducible apply Kept.ite | with_reducible apply foldl_kept | dsimp -zeta only | extract_lets | split
    | dsimp +zetaDelta only | (rename_i e; have e := congrArg Prod.fst e; dsimp only at e; rw [← e])

theorem takeover_kept {t0 s : State} (h : Half) (kp : Kept tl pr t0 s) :
    Kept tl pr t0 (State.takeover s h) := by
  unfold State.takeover
  repeat' first
    | intro _ | assumption | exact Kept.refl _ | exact HKept.of_eq rfl rfl | with_reducible apply log_kept
    | with_reducible apply dispatch_kept | with_reducible apply backupDue_kept | with_reducible apply loseHalos_kept
    | with_reducible apply noteDelivered_kept | with_reducible apply modIsl_kept | with_reducible apply modDisp_kept
    | with_reducible apply Kept.ite | with_reducible apply foldl_kept | dsimp -zeta only | extract_lets | split
    | dsimp +zetaDelta only | (rename_i e; have e := congrArg Prod.fst e; dsimp only at e; rw [← e])

theorem giveUp_kept {t0 s : State} (h : Half) (kp : Kept tl pr t0 s) :
    Kept tl pr t0 (State.giveUp s h) := by
  unfold State.giveUp
  repeat' first
    | intro _ | assumption | exact Kept.refl _ | exact HKept.of_eq rfl rfl | with_reducible apply log_kept
    | with_reducible apply modIsl_kept | with_reducible apply modDisp_kept | with_reducible apply Kept.ite
    | with_reducible apply foldl_kept | dsimp -zeta only | extract_lets | split | dsimp +zetaDelta only
    | (rename_i e; have e := congrArg Prod.fst e; dsimp only at e; rw [← e])

theorem execPartnerLost_kept {s out : State} (t : Nat) (h : Half) (e : execPartnerLost t h s = .next out) : Kept tl
    pr s out := by
  cases e
  repeat' first
    | intro _ | assumption | exact Kept.refl _ | exact HKept.of_eq rfl rfl | with_reducible apply takeover_kept
    | with_reducible apply giveUp_kept | with_reducible apply modIsl_kept | with_reducible apply advance_kept
    | with_reducible apply onLive_kept | with_reducible apply Kept.ite | with_reducible apply foldl_kept
    | dsimp -zeta only | extract_lets | split | dsimp +zetaDelta only
    | (rename_i e; have e := congrArg Prod.fst e; dsimp only at e; rw [← e])

theorem execPairingTimeout_kept {s out : State} (t : Nat) (h : Half) (e : execPairingTimeout t h s = .next out) :
    Kept tl pr s out := by
  cases e
  repeat' first
    | intro _ | assumption | exact Kept.refl _ | exact HKept.of_eq rfl rfl | with_reducible apply giveUp_kept
    | with_reducible apply advance_kept | with_reducible apply onLive_kept | with_reducible apply Kept.ite
    | with_reducible apply foldl_kept | dsimp -zeta only | extract_lets | split | dsimp +zetaDelta only
    | (rename_i e; have e := congrArg Prod.fst e; dsimp only at e; rw [← e])

theorem execHalfDown_kept {s out : State} (t : Nat) (h : Half) (frames : List (Nat × Nat)) (e : execHalfDown t h
    frames s = .next out) : Kept tl pr s out := by
  cases e
  repeat' first
    | intro _ | assumption | exact Kept.refl _ | exact HKept.of_eq rfl rfl | with_reducible apply noteDelivered_kept
    | with_reducible apply takeover_kept | with_reducible apply modIsl_kept | with_reducible apply advance_kept
    | with_reducible apply onLive_kept | with_reducible apply Kept.ite | with_reducible apply foldl_kept
    | dsimp -zeta only | extract_lets | split | dsimp +zetaDelta only
    | (rename_i e; have e := congrArg Prod.fst e; dsimp only at e; rw [← e])

theorem setReturn_kept {t0 s : State} (h : Half) (kp : Kept tl pr t0 s) :
    Kept tl pr t0 (State.setReturn s h) := by
  unfold State.setReturn
  repeat' first
    | intro _ | assumption | exact Kept.refl _ | exact HKept.of_eq rfl rfl | with_reducible apply modIsl_kept
    | with_reducible apply Kept.ite | with_reducible apply foldl_kept | dsimp -zeta only | extract_lets | split
    | dsimp +zetaDelta only | (rename_i e; have e := congrArg Prod.fst e; dsimp only at e; rw [← e])

theorem execPairing_kept {s out : State} (t : Nat) (h : Half) (e : execPairing t h s = .next out) : Kept tl pr s out
    := by
  cases e
  repeat' first
    | intro _ | assumption | exact Kept.refl _ | exact HKept.of_eq rfl rfl | with_reducible apply setReturn_kept
    | with_reducible apply modIsl_kept | with_reducible apply advance_kept | with_reducible apply onLive_kept
    | with_reducible apply Kept.ite | with_reducible apply foldl_kept | dsimp -zeta only | extract_lets | split
    | dsimp +zetaDelta only | (rename_i e; have e := congrArg Prod.fst e; dsimp only at e; rw [← e])

theorem releaseLost_kept {t0 s : State} (h : Half) (kp : Kept tl pr t0 s) :
    Kept tl pr t0 (State.releaseLost s h) := by
  unfold State.releaseLost
  repeat' first
    | intro _ | assumption | exact Kept.refl _ | exact HKept.of_eq rfl rfl | with_reducible apply release_kept
    | with_reducible apply Kept.ite | with_reducible apply foldl_kept | dsimp -zeta only | extract_lets | split
    | dsimp +zetaDelta only | (rename_i e; have e := congrArg Prod.fst e; dsimp only at e; rw [← e])

theorem returnHalf_kept {t0 s : State} (h : Half) (kp : Kept tl pr t0 s) :
    Kept tl pr t0 (State.returnHalf s h) := by
  unfold State.returnHalf
  repeat' first
    | intro _ | assumption | exact Kept.refl _ | exact HKept.of_eq rfl rfl | with_reducible apply releaseLost_kept
    | with_reducible apply modLink_kept | with_reducible apply modIsl_kept | with_reducible apply modHzn_kept
    | with_reducible apply Kept.ite | with_reducible apply foldl_kept | dsimp -zeta only | extract_lets | split
    | dsimp +zetaDelta only | (rename_i e; have e := congrArg Prod.fst e; dsimp only at e; rw [← e])

theorem execRestartReq_kept {s out : State} (t : Nat) (h : Half) (e : execRestartReq t h s = .next out) : Kept tl pr
    s out := by
  cases e
  repeat' first
    | intro _ | assumption | exact Kept.refl _ | exact HKept.of_eq rfl rfl | with_reducible apply modIsl_kept
    | with_reducible apply advance_kept | with_reducible apply modHalf_kept | with_reducible apply onLive_kept
    | with_reducible apply fence_hkept | with_reducible apply Kept.ite | with_reducible apply foldl_kept
    | dsimp -zeta only | extract_lets | split | dsimp +zetaDelta only
    | (rename_i e; have e := congrArg Prod.fst e; dsimp only at e; rw [← e])

theorem failHalf_kept {t0 s : State} (h : Half) (kp : Kept tl pr t0 s) :
    Kept tl pr t0 (State.failHalf s h) := by
  unfold State.failHalf
  repeat' first
    | intro _ | assumption | exact Kept.refl _ | exact HKept.of_eq rfl rfl | with_reducible apply log_kept
    | with_reducible apply faultPin_kept | with_reducible apply modIsl_kept | with_reducible apply Kept.ite
    | with_reducible apply foldl_kept | dsimp -zeta only | extract_lets | split | dsimp +zetaDelta only
    | (rename_i e; have e := congrArg Prod.fst e; dsimp only at e; rw [← e])

theorem execHalfRestart_kept {s out : State} (t : Nat) (h : Half) (snapshotOk : Bool) (coreOk : Bool) (hr :
    pr.mayReset = true) (e : execHalfRestart t h snapshotOk coreOk s = .next out) : Kept tl pr s out := by
  cases e
  repeat' first
    | intro _ | assumption | exact Kept.refl _ | exact HKept.of_eq rfl rfl | with_reducible apply log_kept
    | with_reducible apply dispatch_kept | with_reducible apply returnRemote_kept | with_reducible apply faultPin_kept
    | with_reducible apply failHalf_kept | with_reducible apply markUndef_kept | with_reducible apply advance_kept
    | with_reducible apply modHalf_kept | with_reducible apply onHalf_kept | with_reducible apply restarted_hkept
    | with_reducible apply Kept.ite | with_reducible apply foldl_kept | dsimp -zeta only | extract_lets | split
    | dsimp +zetaDelta only | (rename_i e; have e := congrArg Prod.fst e; dsimp only at e; rw [← e])

theorem execServiceReady_kept {s out : State} (t : Nat) (h : Half) (e : execServiceReady t h s = .next out) : Kept
    tl pr s out := by
  cases e
  repeat' first
    | intro _ | assumption | exact Kept.refl _ | exact HKept.of_eq rfl rfl | with_reducible apply sendCause_kept
    | with_reducible apply faultPin_kept | with_reducible apply setReturn_kept | with_reducible apply advance_kept
    | with_reducible apply modHalf_kept | with_reducible apply onLive_kept | exact Burnt.of_eq rfl rfl rfl rfl
    | exact HKept.of_prot (.of_eq rfl rfl rfl rfl) rfl | with_reducible apply Kept.ite | with_reducible apply foldl_kept
    | dsimp -zeta only | extract_lets | split | dsimp +zetaDelta only
    | (rename_i e; have e := congrArg Prod.fst e; dsimp only at e; rw [← e])

theorem execDirWatchdog_kept {s out : State} (t : Nat) (h : Half) (e : execDirWatchdog t h s = .next out) : Kept tl
    pr s out := by
  cases e
  repeat' first
    | intro _ | assumption | exact Kept.refl _ | exact HKept.of_eq rfl rfl | with_reducible apply halfFault_kept
    | with_reducible apply advance_kept | with_reducible apply onLive_kept | with_reducible apply Kept.ite
    | with_reducible apply foldl_kept | dsimp -zeta only | extract_lets | split | dsimp +zetaDelta only
    | (rename_i e; have e := congrArg Prod.fst e; dsimp only at e; rw [← e])

theorem execIslWatchdog_kept {s out : State} (t : Nat) (h : Half) (e : execIslWatchdog t h s = .next out) : Kept tl
    pr s out := by
  cases e
  repeat' first
    | intro _ | assumption | exact Kept.refl _ | exact HKept.of_eq rfl rfl | with_reducible apply halfFault_kept
    | with_reducible apply advance_kept | with_reducible apply onLive_kept | with_reducible apply Kept.ite
    | with_reducible apply foldl_kept | dsimp -zeta only | extract_lets | split | dsimp +zetaDelta only
    | (rename_i e; have e := congrArg Prod.fst e; dsimp only at e; rw [← e])

theorem execPartResetOverrun_kept {s out : State} (t : Nat) (h : Half) (part : Nat) (e : execPartResetOverrun t h
    part s = .next out) : Kept tl pr s out := by
  cases e
  repeat' first
    | intro _ | assumption | exact Kept.refl _ | exact HKept.of_eq rfl rfl | with_reducible apply halfFault_kept
    | with_reducible apply advance_kept | with_reducible apply onLive_kept | with_reducible apply Kept.ite
    | with_reducible apply foldl_kept | dsimp -zeta only | extract_lets | split | dsimp +zetaDelta only
    | (rename_i e; have e := congrArg Prod.fst e; dsimp only at e; rw [← e])

theorem healthWatch_kept {t0 s : State} (h : Half) (unit : Nat) (kp : Kept tl pr t0 s) :
    Kept tl pr t0 (State.healthWatch s h unit) := by
  unfold State.healthWatch
  repeat' first
    | intro _ | assumption | exact Kept.refl _ | exact HKept.of_eq rfl rfl | with_reducible apply log_kept
    | with_reducible apply Kept.ite | with_reducible apply foldl_kept | dsimp -zeta only | extract_lets | split
    | dsimp +zetaDelta only | (rename_i e; have e := congrArg Prod.fst e; dsimp only at e; rw [← e])

theorem execDisagreementLimit_kept {s out : State} (t : Nat) (h : Half) (unit : Nat) (e : execDisagreementLimit t h
    unit s = .next out) : Kept tl pr s out := by
  cases e
  repeat' first
    | intro _ | assumption | exact Kept.refl _ | exact HKept.of_eq rfl rfl | with_reducible apply disagree_kept
    | with_reducible apply healthWatch_kept | with_reducible apply modIsl_kept | with_reducible apply advance_kept
    | with_reducible apply onLive_kept | with_reducible apply Kept.ite | with_reducible apply foldl_kept
    | dsimp -zeta only | extract_lets | split | dsimp +zetaDelta only
    | (rename_i e; have e := congrArg Prod.fst e; dsimp only at e; rw [← e])

theorem execLeaderRepeat_kept {s out : State} (t : Nat) (h : Half) (stream : Nat) (e : execLeaderRepeat t h stream s
    = .next out) : Kept tl pr s out := by
  cases e
  repeat' first
    | intro _ | assumption | exact Kept.refl _ | exact HKept.of_eq rfl rfl | with_reducible apply log_kept
    | with_reducible apply modStream_kept | with_reducible apply advance_kept | with_reducible apply onLive_kept
    | with_reducible apply Kept.ite | with_reducible apply foldl_kept | dsimp -zeta only | extract_lets | split
    | dsimp +zetaDelta only | (rename_i e; have e := congrArg Prod.fst e; dsimp only at e; rw [← e])

/-! ### Slabs -/

theorem startSlice_kept {t0 s : State} (h : Half) (z0 : SliceKind) (kp : Kept tl pr t0 s) :
    Kept tl pr t0 (State.startSlice s h z0) := by
  unfold State.startSlice
  repeat' first
    | intro _ | assumption | exact Kept.refl _ | exact HKept.of_eq rfl rfl | with_reducible apply loseBank_kept
    | with_reducible apply Kept.ite | with_reducible apply foldl_kept | dsimp -zeta only | extract_lets | split
    | dsimp +zetaDelta only | (rename_i e; have e := congrArg Prod.fst e; dsimp only at e; rw [← e])

theorem retaken_kept {t0 s : State} (h : Half) (k : SliceKind) (kp : Kept tl pr t0 s) :
    Kept tl pr t0 (State.retaken s h k) := by
  unfold State.retaken
  repeat' first
    | intro _ | assumption | exact Kept.refl _ | exact HKept.of_eq rfl rfl | with_reducible apply modIsl_kept
    | with_reducible apply Kept.ite | with_reducible apply foldl_kept | dsimp -zeta only | extract_lets | split
    | dsimp +zetaDelta only | (rename_i e; have e := congrArg Prod.fst e; dsimp only at e; rw [← e])

theorem onSlice_kept {t0 s : State} (h : Half) (k : SliceKind) (f : State → State) (kp : Kept tl pr t0 s) (hf : ∀ t,
    Kept tl pr t0 t → Kept tl pr t0 (f t)) :
    Kept tl pr t0 (onSlice s h k f) := by
  unfold onSlice
  repeat' first
    | intro _ | assumption | exact Kept.refl _ | exact HKept.of_eq rfl rfl | with_reducible apply startSlice_kept
    | with_reducible apply retaken_kept | with_reducible apply modIsl_kept | with_reducible apply onLive_kept
    | with_reducible apply hf | with_reducible apply Kept.ite | with_reducible apply foldl_kept | dsimp -zeta only
    | extract_lets | split | dsimp +zetaDelta only
    | (rename_i e; have e := congrArg Prod.fst e; dsimp only at e; rw [← e])

theorem cutSlices_kept {t0 s : State} (h : Half) (kp : Kept tl pr t0 s) :
    Kept tl pr t0 (State.cutSlices s h) := by
  unfold State.cutSlices
  repeat' first
    | intro _ | assumption | exact Kept.refl _ | exact HKept.of_eq rfl rfl | with_reducible apply modIsl_kept
    | with_reducible apply Kept.ite | with_reducible apply foldl_kept | dsimp -zeta only | extract_lets | split
    | dsimp +zetaDelta only | (rename_i e; have e := congrArg Prod.fst e; dsimp only at e; rw [← e])

theorem clearDue_kept {t0 s : State} (h : Half) (unit : Nat) (kp : Kept tl pr t0 s) :
    Kept tl pr t0 (State.clearDue s h unit) := by
  unfold State.clearDue
  repeat' first
    | intro _ | assumption | exact Kept.refl _ | exact HKept.of_eq rfl rfl | with_reducible apply modIsl_kept
    | with_reducible apply Kept.ite | with_reducible apply foldl_kept | dsimp -zeta only | extract_lets | split
    | dsimp +zetaDelta only | (rename_i e; have e := congrArg Prod.fst e; dsimp only at e; rw [← e])

theorem healthPath_kept {t0 s : State} (h : Half) (unit : Nat) (pass : Bool) (kp : Kept tl pr t0 s) :
    Kept tl pr t0 (State.healthPath s h unit pass) := by
  unfold State.healthPath
  repeat' first
    | intro _ | assumption | exact Kept.refl _ | exact HKept.of_eq rfl rfl | with_reducible apply halfFault_kept
    | with_reducible apply healthWatch_kept | with_reducible apply clearDue_kept | with_reducible apply Kept.ite
    | with_reducible apply foldl_kept | dsimp -zeta only | extract_lets | split | dsimp +zetaDelta only
    | (rename_i e; have e := congrArg Prod.fst e; dsimp only at e; rw [← e])

theorem execSlabScoreDecay_kept {s out : State} (t : Nat) (h : Half) (slab : Nat) (e : execSlabScoreDecay t h slab s
    = .next out) : Kept tl pr s out := by
  cases e
  repeat' first
    | intro _ | assumption | exact Kept.refl _ | exact HKept.of_eq rfl rfl | with_reducible apply modSlab_kept
    | with_reducible apply advance_kept | with_reducible apply onHalf_kept | with_reducible apply Kept.ite
    | with_reducible apply foldl_kept | dsimp -zeta only | extract_lets | split | dsimp +zetaDelta only
    | (rename_i e; have e := congrArg Prod.fst e; dsimp only at e; rw [← e])

theorem slabEvent_kept {t0 s : State} (h : Half) (k : Nat) (kp : Kept tl pr t0 s) :
    Kept tl pr t0 (State.slabEvent s h k) := by
  unfold State.slabEvent
  repeat' first
    | intro _ | assumption | exact Kept.refl _ | exact HKept.of_eq rfl rfl | with_reducible apply modIsl_kept
    | with_reducible apply modSlab_kept | with_reducible apply Kept.ite | with_reducible apply foldl_kept
    | dsimp -zeta only | extract_lets | split | dsimp +zetaDelta only
    | (rename_i e; have e := congrArg Prod.fst e; dsimp only at e; rw [← e])

theorem retireSlab_kept {t0 s : State} (h : Half) (k : Nat) (j : Nat) (kp : Kept tl pr t0 s) :
    Kept tl pr t0 (State.retireSlab s h k j) := by
  unfold State.retireSlab
  repeat' first
    | intro _ | assumption | exact Kept.refl _ | exact HKept.of_eq rfl rfl | with_reducible apply log_kept
    | with_reducible apply modIsl_kept | with_reducible apply modSlab_kept | with_reducible apply Kept.ite
    | with_reducible apply foldl_kept | dsimp -zeta only | extract_lets | split | dsimp +zetaDelta only
    | (rename_i e; have e := congrArg Prod.fst e; dsimp only at e; rw [← e])

theorem retireNow_kept {t0 s : State} (h : Half) (slab : Nat) (kp : Kept tl pr t0 s) :
    Kept tl pr t0 (State.retireNow s h slab) := by
  unfold State.retireNow
  repeat' first
    | intro _ | assumption | exact Kept.refl _ | exact HKept.of_eq rfl rfl | with_reducible apply log_kept
    | with_reducible apply retireSlab_kept | with_reducible apply modIsl_kept | with_reducible apply Kept.ite
    | with_reducible apply foldl_kept | dsimp -zeta only | extract_lets | split | dsimp +zetaDelta only
    | (rename_i e; have e := congrArg Prod.fst e; dsimp only at e; rw [← e])

theorem retireAll_kept {t0 s : State} (h : Half) (kp : Kept tl pr t0 s) :
    Kept tl pr t0 (State.retireAll s h) := by
  unfold State.retireAll
  repeat' first
    | intro _ | assumption | exact Kept.refl _ | exact HKept.of_eq rfl rfl | with_reducible apply retireNow_kept
    | with_reducible apply Kept.ite | with_reducible apply foldl_kept | dsimp -zeta only | extract_lets | split
    | dsimp +zetaDelta only | (rename_i e; have e := congrArg Prod.fst e; dsimp only at e; rw [← e])

theorem execSlabRetired_kept {s out : State} (t : Nat) (h : Half) (slab : Nat) (e : execSlabRetired t h slab s =
    .next out) : Kept tl pr s out := by
  cases e
  repeat' first
    | intro _ | assumption | exact Kept.refl _ | exact HKept.of_eq rfl rfl | with_reducible apply retireNow_kept
    | with_reducible apply advance_kept | with_reducible apply onLive_kept | with_reducible apply Kept.ite
    | with_reducible apply foldl_kept | dsimp -zeta only | extract_lets | split | dsimp +zetaDelta only
    | (rename_i e; have e := congrArg Prod.fst e; dsimp only at e; rw [← e])

theorem execLocalise_kept {s out : State} (t : Nat) (h : Half) (fails : List (Nat × Nat)) (e : execLocalise t h
    fails s = .next out) : Kept tl pr s out := by
  cases e
  repeat' first
    | intro _ | assumption | exact Kept.refl _ | exact HKept.of_eq rfl rfl | with_reducible apply onSlice_kept
    | with_reducible apply clearDue_kept | with_reducible apply healthPath_kept | with_reducible apply slabEvent_kept
    | with_reducible apply retireAll_kept | with_reducible apply advance_kept | with_reducible apply Kept.ite
    | with_reducible apply foldl_kept | dsimp -zeta only | extract_lets | split | dsimp +zetaDelta only
    | (rename_i e; have e := congrArg Prod.fst e; dsimp only at e; rw [← e])

theorem execPostFp_kept {s out : State} (t : Nat) (h : Half) (pass : Bool) (e : execPostFp t h pass s = .next out) :
    Kept tl pr s out := by
  cases e
  repeat' first
    | intro _ | assumption | exact Kept.refl _ | exact HKept.of_eq rfl rfl | with_reducible apply disagree_kept
    | with_reducible apply onSlice_kept | with_reducible apply healthPath_kept | with_reducible apply advance_kept
    | with_reducible apply Kept.ite | with_reducible apply foldl_kept | dsimp -zeta only | extract_lets | split
    | dsimp +zetaDelta only | (rename_i e; have e := congrArg Prod.fst e; dsimp only at e; rw [← e])

theorem execOutlierSlice_kept {s out : State} (t : Nat) (h : Half) (pass : Bool) (e : execOutlierSlice t h pass s =
    .next out) : Kept tl pr s out := by
  cases e
  repeat' first
    | intro _ | assumption | exact Kept.refl _ | exact HKept.of_eq rfl rfl | with_reducible apply disagree_kept
    | with_reducible apply onSlice_kept | with_reducible apply healthPath_kept | with_reducible apply advance_kept
    | with_reducible apply Kept.ite | with_reducible apply foldl_kept | dsimp -zeta only | extract_lets | split
    | dsimp +zetaDelta only | (rename_i e; have e := congrArg Prod.fst e; dsimp only at e; rw [← e])

theorem execThreadSlice_kept {s out : State} (t : Nat) (h : Half) (group : Nat) (pass : Bool) (e : execThreadSlice t
    h group pass s = .next out) : Kept tl pr s out := by
  cases e
  repeat' first
    | intro _ | assumption | exact Kept.refl _ | exact HKept.of_eq rfl rfl | with_reducible apply countDerate_kept
    | with_reducible apply onSlice_kept | with_reducible apply healthPath_kept | with_reducible apply advance_kept
    | with_reducible apply Kept.ite | with_reducible apply foldl_kept | dsimp -zeta only | extract_lets | split
    | dsimp +zetaDelta only | (rename_i e; have e := congrArg Prod.fst e; dsimp only at e; rw [← e])

theorem execBankMarch_kept {s out : State} (t : Nat) (h : Half) (bank : Nat) (pass : Bool) (e : execBankMarch t h
    bank pass s = .next out) : Kept tl pr s out := by
  cases e
  repeat' first
    | intro _ | assumption | exact Kept.refl _ | exact HKept.of_eq rfl rfl | with_reducible apply onSlice_kept
    | with_reducible apply healthPath_kept | with_reducible apply advance_kept | with_reducible apply Kept.ite
    | with_reducible apply foldl_kept | dsimp -zeta only | extract_lets | split | dsimp +zetaDelta only
    | (rename_i e; have e := congrArg Prod.fst e; dsimp only at e; rw [← e])

theorem derateBelowFloor_kept {t0 s : State} (h : Half) (unit : Nat) (kp : Kept tl pr t0 s) :
    Kept tl pr t0 (State.derateBelowFloor s h unit) := by
  unfold State.derateBelowFloor
  repeat' first
    | intro _ | assumption | exact Kept.refl _ | exact HKept.of_eq rfl rfl | with_reducible apply log_kept
    | with_reducible apply Kept.ite | with_reducible apply foldl_kept | dsimp -zeta only | extract_lets | split
    | dsimp +zetaDelta only | (rename_i e; have e := congrArg Prod.fst e; dsimp only at e; rw [← e])

theorem execDerate_kept {s out : State} (t : Nat) (h : Half) (unit : Nat) (band : Nat) (e : execDerate t h unit band
    s = .next out) : Kept tl pr s out := by
  cases e
  repeat' first
    | intro _ | assumption | exact Kept.refl _ | exact HKept.of_eq rfl rfl | with_reducible apply log_kept
    | with_reducible apply derateBelowFloor_kept | with_reducible apply modIsl_kept | with_reducible apply advance_kept
    | with_reducible apply onHalf_kept | with_reducible apply Kept.ite | with_reducible apply foldl_kept
    | dsimp -zeta only | extract_lets | split | dsimp +zetaDelta only
    | (rename_i e; have e := congrArg Prod.fst e; dsimp only at e; rw [← e])

/-! ### Registers -/

theorem refuseWrite_kept {t0 s : State} (h : Half) (unit : Nat) (o : Nat) (kp : Kept tl pr t0 s) :
    Kept tl pr t0 (State.refuseWrite s h unit o) := by
  unfold State.refuseWrite
  repeat' first
    | intro _ | assumption | exact Kept.refl _ | exact HKept.of_eq rfl rfl | with_reducible apply logUnlisted_kept
    | with_reducible apply Kept.ite | with_reducible apply foldl_kept | dsimp -zeta only | extract_lets | split
    | dsimp +zetaDelta only | (rename_i e; have e := congrArg Prod.fst e; dsimp only at e; rw [← e])

theorem ringWrite_kept {t0 s : State} (h : Half) (r : Nat) (w : Nat) (v : Nat) (kp : Kept tl pr t0 s) :
    Kept tl pr t0 (State.ringWrite s h r w v) := by
  unfold State.ringWrite
  repeat' first
    | intro _ | assumption | exact Kept.refl _ | exact HKept.of_eq rfl rfl | with_reducible apply refuseWrite_kept
    | with_reducible apply modRing_kept | with_reducible apply Kept.ite | with_reducible apply foldl_kept
    | dsimp -zeta only | extract_lets | split | dsimp +zetaDelta only
    | (rename_i e; have e := congrArg Prod.fst e; dsimp only at e; rw [← e])

theorem hznWrite_kept {t0 s : State} (h : Half) (o : Nat) (v : Nat) (kp : Kept tl pr t0 s) :
    Kept tl pr t0 (State.hznWrite s h o v) := by
  unfold State.hznWrite
  repeat' first
    | intro _ | assumption | exact Kept.refl _ | exact HKept.of_eq rfl rfl | with_reducible apply modPort_kept
    | with_reducible apply hznApply_kept | with_reducible apply ringWrite_kept | with_reducible apply modStream_kept
    | with_reducible apply modHzn_kept | with_reducible apply Kept.ite | with_reducible apply foldl_kept
    | dsimp -zeta only | extract_lets | split | dsimp +zetaDelta only
    | (rename_i e; have e := congrArg Prod.fst e; dsimp only at e; rw [← e])

theorem dollyWrite_kept {t0 s : State} (h : Half) (o : Nat) (v : Nat) (kp : Kept tl pr t0 s) :
    Kept tl pr t0 (State.dollyWrite s h o v) := by
  unfold State.dollyWrite
  repeat' first
    | intro _ | assumption | exact Kept.refl _ | exact HKept.of_eq rfl rfl | with_reducible apply bankCtl_kept
    | with_reducible apply dollyApply_kept | with_reducible apply groupCtl_kept | with_reducible apply modDolly_kept
    | with_reducible apply Kept.ite | with_reducible apply foldl_kept | dsimp -zeta only | extract_lets | split
    | dsimp +zetaDelta only | (rename_i e; have e := congrArg Prod.fst e; dsimp only at e; rw [← e])

theorem linkWrite_kept {t0 s : State} (h : Half) (o : Nat) (v : Nat) (kp : Kept tl pr t0 s) :
    Kept tl pr t0 (State.linkWrite s h o v) := by
  unfold State.linkWrite
  repeat' first
    | intro _ | assumption | exact Kept.refl _ | exact HKept.of_eq rfl rfl | with_reducible apply ctrRetrain_kept
    | with_reducible apply ctrApply_kept | with_reducible apply modLink_kept | with_reducible apply Kept.ite
    | with_reducible apply foldl_kept | dsimp -zeta only | extract_lets | split | dsimp +zetaDelta only
    | (rename_i e; have e := congrArg Prod.fst e; dsimp only at e; rw [← e])

theorem protWrite_kept {t0 s : State} (h : Half) (o v : Nat) (kp : Kept tl pr t0 s) (hw : pr.mayWrite = true) :
    Kept tl pr t0 (s.protWrite h o v) := by
  unfold State.protWrite
  split
  · exact protCtl_kept _ _ _ kp hw
  · split
    · split
      · exact refuseWrite_kept _ _ _ kp
      · exact modProt_kept _ _ kp hw (fun hl => by simp_all)
    · exact kp

theorem hbmRegWrite_kept {t0 s : State} (h : Half) (o : Nat) (v : Nat) (kp : Kept tl pr t0 s) :
    Kept tl pr t0 (State.hbmRegWrite s h o v) := by
  unfold State.hbmRegWrite
  repeat' first
    | intro _ | assumption | exact Kept.refl _ | exact HKept.of_eq rfl rfl | with_reducible apply hbmApply_kept
    | with_reducible apply modHbm_kept | with_reducible apply Kept.ite | with_reducible apply foldl_kept
    | dsimp -zeta only | extract_lets | split | dsimp +zetaDelta only
    | (rename_i e; have e := congrArg Prod.fst e; dsimp only at e; rw [← e])

theorem regWrite_kept {t0 s : State} (h : Half) (o v : Nat) (kp : Kept tl pr t0 s) (hw : pr.mayWrite = true) :
    Kept tl pr t0 (s.regWrite h o v) := by
  unfold State.regWrite
  exact .ite (dollyWrite_kept _ _ _ kp) (.ite (hznWrite_kept _ _ _ kp) (.ite (hbmRegWrite_kept _ _ _ kp)
    (.ite (linkWrite_kept _ _ _ kp) (.ite (protWrite_kept _ _ _ kp hw) kp))))

theorem execRegisterWrite_kept {s out : State} (t : Nat) (h : Half) (offset : Nat) (value : BitVec 64) (w : World)
    (hw : pr.mayWrite = true) (e : execRegisterWrite t h offset value w s = .next out) : Kept tl pr s out := by
  cases e
  repeat' first
    | intro _ | assumption | exact Kept.refl _ | exact HKept.of_eq rfl rfl | with_reducible apply secureOnly_kept
    | with_reducible apply regWrite_kept | with_reducible apply advance_kept | with_reducible apply onLive_kept
    | with_reducible apply Kept.ite | with_reducible apply foldl_kept | dsimp -zeta only | extract_lets | split
    | dsimp +zetaDelta only | (rename_i e; have e := congrArg Prod.fst e; dsimp only at e; rw [← e])

/-! ### Boot -/

theorem tryCopies_kept {t0 s : State} (h : Half) (t : Nat) (alsoOk : List Byte → Bool) (z0 : List Nat) (kp : Kept tl
    pr t0 s) :
    Kept tl pr t0 (State.tryCopies s h t alsoOk z0).1 := by
  induction z0 generalizing s with
  | nil => exact kp
  | cons x r ih =>
    unfold State.tryCopies
    repeat' first
      | with_reducible apply ih | intro _ | assumption | exact Kept.refl _ | exact HKept.of_eq rfl rfl
      | with_reducible apply log_kept | exact Burnt.of_eq rfl rfl rfl rfl
      | exact HKept.of_prot (.of_eq rfl rfl rfl rfl) rfl | with_reducible apply Kept.ite
      | with_reducible apply foldl_kept | dsimp -zeta only | extract_lets | split | dsimp +zetaDelta only
      | (rename_i e; have e := congrArg Prod.fst e; dsimp only at e; rw [← e])

theorem load_kept {t0 s : State} (h : Half) (t : Nat) (alsoOk : List Byte → Bool) (kp : Kept tl pr t0 s) :
    Kept tl pr t0 (s.load h t alsoOk).1 := by
  unfold State.load
  extract_lets b x
  have hx : Kept tl pr t0 x.1 := by
    rw [show x = s.tryCopies h t alsoOk (b.order t) from rfl]
    exact tryCopies_kept _ _ _ _ kp
  generalize x = x at hx
  split
  · exact kp
  · split
    · dsimp only
      refine Kept.ite ?_ (log_kept _ _ ?_)
      all_goals
        refine modBoot_kept _ _ hx ?_
        exact .of_eq rfl rfl rfl rfl
    · dsimp only
      refine log_kept _ _ (modBoot_kept _ _ hx ?_)
      exact .of_eq rfl rfl rfl rfl

theorem loseMemory_kept {t0 s : State} (h : Half) (kp : Kept tl pr t0 s) :
    Kept tl pr t0 (State.loseMemory s h) := by
  unfold State.loseMemory
  repeat' first
    | intro _ | assumption | exact Kept.refl _ | exact HKept.of_eq rfl rfl | with_reducible apply markUndefs_kept
    | with_reducible apply Kept.ite | with_reducible apply foldl_kept | dsimp -zeta only | extract_lets | split
    | dsimp +zetaDelta only | (rename_i e; have e := congrArg Prod.fst e; dsimp only at e; rw [← e])

theorem enterBoot_kept {t0 s : State} (h : Half) (kp : Kept tl pr t0 s) (hr : pr.mayReset = true) :
    Kept tl pr t0 (s.enterBoot h) := by
  have k0 := modHalf_kept h (HalfState.coldStart h s.now) (loseMemory_kept h kp) (coldStart_hkept _ _ _ hr)
  unfold State.enterBoot
  extract_lets s0 s1
  have k : Kept tl pr t0 s1 := foldl_kept _ _ k0 (fun _ _ k => logBistFail_kept _ _ k)
  split
  · exact set_port_kept _ _ _ _ _ k
  · exact k

theorem execPowerOn_kept {s out : State} (t : Nat) (h : Half) (hr : pr.mayReset = true) (e : execPowerOn t h s =
    .next out) : Kept tl pr s out := by
  cases e
  repeat' first
    | intro _ | assumption | exact Kept.refl _ | exact HKept.of_eq rfl rfl | with_reducible apply enterBoot_kept
    | with_reducible apply advance_kept | with_reducible apply Kept.ite | with_reducible apply foldl_kept
    | dsimp -zeta only | extract_lets | split | dsimp +zetaDelta only
    | (rename_i e; have e := congrArg Prod.fst e; dsimp only at e; rw [← e])

theorem loseSupply_kept {t0 s : State} (h : Half) (kp : Kept tl pr t0 s) (hr : pr.mayReset = true)
    (hc : pr.mayCut = true) : Kept tl pr t0 (s.loseSupply h) := by
  unfold State.loseSupply
  refine .ite ?_ kp
  extract_lets s1 s2
  have k1 : Kept tl pr t0 s1 := .ite (modZen_kept _ _ (set_free_kept _ kp)) kp
  exact modHalf_kept _ _ (loseMemory_kept _ (modBoot_cut_kept _ _ (set_free_kept _ k1) hc)) (lose_hkept _ _ _ hr)

theorem execBrownOut_kept {s out : State} (t : Nat) (hr : pr.mayReset = true) (hc : pr.mayCut = true) (e :
    execBrownOut t s = .next out) : Kept tl pr s out := by
  cases e
  repeat' first
    | intro _ | assumption | exact Kept.refl _ | exact HKept.of_eq rfl rfl | with_reducible apply loseSupply_kept
    | with_reducible apply advance_kept | with_reducible apply Kept.ite | with_reducible apply foldl_kept
    | dsimp -zeta only | extract_lets | split | dsimp +zetaDelta only
    | (rename_i e; have e := congrArg Prod.fst e; dsimp only at e; rw [← e]) | with_reducible apply set_sdio_kept

theorem execFuseSense_kept {s out : State} (t : Nat) (h : Half) (vioOk : Bool)
    (e : execFuseSense t h vioOk s = .next out) : Kept tl pr s out := by
  cases e
  refine onHalf_kept _ _ (advance_kept _ (.refl _)) (fun k => ?_)
  split
  · exact k
  · split
    · refine modHalf_kept _ _ (modHbm_kept _ _ k) ?_
      refine HKept.trans ?_ (senseFuses_hkept _)
      exact .of_prot (.of_eq rfl rfl rfl rfl) rfl
    · refine modBoot_kept _ _ k ?_
      exact .of_eq rfl rfl rfl rfl

theorem bootFails_kept {t0 s : State} (h : Half) (kp : Kept tl pr t0 s) : Kept tl pr t0 (s.bootFails h) := by
  unfold State.bootFails
  extract_lets p
  refine modHalf_kept _ _ (.ite (dispatch_kept _ (loseLink_kept _ kp)) kp) ?_
  exact .of_prot (.of_eq rfl rfl rfl rfl) rfl

theorem bootCfg_kept {t0 s : State} (h : Half) (body : List Byte) (kp : Kept tl pr t0 s) :
    Kept tl pr t0 (s.bootCfg h body) := by
  unfold State.bootCfg
  extract_lets f s1
  have k : Kept tl pr t0 s1 := modBoot_kept _ _ kp (.of_eq rfl rfl rfl rfl)
  split
  · exact set_worlds_kept _ _ _ k
  · exact k

theorem required_kept {t0 s : State} (h : Half) (t : Nat) (f : State → State) (kp : Kept tl pr t0 s) (hf : ∀ t, Kept
    tl pr t0 t → Kept tl pr t0 (f t)) :
    Kept tl pr t0 (State.required s h t f) := by
  unfold State.required
  repeat' first
    | intro _ | assumption | exact Kept.refl _ | exact HKept.of_eq rfl rfl | with_reducible apply load_kept
    | with_reducible apply bootFails_kept | with_reducible apply hf | exact Burnt.of_eq rfl rfl rfl rfl
    | exact HKept.of_prot (.of_eq rfl rfl rfl rfl) rfl | with_reducible apply Kept.ite | with_reducible apply foldl_kept
    | dsimp -zeta only | extract_lets | split | dsimp +zetaDelta only
    | (rename_i e; have e := congrArg Prod.fst e; dsimp only at e; rw [← e])

theorem bootStage_kept {t0 s : State} (h : Half) (z0 : BootStage) (kp : Kept tl pr t0 s) (hr : pr.mayReset = true)
    (hw : pr.mayWrite = true) :
    Kept tl pr t0 (State.bootStage s h z0) := by
  unfold State.bootStage
  repeat' first
    | intro _ | assumption | exact Kept.refl _ | exact HKept.of_eq rfl rfl | with_reducible apply load_kept
    | with_reducible apply bootCfg_kept | with_reducible apply required_kept | with_reducible apply modBoot_kept
    | with_reducible apply modHalf_kept | with_reducible apply reach_hkept | with_reducible apply directorRuns_hkept
    | exact Burnt.of_eq rfl rfl rfl rfl | exact HKept.of_prot (.of_eq rfl rfl rfl rfl) rfl
    | with_reducible apply Kept.ite | with_reducible apply foldl_kept | dsimp -zeta only | extract_lets | split
    | dsimp +zetaDelta only | (rename_i e; have e := congrArg Prod.fst e; dsimp only at e; rw [← e])

theorem execBootStageDone_kept {s out : State} (t : Nat) (h : Half) (stage : BootStage) (hr : pr.mayReset = true)
    (hw : pr.mayWrite = true) (e : execBootStageDone t h stage s = .next out) : Kept tl pr s out := by
  cases e
  repeat' first
    | intro _ | assumption | exact Kept.refl _ | exact HKept.of_eq rfl rfl | with_reducible apply bootStage_kept
    | with_reducible apply advance_kept | with_reducible apply onLive_kept | exact Burnt.of_eq rfl rfl rfl rfl
    | exact HKept.of_prot (.of_eq rfl rfl rfl rfl) rfl | with_reducible apply Kept.ite | with_reducible apply foldl_kept
    | dsimp -zeta only | extract_lets | split | dsimp +zetaDelta only
    | (rename_i e; have e := congrArg Prod.fst e; dsimp only at e; rw [← e])

theorem fillSlate_kept {t0 s : State} (h : Half) (loadAddr : Nat) (body : List Byte) (kp : Kept tl pr t0 s) :
    Kept tl pr t0 (State.fillSlate s h loadAddr body) := by
  unfold State.fillSlate
  repeat' first
    | intro _ | assumption | exact Kept.refl _ | exact HKept.of_eq rfl rfl | with_reducible apply writeBytes_kept
    | with_reducible apply Kept.ite | with_reducible apply foldl_kept | dsimp -zeta only | extract_lets | split
    | dsimp +zetaDelta only | (rename_i e; have e := congrArg Prod.fst e; dsimp only at e; rw [← e])

theorem execSlateFill_kept {s out : State} (t : Nat) (h : Half) (e : execSlateFill t h s = .next out) :
    Kept tl pr s out := by
  cases e
  refine onLive_kept _ _ (advance_kept _ (.refl _)) (fun k => ?_)
  generalize s.advance t = s1 at k
  split
  · exact k
  · extract_lets x
    have hx : Kept tl pr s x.1 := by
      rw [show x = s1.tryCopies h 5 slateOk ((s1.half h).boot.order 5) from rfl]
      exact tryCopies_kept _ _ _ _ k
    generalize x = x at hx
    split
    · refine Kept.ite ?_ (log_kept _ _ ?_)
      all_goals
        refine modDisp_kept _ _ (modBoot_kept _ _ (fillSlate_kept _ _ _ hx) ?_)
        exact .of_eq rfl rfl rfl rfl
    · refine modBoot_kept _ _ (load_kept _ _ _ k) ?_
      exact .of_eq rfl rfl rfl rfl

/-! ### Security -/

theorem modBoth_kept {t0 s : State} (f : HalfState → HalfState) (kp : Kept tl pr t0 s) (hf : ∀ x, HKept pr x (f x)) :
    Kept tl pr t0 (s.modBoth f) := by
  unfold State.modBoth
  split
  · exact modHalf_kept _ _ (modHalf_kept _ _ kp (hf _)) (hf _)
  · exact modHalf_kept _ _ kp (hf _)

theorem logBoth_kept {t0 s : State} (e : Event) (kp : Kept tl pr t0 s) :
    Kept tl pr t0 (State.logBoth s e) := by
  unfold State.logBoth
  repeat' first
    | intro _ | assumption | exact Kept.refl _ | exact HKept.of_eq rfl rfl | with_reducible apply log_kept
    | with_reducible apply Kept.ite | with_reducible apply foldl_kept | dsimp -zeta only | extract_lets | split
    | dsimp +zetaDelta only | (rename_i e; have e := congrArg Prod.fst e; dsimp only at e; rw [← e])

theorem keyProgram_kept {t0 s : State} (slot : Nat) (hash : List Byte) (kp : Kept tl pr t0 s) :
    Kept tl pr t0 (s.keyProgram slot hash).1 := by
  unfold State.keyProgram
  dsimp only
  split
  · exact kp
  · split
    · exact kp
    · split
      · exact kp
      · exact logBoth_kept _ (modBoth_kept _ kp (fun x => .of_prot (burnKey_burnt _ _ _ _) rfl))

theorem revokeKey_kept {t0 s : State} (slot : Nat) (kp : Kept tl pr t0 s) : Kept tl pr t0 (s.revokeKey slot).1 := by
  unfold State.revokeKey
  dsimp only
  split
  · exact kp
  · split
    · exact kp
    · split
      · exact kp
      · exact logBoth_kept _ (modBoth_kept _ kp (fun x => .of_prot (revoke_burnt _ _) rfl))

theorem commitRollback_kept {t0 s : State} (t : Nat) (h : Half) (kp : Kept tl pr t0 s) :
    Kept tl pr t0 (State.commitRollback s t h) := by
  unfold State.commitRollback
  repeat' first
    | intro _ | assumption | exact Kept.refl _ | exact HKept.of_eq rfl rfl | with_reducible apply log_kept
    | with_reducible apply modBoot_kept | with_reducible apply commitRollback_burnt | exact Burnt.of_eq rfl rfl rfl rfl
    | exact HKept.of_prot (.of_eq rfl rfl rfl rfl) rfl | with_reducible apply Kept.ite | with_reducible apply foldl_kept
    | dsimp -zeta only | extract_lets | split | dsimp +zetaDelta only
    | (rename_i e; have e := congrArg Prod.fst e; dsimp only at e; rw [← e])

theorem rollbackCommit_kept {t0 s : State} (t : Nat) (kp : Kept tl pr t0 s) :
    Kept tl pr t0 (State.rollbackCommit s t).1 := by
  unfold State.rollbackCommit
  repeat' first
    | intro _ | assumption | exact Kept.refl _ | exact HKept.of_eq rfl rfl | with_reducible apply commitRollback_kept
    | with_reducible apply Kept.ite | with_reducible apply foldl_kept | dsimp -zeta only | extract_lets | split
    | dsimp +zetaDelta only | (rename_i e; have e := congrArg Prod.fst e; dsimp only at e; rw [← e])

theorem attest_kept {t0 s : State} (nonce : List Byte) (kp : Kept tl pr t0 s) : Kept tl pr t0 (s.attest nonce).1 := by
  unfold State.attest
  split
  · exact kp
  · generalize s.report nonce = r
    dsimp only
    refine modBoot_kept _ _ kp ?_
    exact .of_eq rfl rfl rfl rfl

theorem updateHalf_kept {t0 s : State} (image : List Byte) (h : Half) (kp : Kept tl pr t0 s) :
    Kept tl pr t0 (s.updateHalf image h).1 := by
  unfold State.updateHalf
  extract_lets t b c e s1
  have k : Kept tl pr t0 s1 := .ite (log_kept _ _ kp) kp
  generalize s1 = s1 at k
  split
  · dsimp only
    refine modBoot_kept _ _ k ?_
    exact .of_eq rfl rfl rfl rfl
  · dsimp only
    refine modBoot_kept _ _ k ?_
    exact .of_eq rfl rfl rfl rfl

theorem updateImage_kept {t0 s : State} (image : List Byte) (kp : Kept tl pr t0 s) :
    Kept tl pr t0 (State.updateImage s image).1 := by
  unfold State.updateImage
  repeat' first
    | intro _ | assumption | exact Kept.refl _ | exact HKept.of_eq rfl rfl | with_reducible apply updateHalf_kept
    | with_reducible apply Kept.ite | with_reducible apply foldl_kept | dsimp -zeta only | extract_lets | split
    | dsimp +zetaDelta only | (rename_i e; have e := congrArg Prod.fst e; dsimp only at e; rw [← e])

theorem execUpdateWritten_kept {s out : State} (t : Nat) (h : Half) (e : execUpdateWritten t h s = .next out) : Kept
    tl pr s out := by
  cases e
  repeat' first
    | intro _ | assumption | exact Kept.refl _ | exact HKept.of_eq rfl rfl | with_reducible apply modBoot_kept
    | with_reducible apply advance_kept | with_reducible apply onHalf_kept | exact Burnt.of_eq rfl rfl rfl rfl
    | exact HKept.of_prot (.of_eq rfl rfl rfl rfl) rfl | with_reducible apply Kept.ite | with_reducible apply foldl_kept
    | dsimp -zeta only | extract_lets | split | dsimp +zetaDelta only
    | (rename_i e; have e := congrArg Prod.fst e; dsimp only at e; rw [← e])

/-! ### Controls -/

theorem returnToService_kept {t0 s : State} (h : Half) (kp : Kept tl pr t0 s) :
    Kept tl pr t0 (State.returnToService s h) := by
  unfold State.returnToService
  repeat' first
    | intro _ | assumption | exact Kept.refl _ | exact HKept.of_eq rfl rfl | with_reducible apply faultPin_kept
    | with_reducible apply setReturn_kept | with_reducible apply modIsl_kept | exact Burnt.of_eq rfl rfl rfl rfl
    | exact HKept.of_prot (.of_eq rfl rfl rfl rfl) rfl | with_reducible apply Kept.ite | with_reducible apply foldl_kept
    | dsimp -zeta only | extract_lets | split | dsimp +zetaDelta only
    | (rename_i e; have e := congrArg Prod.fst e; dsimp only at e; rw [← e])

theorem holdOut_kept {t0 s : State} (h : Half) (kp : Kept tl pr t0 s) :
    Kept tl pr t0 (State.holdOut s h) := by
  unfold State.holdOut
  repeat' first
    | intro _ | assumption | exact Kept.refl _ | exact HKept.of_eq rfl rfl | with_reducible apply faultPin_kept
    | with_reducible apply modIsl_kept | with_reducible apply Kept.ite | with_reducible apply foldl_kept
    | dsimp -zeta only | extract_lets | split | dsimp +zetaDelta only
    | (rename_i e; have e := congrArg Prod.fst e; dsimp only at e; rw [← e])

theorem halfCtl_kept {t0 s : State} (h : Half) (v : Nat) (kp : Kept tl pr t0 s) :
    Kept tl pr t0 (State.halfCtl s h v).1 := by
  unfold State.halfCtl
  repeat' first
    | intro _ | assumption | exact Kept.refl _ | exact HKept.of_eq rfl rfl | with_reducible apply halfFault_kept
    | with_reducible apply returnToService_kept | with_reducible apply holdOut_kept | with_reducible apply modIsl_kept
    | with_reducible apply modHalf_kept | with_reducible apply fence_hkept | with_reducible apply Kept.ite
    | with_reducible apply foldl_kept | dsimp -zeta only | extract_lets | split | dsimp +zetaDelta only
    | (rename_i e; have e := congrArg Prod.fst e; dsimp only at e; rw [← e])

theorem derateClear_kept {t0 s : State} (h : Half) (mask : Nat) (kp : Kept tl pr t0 s) :
    Kept tl pr t0 (State.derateClear s h mask) := by
  unfold State.derateClear
  repeat' first
    | intro _ | assumption | exact Kept.refl _ | exact HKept.of_eq rfl rfl | with_reducible apply modIsl_kept
    | with_reducible apply Kept.ite | with_reducible apply foldl_kept | dsimp -zeta only | extract_lets | split
    | dsimp +zetaDelta only | (rename_i e; have e := congrArg Prod.fst e; dsimp only at e; rw [← e])

theorem shutHalf_kept {t0 s : State} (bist : Bool) (vin : Nat) (ppm : Nat) (h : Half) (kp : Kept tl pr t0 s) :
    Kept tl pr t0 (State.shutHalf s bist vin ppm h) := by
  unfold State.shutHalf
  repeat' first
    | intro _ | assumption | exact Kept.refl _ | exact HKept.of_eq rfl rfl | with_reducible apply log_kept
    | with_reducible apply regsOff_kept | with_reducible apply modHalf_kept | with_reducible apply Kept.ite
    | with_reducible apply foldl_kept | dsimp -zeta only | extract_lets | split | dsimp +zetaDelta only
    | (rename_i e; have e := congrArg Prod.fst e; dsimp only at e; rw [← e])

theorem powerCtl_kept {t0 s : State} (v : Nat) (m : BistView) (kp : Kept tl pr t0 s) (hr : pr.mayReset = true) :
    Kept tl pr t0 (State.powerCtl s v m).1 := by
  unfold State.powerCtl
  repeat' first
    | intro _ | assumption | exact Kept.refl _ | exact HKept.of_eq rfl rfl | with_reducible apply enterBoot_kept
    | with_reducible apply shutHalf_kept | exact Burnt.of_eq rfl rfl rfl rfl
    | exact HKept.of_prot (.of_eq rfl rfl rfl rfl) rfl | with_reducible apply Kept.ite | with_reducible apply foldl_kept
    | dsimp -zeta only | extract_lets | split | dsimp +zetaDelta only
    | (rename_i e; have e := congrArg Prod.fst e; dsimp only at e; rw [← e])

theorem clearAccounts_kept {t0 s : State} (h : Half) (ctx : Nat) (kp : Kept tl pr t0 s) :
    Kept tl pr t0 (State.clearAccounts s h ctx) := by
  unfold State.clearAccounts
  repeat' first
    | intro _ | assumption | exact Kept.refl _ | exact HKept.of_eq rfl rfl | with_reducible apply modJob_kept
    | with_reducible apply Kept.ite | with_reducible apply foldl_kept | dsimp -zeta only | extract_lets | split
    | dsimp +zetaDelta only | (rename_i e; have e := congrArg Prod.fst e; dsimp only at e; rw [← e])

theorem limitLogs_kept {t0 s : State}  (kp : Kept tl pr t0 s) :
    Kept tl pr t0 (State.limitLogs s) := by
  unfold State.limitLogs
  repeat' first
    | intro _ | assumption | exact Kept.refl _ | exact HKept.of_eq rfl rfl | with_reducible apply limitLog_kept
    | with_reducible apply Kept.ite | with_reducible apply foldl_kept | dsimp -zeta only | extract_lets | split
    | dsimp +zetaDelta only | (rename_i e; have e := congrArg Prod.fst e; dsimp only at e; rw [← e])

theorem putEntry_kept {t0 s : State} (h : Half) (i sub : Nat) (data : List Byte) (kp : Kept tl pr t0 s)
    (hw : pr.mayWrite = true) : Kept tl pr t0 (s.putEntry h i sub data) := by
  unfold State.putEntry
  extract_lets v
  split
  · exact modCan_kept _ _ kp
  · split
    · split
      · exact set_worlds_kept _ s.canAWorld s.canBWorld kp
      · split
        · exact set_worlds_kept s.sdioWorld _ s.canBWorld kp
        · exact set_worlds_kept s.sdioWorld s.canAWorld _ kp
    · split
      · exact regWrite_kept _ _ _ kp hw
      · split
        · split
          · exact regWrite_kept _ _ _ kp hw
          · exact kp
        · split
          · exact modDisp_kept _ _ kp
          · split
            · exact modIsl_kept _ _ kp
            · split
              · exact limitLogs_kept (set_pkgLimit_kept _ kp)
              · exact modZen_kept _ _ kp

theorem command'_kept {t0 s : State} (h : Half) (i : Nat) (sub : Nat) (data : List Byte) (kp : Kept tl pr t0 s) (hr
    : pr.mayReset = true) :
    Kept tl pr t0 (State.command' s h i sub data).1 := by
  unfold State.command'
  repeat' first
    | intro _ | assumption | exact Kept.refl _ | exact HKept.of_eq rfl rfl | with_reducible apply keyProgram_kept
    | with_reducible apply revokeKey_kept | with_reducible apply rollbackCommit_kept | with_reducible apply attest_kept
    | with_reducible apply updateImage_kept | with_reducible apply halfCtl_kept | with_reducible apply derateClear_kept
    | with_reducible apply powerCtl_kept | with_reducible apply clearAccounts_kept | with_reducible apply Kept.ite
    | with_reducible apply foldl_kept | dsimp -zeta only | extract_lets | split | dsimp +zetaDelta only
    | (rename_i e; have e := congrArg Prod.fst e; dsimp only at e; rw [← e])

/-! ### Session -/

theorem putAll_kept {t0 s : State} (h : Half) (l : List Staged) (kp : Kept tl pr t0 s) (hw : pr.mayWrite = true) :
    Kept tl pr t0 (State.putAll s h l) := by
  unfold State.putAll
  repeat' first
    | intro _ | assumption | exact Kept.refl _ | exact HKept.of_eq rfl rfl | with_reducible apply putEntry_kept
    | with_reducible apply Kept.ite | with_reducible apply foldl_kept | dsimp -zeta only | extract_lets | split
    | dsimp +zetaDelta only | (rename_i e; have e := congrArg Prod.fst e; dsimp only at e; rw [← e])

theorem actAll_kept {t0 s : State} (h : Half) (l : List Staged) (kp : Kept tl pr t0 s) (hr : pr.mayReset = true) :
    Kept tl pr t0 (State.actAll s h l) := by
  unfold State.actAll
  repeat' first
    | intro _ | assumption | exact Kept.refl _ | exact HKept.of_eq rfl rfl | with_reducible apply command'_kept
    | with_reducible apply Kept.ite | with_reducible apply foldl_kept | dsimp -zeta only | extract_lets | split
    | dsimp +zetaDelta only | (rename_i e; have e := congrArg Prod.fst e; dsimp only at e; rw [← e])

theorem commitSession_kept {t0 s : State} (h : Half) (kp : Kept tl pr t0 s) :
    Kept tl pr t0 (State.commitSession s h).1 := by
  unfold State.commitSession
  repeat' first
    | intro _ | assumption | exact Kept.refl _ | exact HKept.of_eq rfl rfl | with_reducible apply putAll_kept
    | with_reducible apply modSession_kept | with_reducible apply modDisp_kept | with_reducible apply Kept.ite
    | with_reducible apply foldl_kept | dsimp -zeta only | extract_lets | split | dsimp +zetaDelta only
    | (rename_i e; have e := congrArg Prod.fst e; dsimp only at e; rw [← e])

theorem openSession_kept {t0 s : State} (h : Half) (holder : Nat) (kp : Kept tl pr t0 s) :
    Kept tl pr t0 (State.openSession s h holder).1 := by
  unfold State.openSession
  repeat' first
    | intro _ | assumption | exact Kept.refl _ | exact HKept.of_eq rfl rfl | with_reducible apply modSession_kept
    | with_reducible apply Kept.ite | with_reducible apply foldl_kept | dsimp -zeta only | extract_lets | split
    | dsimp +zetaDelta only | (rename_i e; have e := congrArg Prod.fst e; dsimp only at e; rw [← e])

theorem endSession_kept {t0 s : State} (h : Half) (mine : Bool) (commit : Bool) (kp : Kept tl pr t0 s) :
    Kept tl pr t0 (State.endSession s h mine commit).1 := by
  unfold State.endSession
  repeat' first
    | intro _ | assumption | exact Kept.refl _ | exact HKept.of_eq rfl rfl | with_reducible apply commitSession_kept
    | with_reducible apply modSession_kept | with_reducible apply Kept.ite | with_reducible apply foldl_kept
    | dsimp -zeta only | extract_lets | split | dsimp +zetaDelta only
    | (rename_i e; have e := congrArg Prod.fst e; dsimp only at e; rw [← e])

theorem sessionWrite_kept {t0 s : State} (h : Half) (holder : Nat) (sub : Nat) (v : Nat) (mine : Bool) (kp : Kept tl
    pr t0 s) :
    Kept tl pr t0 (State.sessionWrite s h holder sub v mine).1 := by
  unfold State.sessionWrite
  repeat' first
    | intro _ | assumption | exact Kept.refl _ | exact HKept.of_eq rfl rfl | with_reducible apply openSession_kept
    | with_reducible apply endSession_kept | with_reducible apply Kept.ite | with_reducible apply foldl_kept
    | dsimp -zeta only | extract_lets | split | dsimp +zetaDelta only
    | (rename_i e; have e := congrArg Prod.fst e; dsimp only at e; rw [← e])

theorem execSessionExpire_kept {s out : State} (t : Nat) (h : Half) (e : execSessionExpire t h s = .next out) : Kept
    tl pr s out := by
  cases e
  repeat' first
    | intro _ | assumption | exact Kept.refl _ | exact HKept.of_eq rfl rfl | with_reducible apply modSession_kept
    | with_reducible apply advance_kept | with_reducible apply onHalf_kept | with_reducible apply Kept.ite
    | with_reducible apply foldl_kept | dsimp -zeta only | extract_lets | split | dsimp +zetaDelta only
    | (rename_i e; have e := congrArg Prod.fst e; dsimp only at e; rw [← e])

theorem applyBlocks_kept {t0 s : State} (h : Half) (l : List Staged) (kp : Kept tl pr t0 s) (hw : pr.mayWrite = true) :
    Kept tl pr t0 (s.applyBlocks h l) := by
  unfold State.applyBlocks
  extract_lets lock s1 s2 s3 s4
  have k1 : Kept tl pr t0 s1 := .ite (modHzn_kept _ _ (hznApply_kept _ _ kp)) kp
  have k2 : Kept tl pr t0 s2 := .ite (hbmApply_kept _ _ k1) k1
  have k3 : Kept tl pr t0 s3 := .ite (protCtl_kept _ _ _ k2 hw) k2
  have k4 : Kept tl pr t0 s4 := .ite (modBoot_kept _ _ k3 (.of_eq rfl rfl rfl rfl)) k3
  exact .ite (modCan_kept _ _ k4) k4

theorem releaseSession_kept {t0 s : State} (h : Half) (kp : Kept tl pr t0 s) (hr : pr.mayReset = true) (hw :
    pr.mayWrite = true) :
    Kept tl pr t0 (State.releaseSession s h) := by
  unfold State.releaseSession
  repeat' first
    | intro _ | assumption | exact Kept.refl _ | exact HKept.of_eq rfl rfl | with_reducible apply putAll_kept
    | with_reducible apply actAll_kept | with_reducible apply applyBlocks_kept | with_reducible apply modSession_kept
    | with_reducible apply Kept.ite | with_reducible apply foldl_kept | dsimp -zeta only | extract_lets | split
    | dsimp +zetaDelta only | (rename_i e; have e := congrArg Prod.fst e; dsimp only at e; rw [← e])

theorem settleSession_kept {t0 s : State} (h : Half) (kp : Kept tl pr t0 s) :
    Kept tl pr t0 (State.settleSession s h) := by
  unfold State.settleSession
  repeat' first
    | intro _ | assumption | exact Kept.refl _ | exact HKept.of_eq rfl rfl | with_reducible apply modSession_kept
    | with_reducible apply Kept.ite | with_reducible apply foldl_kept | dsimp -zeta only | extract_lets | split
    | dsimp +zetaDelta only | (rename_i e; have e := congrArg Prod.fst e; dsimp only at e; rw [← e])

theorem refuseArming_kept {t0 s : State} (h : Half) (e : Nat) (kp : Kept tl pr t0 s) :
    Kept tl pr t0 (State.refuseArming s h e) := by
  unfold State.refuseArming
  repeat' first
    | intro _ | assumption | exact Kept.refl _ | exact HKept.of_eq rfl rfl | with_reducible apply modSession_kept
    | with_reducible apply modDisp_kept | with_reducible apply Kept.ite | with_reducible apply foldl_kept
    | dsimp -zeta only | extract_lets | split | dsimp +zetaDelta only
    | (rename_i e; have e := congrArg Prod.fst e; dsimp only at e; rw [← e])

/-! ### Channels -/

theorem modChan_kept {t0 s : State} (ch : Channel) (h : Half) (f : Chan → Chan) (kp : Kept tl pr t0 s) :
    Kept tl pr t0 (State.modChan s ch h f) := by
  unfold State.modChan
  repeat' first
    | intro _ | assumption | exact Kept.refl _ | exact HKept.of_eq rfl rfl | with_reducible apply modHalf_kept
    | with_reducible apply Kept.ite | with_reducible apply foldl_kept | dsimp -zeta only | extract_lets | split
    | dsimp +zetaDelta only | (rename_i e; have e := congrArg Prod.fst e; dsimp only at e; rw [← e])

theorem writeBy_kept {t0 s0 : State} (ch : Channel) (index : Nat) (sub : Nat) (data : List Byte) (cmd : State →
    State × Nat) (kp : Kept tl pr t0 s0) (hcmd : ∀ t, Kept tl pr t0 t → Kept tl pr t0 (cmd t).1) (hw : pr.mayWrite =
    true) :
    Kept tl pr t0 (State.writeBy s0 ch index sub data cmd).1 := by
  unfold State.writeBy
  repeat' first
    | intro _ | assumption | exact Kept.refl _ | exact HKept.of_eq rfl rfl | with_reducible apply putEntry_kept
    | with_reducible apply sessionWrite_kept | with_reducible apply modSession_kept | with_reducible apply hcmd
    | with_reducible apply Kept.ite | with_reducible apply foldl_kept | dsimp -zeta only | extract_lets | split
    | dsimp +zetaDelta only | (rename_i e; have e := congrArg Prod.fst e; dsimp only at e; rw [← e])

theorem writeEntry_kept {t0 s : State} (ch : Channel) (index : Nat) (sub : Nat) (data : List Byte) (kp : Kept tl pr
    t0 s) (hr : pr.mayReset = true) (hw : pr.mayWrite = true) :
    Kept tl pr t0 (State.writeEntry s ch index sub data).1 := by
  unfold State.writeEntry
  repeat' first
    | intro _ | assumption | exact Kept.refl _ | exact HKept.of_eq rfl rfl | with_reducible apply command'_kept
    | with_reducible apply writeBy_kept | with_reducible apply Kept.ite | with_reducible apply foldl_kept
    | dsimp -zeta only | extract_lets | split | dsimp +zetaDelta only
    | (rename_i e; have e := congrArg Prod.fst e; dsimp only at e; rw [← e])

theorem canSend_kept {t0 s : State} (h : Half) (id : Nat) (data : List Byte) (kp : Kept tl pr t0 s) :
    Kept tl pr t0 (State.canSend s h id data) := by
  unfold State.canSend
  repeat' first
    | intro _ | assumption | exact Kept.refl _ | exact HKept.of_eq rfl rfl | with_reducible apply modCan_kept
    | with_reducible apply Kept.ite | with_reducible apply foldl_kept | dsimp -zeta only | extract_lets | split
    | dsimp +zetaDelta only | (rename_i e; have e := congrArg Prod.fst e; dsimp only at e; rw [← e])
    | with_reducible apply set_free_kept

theorem respond_kept {t0 s : State} (ch : Channel) (home : Half) (r : List Byte) (kp : Kept tl pr t0 s) :
    Kept tl pr t0 (State.respond s ch home r) := by
  unfold State.respond
  repeat' first
    | intro _ | assumption | exact Kept.refl _ | exact HKept.of_eq rfl rfl | with_reducible apply modChan_kept
    | with_reducible apply canSend_kept | with_reducible apply Kept.ite | with_reducible apply foldl_kept
    | dsimp -zeta only | extract_lets | split | dsimp +zetaDelta only
    | (rename_i e; have e := congrArg Prod.fst e; dsimp only at e; rw [← e]) | with_reducible apply set_sdio_kept

theorem answer_kept {t0 s : State} (ch : Channel) (q : Request) (abort : Nat) (kp : Kept tl pr t0 s) :
    Kept tl pr t0 (State.answer s ch q abort) := by
  unfold State.answer
  repeat' first
    | intro _ | assumption | exact Kept.refl _ | exact HKept.of_eq rfl rfl | with_reducible apply respond_kept
    | with_reducible apply Kept.ite | with_reducible apply foldl_kept | dsimp -zeta only | extract_lets | split
    | dsimp +zetaDelta only | (rename_i e; have e := congrArg Prod.fst e; dsimp only at e; rw [← e])

theorem readRequest_kept {t0 s : State} (ch : Channel) (q : Request) (kp : Kept tl pr t0 s) :
    Kept tl pr t0 (State.readRequest s ch q) := by
  unfold State.readRequest
  repeat' first
    | intro _ | assumption | exact Kept.refl _ | exact HKept.of_eq rfl rfl | with_reducible apply respond_kept
    | with_reducible apply answer_kept | with_reducible apply Kept.ite | with_reducible apply foldl_kept
    | dsimp -zeta only | extract_lets | split | dsimp +zetaDelta only
    | (rename_i e; have e := congrArg Prod.fst e; dsimp only at e; rw [← e])

theorem writeRequest_kept {t0 s : State} (ch : Channel) (q : Request) (kp : Kept tl pr t0 s) (hr : pr.mayReset =
    true) (hw : pr.mayWrite = true) :
    Kept tl pr t0 (State.writeRequest s ch q) := by
  unfold State.writeRequest
  repeat' first
    | intro _ | assumption | exact Kept.refl _ | exact HKept.of_eq rfl rfl | with_reducible apply modChan_kept
    | with_reducible apply writeEntry_kept | with_reducible apply answer_kept | with_reducible apply Kept.ite
    | with_reducible apply foldl_kept | dsimp -zeta only | extract_lets | split | dsimp +zetaDelta only
    | (rename_i e; have e := congrArg Prod.fst e; dsimp only at e; rw [← e])

theorem cancel_kept {t0 s : State} (ch : Channel) (kp : Kept tl pr t0 s) :
    Kept tl pr t0 (State.cancel s ch) := by
  unfold State.cancel
  repeat' first
    | intro _ | assumption | exact Kept.refl _ | exact HKept.of_eq rfl rfl | with_reducible apply modChan_kept
    | with_reducible apply Kept.ite | with_reducible apply foldl_kept | dsimp -zeta only | extract_lets | split
    | dsimp +zetaDelta only | (rename_i e; have e := congrArg Prod.fst e; dsimp only at e; rw [← e])

theorem request_kept {t0 s : State} (ch : Channel) (q : Request) (kp : Kept tl pr t0 s) (hr : pr.mayReset = true)
    (hw : pr.mayWrite = true) :
    Kept tl pr t0 (State.request s ch q) := by
  unfold State.request
  repeat' first
    | intro _ | assumption | exact Kept.refl _ | exact HKept.of_eq rfl rfl | with_reducible apply answer_kept
    | with_reducible apply readRequest_kept | with_reducible apply writeRequest_kept | with_reducible apply cancel_kept
    | with_reducible apply Kept.ite | with_reducible apply foldl_kept | dsimp -zeta only | extract_lets | split
    | dsimp +zetaDelta only | (rename_i e; have e := congrArg Prod.fst e; dsimp only at e; rw [← e])

theorem onChannel_kept {t0 s : State} (ch : Channel) (f : State → State) (kp : Kept tl pr t0 s) (hf : ∀ t, Kept tl
    pr t0 t → Kept tl pr t0 (f t)) :
    Kept tl pr t0 (onChannel s ch f) := by
  unfold onChannel
  repeat' first
    | intro _ | assumption | exact Kept.refl _ | exact HKept.of_eq rfl rfl | with_reducible apply hf
    | with_reducible apply Kept.ite | with_reducible apply foldl_kept | dsimp -zeta only | extract_lets | split
    | dsimp +zetaDelta only | (rename_i e; have e := congrArg Prod.fst e; dsimp only at e; rw [← e])

theorem execDictRead_kept {s out : State} (t : Nat) (ch : Channel) (txn : Nat) (index : Nat) (sub : Nat) (offset :
    Nat) (max : Nat) (hr : pr.mayReset = true) (hw : pr.mayWrite = true) (e : execDictRead t ch txn index sub offset
    max s = .next out) : Kept tl pr s out := by
  cases e
  repeat' first
    | intro _ | assumption | exact Kept.refl _ | exact HKept.of_eq rfl rfl | with_reducible apply request_kept
    | with_reducible apply onChannel_kept | with_reducible apply advance_kept | with_reducible apply Kept.ite
    | with_reducible apply foldl_kept | dsimp -zeta only | extract_lets | split | dsimp +zetaDelta only
    | (rename_i e; have e := congrArg Prod.fst e; dsimp only at e; rw [← e])

theorem execDictWrite_kept {s out : State} (t : Nat) (ch : Channel) (txn : Nat) (index : Nat) (sub : Nat) (offset :
    Nat) (last : Bool) (data : List Byte) (hr : pr.mayReset = true) (hw : pr.mayWrite = true) (e : execDictWrite t
    ch txn index sub offset last data s = .next out) : Kept tl pr s out := by
  cases e
  repeat' first
    | intro _ | assumption | exact Kept.refl _ | exact HKept.of_eq rfl rfl | with_reducible apply request_kept
    | with_reducible apply onChannel_kept | with_reducible apply advance_kept | with_reducible apply Kept.ite
    | with_reducible apply foldl_kept | dsimp -zeta only | extract_lets | split | dsimp +zetaDelta only
    | (rename_i e; have e := congrArg Prod.fst e; dsimp only at e; rw [← e])

theorem execDictCancel_kept {s out : State} (t : Nat) (ch : Channel) (txn : Nat) (hr : pr.mayReset = true) (hw :
    pr.mayWrite = true) (e : execDictCancel t ch txn s = .next out) : Kept tl pr s out := by
  cases e
  repeat' first
    | intro _ | assumption | exact Kept.refl _ | exact HKept.of_eq rfl rfl | with_reducible apply request_kept
    | with_reducible apply onChannel_kept | with_reducible apply advance_kept | with_reducible apply Kept.ite
    | with_reducible apply foldl_kept | dsimp -zeta only | extract_lets | split | dsimp +zetaDelta only
    | (rename_i e; have e := congrArg Prod.fst e; dsimp only at e; rw [← e])

theorem expire_kept {t0 s : State} (ch : Channel) (h : Half) (kp : Kept tl pr t0 s) :
    Kept tl pr t0 (State.expire s ch h) := by
  unfold State.expire
  repeat' first
    | intro _ | assumption | exact Kept.refl _ | exact HKept.of_eq rfl rfl | with_reducible apply modChan_kept
    | with_reducible apply respond_kept | with_reducible apply Kept.ite | with_reducible apply foldl_kept
    | dsimp -zeta only | extract_lets | split | dsimp +zetaDelta only
    | (rename_i e; have e := congrArg Prod.fst e; dsimp only at e; rw [← e])

theorem execDictTimeout_kept {s out : State} (t : Nat) (ch : Channel) (e : execDictTimeout t ch s = .next out) :
    Kept tl pr s out := by
  cases e
  repeat' first
    | intro _ | assumption | exact Kept.refl _ | exact HKept.of_eq rfl rfl | with_reducible apply onChannel_kept
    | with_reducible apply expire_kept | with_reducible apply advance_kept | with_reducible apply Kept.ite
    | with_reducible apply foldl_kept | dsimp -zeta only | extract_lets | split | dsimp +zetaDelta only
    | (rename_i e; have e := congrArg Prod.fst e; dsimp only at e; rw [← e])

theorem writeOnce_kept {t0 s : State} (ch : Channel) (index : Nat) (sub : Nat) (w : State → State × Nat) (kp : Kept
    tl pr t0 s) (hw : ∀ t, Kept tl pr t0 t → Kept tl pr t0 (w t).1) :
    Kept tl pr t0 (State.writeOnce s ch index sub w) := by
  unfold State.writeOnce
  repeat' first
    | intro _ | assumption | exact Kept.refl _ | exact HKept.of_eq rfl rfl | with_reducible apply answer_kept
    | with_reducible apply hw | with_reducible apply Kept.ite | with_reducible apply foldl_kept | dsimp -zeta only
    | extract_lets | split | dsimp +zetaDelta only
    | (rename_i e; have e := congrArg Prod.fst e; dsimp only at e; rw [← e])

theorem writeWhole_kept {t0 s : State} (ch : Channel) (index : Nat) (sub : Nat) (data : List Byte) (kp : Kept tl pr
    t0 s) (hr : pr.mayReset = true) (hw : pr.mayWrite = true) :
    Kept tl pr t0 (State.writeWhole s ch index sub data) := by
  unfold State.writeWhole
  repeat' first
    | intro _ | assumption | exact Kept.refl _ | exact HKept.of_eq rfl rfl | with_reducible apply writeEntry_kept
    | with_reducible apply writeOnce_kept | with_reducible apply Kept.ite | with_reducible apply foldl_kept
    | dsimp -zeta only | extract_lets | split | dsimp +zetaDelta only
    | (rename_i e; have e := congrArg Prod.fst e; dsimp only at e; rw [← e])

theorem execHalfCtlReturn_kept {s out : State} (t : Nat) (ch : Channel) (h : Half) (hr : pr.mayReset = true) (hw :
    pr.mayWrite = true) (e : execHalfCtlReturn t ch h s = .next out) : Kept tl pr s out := by
  cases e
  repeat' first
    | intro _ | assumption | exact Kept.refl _ | exact HKept.of_eq rfl rfl | with_reducible apply onChannel_kept
    | with_reducible apply writeWhole_kept | with_reducible apply advance_kept | with_reducible apply Kept.ite
    | with_reducible apply foldl_kept | dsimp -zeta only | extract_lets | split | dsimp +zetaDelta only
    | (rename_i e; have e := congrArg Prod.fst e; dsimp only at e; rw [← e])

theorem execHalfCtlHoldOut_kept {s out : State} (t : Nat) (ch : Channel) (h : Half) (hr : pr.mayReset = true) (hw :
    pr.mayWrite = true) (e : execHalfCtlHoldOut t ch h s = .next out) : Kept tl pr s out := by
  cases e
  repeat' first
    | intro _ | assumption | exact Kept.refl _ | exact HKept.of_eq rfl rfl | with_reducible apply onChannel_kept
    | with_reducible apply writeWhole_kept | with_reducible apply advance_kept | with_reducible apply Kept.ite
    | with_reducible apply foldl_kept | dsimp -zeta only | extract_lets | split | dsimp +zetaDelta only
    | (rename_i e; have e := congrArg Prod.fst e; dsimp only at e; rw [← e])

theorem execHalfCtlRestart_kept {s out : State} (t : Nat) (ch : Channel) (h : Half) (hr : pr.mayReset = true) (hw :
    pr.mayWrite = true) (e : execHalfCtlRestart t ch h s = .next out) : Kept tl pr s out := by
  cases e
  repeat' first
    | intro _ | assumption | exact Kept.refl _ | exact HKept.of_eq rfl rfl | with_reducible apply onChannel_kept
    | with_reducible apply writeWhole_kept | with_reducible apply advance_kept | with_reducible apply Kept.ite
    | with_reducible apply foldl_kept | dsimp -zeta only | extract_lets | split | dsimp +zetaDelta only
    | (rename_i e; have e := congrArg Prod.fst e; dsimp only at e; rw [← e])

theorem execHalfCtlRetire_kept {s out : State} (t : Nat) (ch : Channel) (h : Half) (hr : pr.mayReset = true) (hw :
    pr.mayWrite = true) (e : execHalfCtlRetire t ch h s = .next out) : Kept tl pr s out := by
  cases e
  repeat' first
    | intro _ | assumption | exact Kept.refl _ | exact HKept.of_eq rfl rfl | with_reducible apply onChannel_kept
    | with_reducible apply writeWhole_kept | with_reducible apply advance_kept | with_reducible apply Kept.ite
    | with_reducible apply foldl_kept | dsimp -zeta only | extract_lets | split | dsimp +zetaDelta only
    | (rename_i e; have e := congrArg Prod.fst e; dsimp only at e; rw [← e])

theorem execDerateClear_kept {s out : State} (t : Nat) (ch : Channel) (h : Half) (mask : BitVec 64) (hr :
    pr.mayReset = true) (hw : pr.mayWrite = true) (e : execDerateClear t ch h mask s = .next out) : Kept tl pr s out
    := by
  cases e
  repeat' first
    | intro _ | assumption | exact Kept.refl _ | exact HKept.of_eq rfl rfl | with_reducible apply onChannel_kept
    | with_reducible apply writeWhole_kept | with_reducible apply advance_kept | with_reducible apply Kept.ite
    | with_reducible apply foldl_kept | dsimp -zeta only | extract_lets | split | dsimp +zetaDelta only
    | (rename_i e; have e := congrArg Prod.fst e; dsimp only at e; rw [← e])

theorem execShutdownBist_kept {s out : State} (t : Nat) (ch : Channel) (vinMv : Nat × Nat) (refPpm : Nat × Nat) (hr
    : pr.mayReset = true) (hw : pr.mayWrite = true) (e : execShutdownBist t ch vinMv refPpm s = .next out) : Kept tl
    pr s out := by
  cases e
  repeat' first
    | intro _ | assumption | exact Kept.refl _ | exact HKept.of_eq rfl rfl | with_reducible apply powerCtl_kept
    | with_reducible apply writeBy_kept | with_reducible apply onChannel_kept | with_reducible apply writeOnce_kept
    | with_reducible apply advance_kept | with_reducible apply Kept.ite | with_reducible apply foldl_kept
    | dsimp -zeta only | extract_lets | split | dsimp +zetaDelta only
    | (rename_i e; have e := congrArg Prod.fst e; dsimp only at e; rw [← e])

theorem execShutdown_kept {s out : State} (t : Nat) (ch : Channel) (hr : pr.mayReset = true) (hw : pr.mayWrite =
    true) (e : execShutdown t ch s = .next out) : Kept tl pr s out := by
  cases e
  repeat' first
    | intro _ | assumption | exact Kept.refl _ | exact HKept.of_eq rfl rfl | with_reducible apply onChannel_kept
    | with_reducible apply writeWhole_kept | with_reducible apply advance_kept | with_reducible apply Kept.ite
    | with_reducible apply foldl_kept | dsimp -zeta only | extract_lets | split | dsimp +zetaDelta only
    | (rename_i e; have e := congrArg Prod.fst e; dsimp only at e; rw [← e])

theorem execRestart_kept {s out : State} (t : Nat) (ch : Channel) (hr : pr.mayReset = true) (hw : pr.mayWrite =
    true) (e : execRestart t ch s = .next out) : Kept tl pr s out := by
  cases e
  repeat' first
    | intro _ | assumption | exact Kept.refl _ | exact HKept.of_eq rfl rfl | with_reducible apply onChannel_kept
    | with_reducible apply writeWhole_kept | with_reducible apply advance_kept | with_reducible apply Kept.ite
    | with_reducible apply foldl_kept | dsimp -zeta only | extract_lets | split | dsimp +zetaDelta only
    | (rename_i e; have e := congrArg Prod.fst e; dsimp only at e; rw [← e])

theorem execOpenSession_kept {s out : State} (t : Nat) (ch : Channel) (h : Half) (hr : pr.mayReset = true) (hw :
    pr.mayWrite = true) (e : execOpenSession t ch h s = .next out) : Kept tl pr s out := by
  cases e
  repeat' first
    | intro _ | assumption | exact Kept.refl _ | exact HKept.of_eq rfl rfl | with_reducible apply onChannel_kept
    | with_reducible apply writeWhole_kept | with_reducible apply advance_kept | with_reducible apply Kept.ite
    | with_reducible apply foldl_kept | dsimp -zeta only | extract_lets | split | dsimp +zetaDelta only
    | (rename_i e; have e := congrArg Prod.fst e; dsimp only at e; rw [← e])

theorem execCommit_kept {s out : State} (t : Nat) (ch : Channel) (h : Half) (hr : pr.mayReset = true) (hw :
    pr.mayWrite = true) (e : execCommit t ch h s = .next out) : Kept tl pr s out := by
  cases e
  repeat' first
    | intro _ | assumption | exact Kept.refl _ | exact HKept.of_eq rfl rfl | with_reducible apply onChannel_kept
    | with_reducible apply writeWhole_kept | with_reducible apply advance_kept | with_reducible apply Kept.ite
    | with_reducible apply foldl_kept | dsimp -zeta only | extract_lets | split | dsimp +zetaDelta only
    | (rename_i e; have e := congrArg Prod.fst e; dsimp only at e; rw [← e])

theorem execDiscard_kept {s out : State} (t : Nat) (ch : Channel) (h : Half) (hr : pr.mayReset = true) (hw :
    pr.mayWrite = true) (e : execDiscard t ch h s = .next out) : Kept tl pr s out := by
  cases e
  repeat' first
    | intro _ | assumption | exact Kept.refl _ | exact HKept.of_eq rfl rfl | with_reducible apply onChannel_kept
    | with_reducible apply writeWhole_kept | with_reducible apply advance_kept | with_reducible apply Kept.ite
    | with_reducible apply foldl_kept | dsimp -zeta only | extract_lets | split | dsimp +zetaDelta only
    | (rename_i e; have e := congrArg Prod.fst e; dsimp only at e; rw [← e])

theorem execArm_kept {s out : State} (t : Nat) (ch : Channel) (h : Half) (hr : pr.mayReset = true) (hw : pr.mayWrite
    = true) (e : execArm t ch h s = .next out) : Kept tl pr s out := by
  cases e
  repeat' first
    | intro _ | assumption | exact Kept.refl _ | exact HKept.of_eq rfl rfl | with_reducible apply onChannel_kept
    | with_reducible apply writeWhole_kept | with_reducible apply advance_kept | with_reducible apply Kept.ite
    | with_reducible apply foldl_kept | dsimp -zeta only | extract_lets | split | dsimp +zetaDelta only
    | (rename_i e; have e := congrArg Prod.fst e; dsimp only at e; rw [← e])

theorem execDisarm_kept {s out : State} (t : Nat) (ch : Channel) (h : Half) (hr : pr.mayReset = true) (hw :
    pr.mayWrite = true) (e : execDisarm t ch h s = .next out) : Kept tl pr s out := by
  cases e
  repeat' first
    | intro _ | assumption | exact Kept.refl _ | exact HKept.of_eq rfl rfl | with_reducible apply onChannel_kept
    | with_reducible apply writeWhole_kept | with_reducible apply advance_kept | with_reducible apply Kept.ite
    | with_reducible apply foldl_kept | dsimp -zeta only | extract_lets | split | dsimp +zetaDelta only
    | (rename_i e; have e := congrArg Prod.fst e; dsimp only at e; rw [← e])

theorem execClear_kept {s out : State} (t : Nat) (ch : Channel) (h : Half) (ctx : Nat) (hr : pr.mayReset = true) (hw
    : pr.mayWrite = true) (e : execClear t ch h ctx s = .next out) : Kept tl pr s out := by
  cases e
  repeat' first
    | intro _ | assumption | exact Kept.refl _ | exact HKept.of_eq rfl rfl | with_reducible apply onChannel_kept
    | with_reducible apply writeWhole_kept | with_reducible apply advance_kept | with_reducible apply Kept.ite
    | with_reducible apply foldl_kept | dsimp -zeta only | extract_lets | split | dsimp +zetaDelta only
    | (rename_i e; have e := congrArg Prod.fst e; dsimp only at e; rw [← e])

theorem execRollbackCommit_kept {s out : State} (t : Nat) (ch : Channel) (type : Nat) (hr : pr.mayReset = true) (hw
    : pr.mayWrite = true) (e : execRollbackCommit t ch type s = .next out) : Kept tl pr s out := by
  cases e
  repeat' first
    | intro _ | assumption | exact Kept.refl _ | exact HKept.of_eq rfl rfl | with_reducible apply onChannel_kept
    | with_reducible apply writeWhole_kept | with_reducible apply advance_kept | with_reducible apply Kept.ite
    | with_reducible apply foldl_kept | dsimp -zeta only | extract_lets | split | dsimp +zetaDelta only
    | (rename_i e; have e := congrArg Prod.fst e; dsimp only at e; rw [← e])

theorem execKeyProgram_kept {s out : State} (t : Nat) (ch : Channel) (slot : Nat) (hash : List Byte) (hr :
    pr.mayReset = true) (hw : pr.mayWrite = true) (e : execKeyProgram t ch slot hash s = .next out) : Kept tl pr s
    out := by
  cases e
  repeat' first
    | intro _ | assumption | exact Kept.refl _ | exact HKept.of_eq rfl rfl | with_reducible apply onChannel_kept
    | with_reducible apply writeWhole_kept | with_reducible apply advance_kept | with_reducible apply Kept.ite
    | with_reducible apply foldl_kept | dsimp -zeta only | extract_lets | split | dsimp +zetaDelta only
    | (rename_i e; have e := congrArg Prod.fst e; dsimp only at e; rw [← e])

theorem execRevokeKey_kept {s out : State} (t : Nat) (ch : Channel) (slot : Nat) (hr : pr.mayReset = true) (hw :
    pr.mayWrite = true) (e : execRevokeKey t ch slot s = .next out) : Kept tl pr s out := by
  cases e
  repeat' first
    | intro _ | assumption | exact Kept.refl _ | exact HKept.of_eq rfl rfl | with_reducible apply onChannel_kept
    | with_reducible apply writeWhole_kept | with_reducible apply advance_kept | with_reducible apply Kept.ite
    | with_reducible apply foldl_kept | dsimp -zeta only | extract_lets | split | dsimp +zetaDelta only
    | (rename_i e; have e := congrArg Prod.fst e; dsimp only at e; rw [← e])

theorem execAttestNonce_kept {s out : State} (t : Nat) (ch : Channel) (nonce : List Byte) (hr : pr.mayReset = true)
    (hw : pr.mayWrite = true) (e : execAttestNonce t ch nonce s = .next out) : Kept tl pr s out := by
  cases e
  repeat' first
    | intro _ | assumption | exact Kept.refl _ | exact HKept.of_eq rfl rfl | with_reducible apply onChannel_kept
    | with_reducible apply writeWhole_kept | with_reducible apply advance_kept | with_reducible apply Kept.ite
    | with_reducible apply foldl_kept | dsimp -zeta only | extract_lets | split | dsimp +zetaDelta only
    | (rename_i e; have e := congrArg Prod.fst e; dsimp only at e; rw [← e])

theorem execUpdateImage_kept {s out : State} (t : Nat) (ch : Channel) (image : List Byte) (hr : pr.mayReset = true)
    (hw : pr.mayWrite = true) (e : execUpdateImage t ch image s = .next out) : Kept tl pr s out := by
  cases e
  repeat' first
    | intro _ | assumption | exact Kept.refl _ | exact HKept.of_eq rfl rfl | with_reducible apply onChannel_kept
    | with_reducible apply writeWhole_kept | with_reducible apply advance_kept | with_reducible apply Kept.ite
    | with_reducible apply foldl_kept | dsimp -zeta only | extract_lets | split | dsimp +zetaDelta only
    | (rename_i e; have e := congrArg Prod.fst e; dsimp only at e; rw [← e])

/-! ### Scrub -/

theorem hostRefuse_kept {t0 s : State} (h : Half) (addr : Nat) (z0 : HostAccess) (kp : Kept tl pr t0 s) :
    Kept tl pr t0 (State.hostRefuse s h addr z0) := by
  unfold State.hostRefuse
  repeat' first
    | intro _ | assumption | exact Kept.refl _ | exact HKept.of_eq rfl rfl | with_reducible apply logUnlisted_kept
    | with_reducible apply log_kept | with_reducible apply Kept.ite | with_reducible apply foldl_kept | dsimp -zeta only
    | extract_lets | split | dsimp +zetaDelta only
    | (rename_i e; have e := congrArg Prod.fst e; dsimp only at e; rw [← e])

theorem hostUse_kept {t0 s : State} (r : Region) (kp : Kept tl pr t0 s) :
    Kept tl pr t0 (State.hostUse s r) := by
  unfold State.hostUse
  repeat' first
    | intro _ | assumption | exact Kept.refl _ | exact HKept.of_eq rfl rfl | with_reducible apply portUse_kept
    | with_reducible apply Kept.ite | with_reducible apply foldl_kept | dsimp -zeta only | extract_lets | split
    | dsimp +zetaDelta only | (rename_i e; have e := congrArg Prod.fst e; dsimp only at e; rw [← e])

theorem hostStore_kept {t0 s : State} (h : Half) (secure : Bool) (addr : Nat) (data : List Byte) (kp : Kept tl pr t0
    s) :
    Kept tl pr t0 (State.hostStore s h secure addr data).1 := by
  unfold State.hostStore
  repeat' first
    | intro _ | assumption | exact Kept.refl _ | exact HKept.of_eq rfl rfl | with_reducible apply hold_kept
    | with_reducible apply hostRefuse_kept | with_reducible apply hostUse_kept | with_reducible apply writeBytes_kept
    | with_reducible apply Kept.ite | with_reducible apply foldl_kept | dsimp -zeta only | extract_lets | split
    | dsimp +zetaDelta only | (rename_i e; have e := congrArg Prod.fst e; dsimp only at e; rw [← e])

theorem hostLoad_kept {t0 s : State} (h : Half) (secure : Bool) (addr : Nat) (len : Nat) (kp : Kept tl pr t0 s) :
    Kept tl pr t0 (State.hostLoad s h secure addr len).1 := by
  unfold State.hostLoad
  repeat' first
    | intro _ | assumption | exact Kept.refl _ | exact HKept.of_eq rfl rfl | with_reducible apply hostRefuse_kept
    | with_reducible apply hostUse_kept | with_reducible apply Kept.ite | with_reducible apply foldl_kept
    | dsimp -zeta only | extract_lets | split | dsimp +zetaDelta only
    | (rename_i e; have e := congrArg Prod.fst e; dsimp only at e; rw [← e])

theorem goOn_kept {t0 s : State} (h : Half) (z0 : HeldWrite) (kp : Kept tl pr t0 s) :
    Kept tl pr t0 (State.goOn s h z0) := by
  unfold State.goOn
  repeat' first
    | intro _ | assumption | exact Kept.refl _ | exact HKept.of_eq rfl rfl | with_reducible apply rowArrives_kept
    | with_reducible apply leaderArrives_kept | with_reducible apply hostStore_kept | with_reducible apply Kept.ite
    | with_reducible apply foldl_kept | dsimp -zeta only | extract_lets | split | dsimp +zetaDelta only
    | (rename_i e; have e := congrArg Prod.fst e; dsimp only at e; rw [← e])

theorem freeHeld_kept {t0 s : State} (h : Half) (kp : Kept tl pr t0 s) :
    Kept tl pr t0 (State.freeHeld s h) := by
  unfold State.freeHeld
  repeat' first
    | intro _ | assumption | exact Kept.refl _ | exact HKept.of_eq rfl rfl | with_reducible apply goOn_kept
    | with_reducible apply modDolly_kept | with_reducible apply Kept.ite | with_reducible apply foldl_kept
    | dsimp -zeta only | extract_lets | split | dsimp +zetaDelta only
    | (rename_i e; have e := congrArg Prod.fst e; dsimp only at e; rw [← e])

theorem execTokenBucketRefill_kept {s out : State} (t : Nat) (h : Half) (ns : Nat) (e : execTokenBucketRefill t h ns
    s = .next out) : Kept tl pr s out := by
  cases e
  repeat' first
    | intro _ | assumption | exact Kept.refl _ | exact HKept.of_eq rfl rfl | with_reducible apply freeHeld_kept
    | with_reducible apply modDolly_kept | with_reducible apply advance_kept | with_reducible apply modHbm_kept
    | with_reducible apply onLive_kept | with_reducible apply Kept.ite | with_reducible apply foldl_kept
    | dsimp -zeta only | extract_lets | split | dsimp +zetaDelta only
    | (rename_i e; have e := congrArg Prod.fst e; dsimp only at e; rw [← e])

theorem execScrubDone_kept {s out : State} (t : Nat) (h : Half) (bank : Nat) (e : execScrubDone t h bank s = .next
    out) : Kept tl pr s out := by
  cases e
  repeat' first
    | intro _ | assumption | exact Kept.refl _ | exact HKept.of_eq rfl rfl | with_reducible apply drain_kept
    | with_reducible apply freeHeld_kept | with_reducible apply modBank_kept | with_reducible apply advance_kept
    | with_reducible apply zeroBank_kept | with_reducible apply onHalf_kept | with_reducible apply Kept.ite
    | with_reducible apply foldl_kept | dsimp -zeta only | extract_lets | split | dsimp +zetaDelta only
    | (rename_i e; have e := congrArg Prod.fst e; dsimp only at e; rw [← e])

/-! ### HostAccess -/

theorem rawRequest_kept {t0 s : State} (ch : Channel) (l : List Byte) (kp : Kept tl pr t0 s) (hr : pr.mayReset =
    true) (hw : pr.mayWrite = true) :
    Kept tl pr t0 (State.rawRequest s ch l) := by
  unfold State.rawRequest
  repeat' first
    | intro _ | assumption | exact Kept.refl _ | exact HKept.of_eq rfl rfl | with_reducible apply request_kept
    | with_reducible apply Kept.ite | with_reducible apply foldl_kept | dsimp -zeta only | extract_lets | split
    | dsimp +zetaDelta only | (rename_i e; have e := congrArg Prod.fst e; dsimp only at e; rw [← e])

/-! ### CanBus -/

theorem execCanRequest_kept {s out : State} (t : Nat) (h : Half) (id : Nat) (fd : Bool) (data : List Byte) (hr :
    pr.mayReset = true) (hw : pr.mayWrite = true) (e : execCanRequest t h id fd data s = .next out) : Kept tl pr s
    out := by
  cases e
  repeat' first
    | intro _ | assumption | exact Kept.refl _ | exact HKept.of_eq rfl rfl | with_reducible apply onChannel_kept
    | with_reducible apply rawRequest_kept | with_reducible apply advance_kept | with_reducible apply Kept.ite
    | with_reducible apply foldl_kept | dsimp -zeta only | extract_lets | split | dsimp +zetaDelta only
    | (rename_i e; have e := congrArg Prod.fst e; dsimp only at e; rw [← e])

theorem execEmcySend_kept {s out : State} (t : Nat) (h : Half) (e : execEmcySend t h s = .next out) : Kept tl pr s
    out := by
  cases e
  repeat' first
    | intro _ | assumption | exact Kept.refl _ | exact HKept.of_eq rfl rfl | with_reducible apply canSend_kept
    | with_reducible apply onChannel_kept | with_reducible apply modCan_kept | with_reducible apply advance_kept
    | with_reducible apply Kept.ite | with_reducible apply foldl_kept | dsimp -zeta only | extract_lets | split
    | dsimp +zetaDelta only | (rename_i e; have e := congrArg Prod.fst e; dsimp only at e; rw [← e])

theorem execBusOff_kept {s out : State} (t : Nat) (h : Half) (e : execBusOff t h s = .next out) : Kept tl pr s out := by
  cases e
  repeat' first
    | intro _ | assumption | exact Kept.refl _ | exact HKept.of_eq rfl rfl | with_reducible apply onChannel_kept
    | with_reducible apply modCan_kept | with_reducible apply advance_kept | with_reducible apply Kept.ite
    | with_reducible apply foldl_kept | dsimp -zeta only | extract_lets | split | dsimp +zetaDelta only
    | (rename_i e; have e := congrArg Prod.fst e; dsimp only at e; rw [← e])

theorem execBusOffRecovery_kept {s out : State} (t : Nat) (h : Half) (e : execBusOffRecovery t h s = .next out) :
    Kept tl pr s out := by
  cases e
  repeat' first
    | intro _ | assumption | exact Kept.refl _ | exact HKept.of_eq rfl rfl | with_reducible apply modCan_kept
    | with_reducible apply advance_kept | with_reducible apply onHalf_kept | with_reducible apply Kept.ite
    | with_reducible apply foldl_kept | dsimp -zeta only | extract_lets | split | dsimp +zetaDelta only
    | (rename_i e; have e := congrArg Prod.fst e; dsimp only at e; rw [← e])

theorem execCanRejoin_kept {s out : State} (t : Nat) (h : Half) (e : execCanRejoin t h s = .next out) : Kept tl pr s
    out := by
  cases e
  repeat' first
    | intro _ | assumption | exact Kept.refl _ | exact HKept.of_eq rfl rfl | with_reducible apply settleSession_kept
    | with_reducible apply modCan_kept | with_reducible apply advance_kept | with_reducible apply onHalf_kept
    | with_reducible apply Kept.ite | with_reducible apply foldl_kept | dsimp -zeta only | extract_lets | split
    | dsimp +zetaDelta only | (rename_i e; have e := congrArg Prod.fst e; dsimp only at e; rw [← e])

/-! ### Lines -/

theorem execFrameStart_kept {s out : State} (t : Nat) (h : Half) (port : Nat) (vc : Nat) (corrected : Bool) (e :
    execFrameStart t h port vc corrected s = .next out) : Kept tl pr s out := by
  cases e
  repeat' first
    | intro _ | assumption | exact Kept.refl _ | exact HKept.of_eq rfl rfl | with_reducible apply discard_kept
    | with_reducible apply headerCount_kept | with_reducible apply settleSession_kept
    | with_reducible apply modStream_kept | with_reducible apply modHzn_kept | with_reducible apply advance_kept
    | with_reducible apply onLive_kept | with_reducible apply Kept.ite | with_reducible apply foldl_kept
    | dsimp -zeta only | extract_lets | split | dsimp +zetaDelta only
    | (rename_i e; have e := congrArg Prod.fst e; dsimp only at e; rw [← e])

theorem releaseAgain_kept {t0 s : State} (h : Half) (kp : Kept tl pr t0 s) :
    Kept tl pr t0 (State.releaseAgain s h) := by
  unfold State.releaseAgain
  repeat' first
    | intro _ | assumption | exact Kept.refl _ | exact HKept.of_eq rfl rfl | with_reducible apply release_kept
    | with_reducible apply Kept.ite | with_reducible apply foldl_kept | dsimp -zeta only | extract_lets | split
    | dsimp +zetaDelta only | (rename_i e; have e := congrArg Prod.fst e; dsimp only at e; rw [← e])

theorem checkFloors_kept {t0 s : State} (h : Half) (kp : Kept tl pr t0 s) :
    Kept tl pr t0 (State.checkFloors s h) := by
  unfold State.checkFloors
  repeat' first
    | intro _ | assumption | exact Kept.refl _ | exact HKept.of_eq rfl rfl | with_reducible apply derateBelowFloor_kept
    | with_reducible apply Kept.ite | with_reducible apply foldl_kept | dsimp -zeta only | extract_lets | split
    | dsimp +zetaDelta only | (rename_i e; have e := congrArg Prod.fst e; dsimp only at e; rw [← e])

theorem periodBoundary_kept {t0 s : State} (h : Half) (kp : Kept tl pr t0 s) :
    Kept tl pr t0 (State.periodBoundary s h) := by
  unfold State.periodBoundary
  repeat' first
    | intro _ | assumption | exact Kept.refl _ | exact HKept.of_eq rfl rfl | with_reducible apply armSheets_kept
    | with_reducible apply disarmSheets_kept | with_reducible apply refuseArming_kept
    | with_reducible apply releaseAgain_kept | with_reducible apply checkFloors_kept | with_reducible apply Kept.ite
    | with_reducible apply foldl_kept | dsimp -zeta only | extract_lets | split | dsimp +zetaDelta only
    | (rename_i e; have e := congrArg Prod.fst e; dsimp only at e; rw [← e])

theorem returnBoundary_kept {t0 s : State} (h : Half) (kp : Kept tl pr t0 s) :
    Kept tl pr t0 (State.returnBoundary s h) := by
  unfold State.returnBoundary
  repeat' first
    | intro _ | assumption | exact Kept.refl _ | exact HKept.of_eq rfl rfl | with_reducible apply switchSheets_kept
    | with_reducible apply returnHalf_kept | with_reducible apply checkFloors_kept | with_reducible apply modIsl_kept
    | with_reducible apply Kept.ite | with_reducible apply foldl_kept | dsimp -zeta only | extract_lets | split
    | dsimp +zetaDelta only | (rename_i e; have e := congrArg Prod.fst e; dsimp only at e; rw [← e])

theorem degradedSwitch_kept {t0 s : State} (h : Half) (kp : Kept tl pr t0 s) :
    Kept tl pr t0 (State.degradedSwitch s h) := by
  unfold State.degradedSwitch
  repeat' first
    | intro _ | assumption | exact Kept.refl _ | exact HKept.of_eq rfl rfl | with_reducible apply log_kept
    | with_reducible apply switchSheets_kept | with_reducible apply checkFloors_kept | with_reducible apply modIsl_kept
    | with_reducible apply Kept.ite | with_reducible apply foldl_kept | dsimp -zeta only | extract_lets | split
    | dsimp +zetaDelta only | (rename_i e; have e := congrArg Prod.fst e; dsimp only at e; rw [← e])

theorem shutdownBoundary_kept {t0 s : State} (h : Half) (kp : Kept tl pr t0 s) :
    Kept tl pr t0 (State.shutdownBoundary s h) := by
  unfold State.shutdownBoundary
  repeat' first
    | intro _ | assumption | exact Kept.refl _ | exact HKept.of_eq rfl rfl | with_reducible apply disarmSheets_kept
    | with_reducible apply regsOff_kept | with_reducible apply modDisp_kept | with_reducible apply modZen_kept
    | with_reducible apply Kept.ite | with_reducible apply foldl_kept | dsimp -zeta only | extract_lets | split
    | dsimp +zetaDelta only | (rename_i e; have e := congrArg Prod.fst e; dsimp only at e; rw [← e])

theorem slotBoundary_kept {t0 s : State} (h : Half) (kp : Kept tl pr t0 s) (hr : pr.mayReset = true)
    (hw : pr.mayWrite = true) : Kept tl pr t0 (s.slotBoundary h) := by
  unfold State.slotBoundary
  extract_lets s1 s2
  have k : Kept tl pr t0 s2 := releaseSession_kept _ (sendAllWaiting_kept _
    (modHalf_kept _ _ kp (apply_hkept _ _ hw rfl rfl))) hr hw
  exact .ite (shutdownBoundary_kept _ (degradedSwitch_kept _ k)) k

theorem periodicReleases_kept {t0 s : State} (h : Half) (kp : Kept tl pr t0 s) :
    Kept tl pr t0 (State.periodicReleases s h) := by
  unfold State.periodicReleases
  repeat' first
    | intro _ | assumption | exact Kept.refl _ | exact HKept.of_eq rfl rfl | with_reducible apply release_kept
    | with_reducible apply Kept.ite | with_reducible apply foldl_kept | dsimp -zeta only | extract_lets | split
    | dsimp +zetaDelta only | (rename_i e; have e := congrArg Prod.fst e; dsimp only at e; rw [← e])

theorem fsyncLine_kept {t0 s : State} (h : Half) (kp : Kept tl pr t0 s) :
    Kept tl pr t0 (State.fsyncLine s h) := by
  unfold State.fsyncLine
  repeat' first
    | intro _ | assumption | exact Kept.refl _ | exact HKept.of_eq rfl rfl | with_reducible apply modHzn_kept
    | with_reducible apply Kept.ite | with_reducible apply foldl_kept | dsimp -zeta only | extract_lets | split
    | dsimp +zetaDelta only | (rename_i e; have e := congrArg Prod.fst e; dsimp only at e; rw [← e])

theorem watchTally_kept {t0 s : State} (kp : Kept tl pr t0 s) : Kept tl pr t0 s.watchTally := by
  unfold State.watchTally
  split
  · exact kp
  · extract_lets lid state count s1 s2 s3
    have k1 : Kept tl pr t0 s1 := .ite kp (log_kept _ _ kp)
    have k2 : Kept tl pr t0 s2 := .ite (log_kept _ _ k1) k1
    have k3 : Kept tl pr t0 s3 := .ite (log_kept _ _ k2) k2
    change Kept tl pr t0 { s3 with
      tally := { s3.tally with islSeal := lid, islState := state, islCount := max s.tally.islCount count } }
    generalize s3 = s4 at k3
    exact k3.trans ⟨rfl, rfl, rfl, rfl, Nat.le_refl _, id, id, fun h => by cases h <;> exact .refl _ _, fun _ => rfl⟩

theorem lineZero_kept {t0 s : State} (h : Half) (kp : Kept tl pr t0 s) :
    Kept tl pr t0 (State.lineZero s h) := by
  unfold State.lineZero
  repeat' first
    | intro _ | assumption | exact Kept.refl _ | exact HKept.of_eq rfl rfl | with_reducible apply periodBoundary_kept
    | with_reducible apply returnBoundary_kept | with_reducible apply watchTally_kept | with_reducible apply modHzn_kept
    | with_reducible apply Kept.ite | with_reducible apply foldl_kept | dsimp -zeta only | extract_lets | split
    | dsimp +zetaDelta only | (rename_i e; have e := congrArg Prod.fst e; dsimp only at e; rw [← e])

theorem sheetLine_kept {t0 s : State} (h : Half) (kp : Kept tl pr t0 s) (hr : pr.mayReset = true) (hw : pr.mayWrite
    = true) :
    Kept tl pr t0 (State.sheetLine s h) := by
  unfold State.sheetLine
  repeat' first
    | intro _ | assumption | exact Kept.refl _ | exact HKept.of_eq rfl rfl | with_reducible apply dispatchWith_kept
    | with_reducible apply leaders_kept | with_reducible apply forecastLine_kept | with_reducible apply cutSlices_kept
    | with_reducible apply settleSession_kept | with_reducible apply slotBoundary_kept
    | with_reducible apply periodicReleases_kept | with_reducible apply fsyncLine_kept
    | with_reducible apply lineZero_kept | with_reducible apply modHzn_kept | with_reducible apply Kept.ite
    | with_reducible apply foldl_kept | dsimp -zeta only | extract_lets | split | dsimp +zetaDelta only
    | (rename_i e; have e := congrArg Prod.fst e; dsimp only at e; rw [← e])

theorem execSheetLine_kept {s out : State} (t : Nat) (h : Half) (hr : pr.mayReset = true) (hw : pr.mayWrite = true)
    (e : execSheetLine t h s = .next out) : Kept tl pr s out := by
  cases e
  repeat' first
    | intro _ | assumption | exact Kept.refl _ | exact HKept.of_eq rfl rfl | with_reducible apply sheetLine_kept
    | with_reducible apply advance_kept | with_reducible apply onLive_kept | with_reducible apply Kept.ite
    | with_reducible apply foldl_kept | dsimp -zeta only | extract_lets | split | dsimp +zetaDelta only
    | (rename_i e; have e := congrArg Prod.fst e; dsimp only at e; rw [← e])

/-! ### PcieLink -/

theorem onLink_kept {t0 s : State} (h : Half) (f : State → State) (kp : Kept tl pr t0 s) (hf : ∀ t, Kept tl pr t0 t
    → Kept tl pr t0 (f t)) :
    Kept tl pr t0 (onLink s h f) := by
  unfold onLink
  repeat' first
    | intro _ | assumption | exact Kept.refl _ | exact HKept.of_eq rfl rfl | with_reducible apply onLive_kept
    | with_reducible apply hf | with_reducible apply Kept.ite | with_reducible apply foldl_kept | dsimp -zeta only
    | extract_lets | split | dsimp +zetaDelta only
    | (rename_i e; have e := congrArg Prod.fst e; dsimp only at e; rw [← e])

theorem flushRings_kept {t0 s : State} (h : Half) (kp : Kept tl pr t0 s) :
    Kept tl pr t0 (State.flushRings s h) := by
  unfold State.flushRings
  repeat' first
    | intro _ | assumption | exact Kept.refl _ | exact HKept.of_eq rfl rfl | with_reducible apply putOverflow_kept
    | with_reducible apply Kept.ite | with_reducible apply foldl_kept | dsimp -zeta only | extract_lets | split
    | dsimp +zetaDelta only | (rename_i e; have e := congrArg Prod.fst e; dsimp only at e; rw [← e])

theorem execPciePerst_kept {s out : State} (t : Nat) (pin : PerstPin) (e : execPciePerst t pin s = .next out) : Kept
    tl pr s out := by
  cases e
  repeat' first
    | intro _ | assumption | exact Kept.refl _ | exact HKept.of_eq rfl rfl | with_reducible apply modPcie_kept
    | with_reducible apply advance_kept | with_reducible apply onHalf_kept | with_reducible apply Kept.ite
    | with_reducible apply foldl_kept | dsimp -zeta only | extract_lets | split | dsimp +zetaDelta only
    | (rename_i e; have e := congrArg Prod.fst e; dsimp only at e; rw [← e])

theorem execLinkUp_kept {s out : State} (t : Nat) (h : Half) (speed : Nat) (width : Nat) (e : execLinkUp t h speed
    width s = .next out) : Kept tl pr s out := by
  cases e
  repeat' first
    | intro _ | assumption | exact Kept.refl _ | exact HKept.of_eq rfl rfl | with_reducible apply flushRings_kept
    | with_reducible apply modPcie_kept | with_reducible apply modBoot_kept | with_reducible apply advance_kept
    | with_reducible apply onLive_kept | exact Burnt.of_eq rfl rfl rfl rfl
    | exact HKept.of_prot (.of_eq rfl rfl rfl rfl) rfl | with_reducible apply Kept.ite | with_reducible apply foldl_kept
    | dsimp -zeta only | extract_lets | split | dsimp +zetaDelta only
    | (rename_i e; have e := congrArg Prod.fst e; dsimp only at e; rw [← e])

theorem execHotReset_kept {s out : State} (t : Nat) (h : Half) (e : execHotReset t h s = .next out) : Kept tl pr s
    out := by
  cases e
  repeat' first
    | intro _ | assumption | exact Kept.refl _ | exact HKept.of_eq rfl rfl | with_reducible apply modPcie_kept
    | with_reducible apply advance_kept | with_reducible apply onHalf_kept | with_reducible apply Kept.ite
    | with_reducible apply foldl_kept | dsimp -zeta only | extract_lets | split | dsimp +zetaDelta only
    | (rename_i e; have e := congrArg Prod.fst e; dsimp only at e; rw [← e])

theorem execBar0Write_kept {s out : State} (t : Nat) (h : Half) (offset : Nat) (l : List Byte)
    (e : execBar0Write t h offset l s = .next out) : Kept tl pr s out := by
  cases e
  repeat' first
    | intro _ | assumption | exact Kept.refl _ | with_reducible apply advance_kept | with_reducible apply onLink_kept
    | with_reducible apply onLive_kept | with_reducible apply log_kept | with_reducible apply logUnlisted_kept
    | with_reducible apply modPcie_kept | split

theorem execBar2Write_kept {s out : State} (t : Nat) (h : Half) (offset : Nat) (data : List Byte) (e : execBar2Write
    t h offset data s = .next out) : Kept tl pr s out := by
  cases e
  repeat' first
    | intro _ | assumption | exact Kept.refl _ | exact HKept.of_eq rfl rfl | with_reducible apply hostRefuse_kept
    | with_reducible apply hostStore_kept | with_reducible apply onLink_kept | with_reducible apply advance_kept
    | with_reducible apply Kept.ite | with_reducible apply foldl_kept | dsimp -zeta only | extract_lets | split
    | dsimp +zetaDelta only | (rename_i e; have e := congrArg Prod.fst e; dsimp only at e; rw [← e])

theorem completerAbort_kept {t0 s : State} (h : Half) (offset : Nat) (kp : Kept tl pr t0 s) :
    Kept tl pr t0 (State.completerAbort s h offset) := by
  unfold State.completerAbort
  repeat' first
    | intro _ | assumption | exact Kept.refl _ | exact HKept.of_eq rfl rfl | with_reducible apply logUnlisted_kept
    | with_reducible apply modPcie_kept | with_reducible apply Kept.ite | with_reducible apply foldl_kept
    | dsimp -zeta only | extract_lets | split | dsimp +zetaDelta only
    | (rename_i e; have e := congrArg Prod.fst e; dsimp only at e; rw [← e])

theorem execBar2Read_kept {s out : State} (t : Nat) (h : Half) (offset : Nat) (len : Nat) (e : execBar2Read t h
    offset len s = .next out) : Kept tl pr s out := by
  cases e
  repeat' first
    | intro _ | assumption | exact Kept.refl _ | exact HKept.of_eq rfl rfl | with_reducible apply hostRefuse_kept
    | with_reducible apply hostLoad_kept | with_reducible apply onLink_kept | with_reducible apply completerAbort_kept
    | with_reducible apply modPcie_kept | with_reducible apply advance_kept | with_reducible apply Kept.ite
    | with_reducible apply foldl_kept | dsimp -zeta only | extract_lets | split | dsimp +zetaDelta only
    | (rename_i e; have e := congrArg Prod.fst e; dsimp only at e; rw [← e])

theorem execPcieConfigWrite_kept {s out : State} (t : Nat) (h : Half) (offset : Nat) (value : BitVec 32) (e :
    execPcieConfigWrite t h offset value s = .next out) : Kept tl pr s out := by
  cases e
  repeat' first
    | intro _ | assumption | exact Kept.refl _ | exact HKept.of_eq rfl rfl | with_reducible apply onLink_kept
    | with_reducible apply flushRings_kept | with_reducible apply modPcie_kept | with_reducible apply advance_kept
    | with_reducible apply Kept.ite | with_reducible apply foldl_kept | dsimp -zeta only | extract_lets | split
    | dsimp +zetaDelta only | (rename_i e; have e := congrArg Prod.fst e; dsimp only at e; rw [← e])

theorem execMsixTableWrite_kept {s out : State} (t : Nat) (h : Half) (offset : Nat) (data : List Byte) (e :
    execMsixTableWrite t h offset data s = .next out) : Kept tl pr s out := by
  cases e
  repeat' first
    | intro _ | assumption | exact Kept.refl _ | exact HKept.of_eq rfl rfl | with_reducible apply onLink_kept
    | with_reducible apply modPcie_kept | with_reducible apply advance_kept | with_reducible apply Kept.ite
    | with_reducible apply foldl_kept | dsimp -zeta only | extract_lets | split | dsimp +zetaDelta only
    | (rename_i e; have e := congrArg Prod.fst e; dsimp only at e; rw [← e])

/-! ### Rows -/

theorem execMmul_kept {s out : State} (t : Nat) (h : Half) (ctx : Nat) (u : Option Upset) (e : execMmul t h ctx u s
    = .next out) : Kept tl pr s out := by
  cases e
  repeat' first
    | intro _ | assumption | exact Kept.refl _ | exact HKept.of_eq rfl rfl | with_reducible apply command_kept
    | with_reducible apply advance_kept | with_reducible apply Kept.ite | with_reducible apply foldl_kept
    | dsimp -zeta only | extract_lets | split | dsimp +zetaDelta only
    | (rename_i e; have e := congrArg Prod.fst e; dsimp only at e; rw [← e])

theorem execConv_kept {s out : State} (t : Nat) (h : Half) (ctx : Nat) (u : Option Upset) (e : execConv t h ctx u s
    = .next out) : Kept tl pr s out := by
  cases e
  repeat' first
    | intro _ | assumption | exact Kept.refl _ | exact HKept.of_eq rfl rfl | with_reducible apply command_kept
    | with_reducible apply advance_kept | with_reducible apply Kept.ite | with_reducible apply foldl_kept
    | dsimp -zeta only | extract_lets | split | dsimp +zetaDelta only
    | (rename_i e; have e := congrArg Prod.fst e; dsimp only at e; rw [← e])

theorem execTconv_kept {s out : State} (t : Nat) (h : Half) (ctx : Nat) (u : Option Upset) (e : execTconv t h ctx u
    s = .next out) : Kept tl pr s out := by
  cases e
  repeat' first
    | intro _ | assumption | exact Kept.refl _ | exact HKept.of_eq rfl rfl | with_reducible apply command_kept
    | with_reducible apply advance_kept | with_reducible apply Kept.ite | with_reducible apply foldl_kept
    | dsimp -zeta only | extract_lets | split | dsimp +zetaDelta only
    | (rename_i e; have e := congrArg Prod.fst e; dsimp only at e; rw [← e])

theorem execPool_kept {s out : State} (t : Nat) (h : Half) (ctx : Nat) (e : execPool t h ctx s = .next out) : Kept
    tl pr s out := by
  cases e
  repeat' first
    | intro _ | assumption | exact Kept.refl _ | exact HKept.of_eq rfl rfl | with_reducible apply command_kept
    | with_reducible apply advance_kept | with_reducible apply Kept.ite | with_reducible apply foldl_kept
    | dsimp -zeta only | extract_lets | split | dsimp +zetaDelta only
    | (rename_i e; have e := congrArg Prod.fst e; dsimp only at e; rw [← e])

theorem execRsmp_kept {s out : State} (t : Nat) (h : Half) (ctx : Nat) (e : execRsmp t h ctx s = .next out) : Kept
    tl pr s out := by
  cases e
  repeat' first
    | intro _ | assumption | exact Kept.refl _ | exact HKept.of_eq rfl rfl | with_reducible apply command_kept
    | with_reducible apply advance_kept | with_reducible apply Kept.ite | with_reducible apply foldl_kept
    | dsimp -zeta only | extract_lets | split | dsimp +zetaDelta only
    | (rename_i e; have e := congrArg Prod.fst e; dsimp only at e; rw [← e])

theorem execEwise_kept {s out : State} (t : Nat) (h : Half) (ctx : Nat) (e : execEwise t h ctx s = .next out) : Kept
    tl pr s out := by
  cases e
  repeat' first
    | intro _ | assumption | exact Kept.refl _ | exact HKept.of_eq rfl rfl | with_reducible apply command_kept
    | with_reducible apply advance_kept | with_reducible apply Kept.ite | with_reducible apply foldl_kept
    | dsimp -zeta only | extract_lets | split | dsimp +zetaDelta only
    | (rename_i e; have e := congrArg Prod.fst e; dsimp only at e; rw [← e])

theorem execNorm_kept {s out : State} (t : Nat) (h : Half) (ctx : Nat) (e : execNorm t h ctx s = .next out) : Kept
    tl pr s out := by
  cases e
  repeat' first
    | intro _ | assumption | exact Kept.refl _ | exact HKept.of_eq rfl rfl | with_reducible apply command_kept
    | with_reducible apply advance_kept | with_reducible apply Kept.ite | with_reducible apply foldl_kept
    | dsimp -zeta only | extract_lets | split | dsimp +zetaDelta only
    | (rename_i e; have e := congrArg Prod.fst e; dsimp only at e; rw [← e])

theorem execAttn_kept {s out : State} (t : Nat) (h : Half) (ctx : Nat) (u : Option Upset) (e : execAttn t h ctx u s
    = .next out) : Kept tl pr s out := by
  cases e
  repeat' first
    | intro _ | assumption | exact Kept.refl _ | exact HKept.of_eq rfl rfl | with_reducible apply command_kept
    | with_reducible apply advance_kept | with_reducible apply Kept.ite | with_reducible apply foldl_kept
    | dsimp -zeta only | extract_lets | split | dsimp +zetaDelta only
    | (rename_i e; have e := congrArg Prod.fst e; dsimp only at e; rw [← e])

theorem execAttb_kept {s out : State} (t : Nat) (h : Half) (ctx : Nat) (u : Option Upset) (e : execAttb t h ctx u s
    = .next out) : Kept tl pr s out := by
  cases e
  repeat' first
    | intro _ | assumption | exact Kept.refl _ | exact HKept.of_eq rfl rfl | with_reducible apply command_kept
    | with_reducible apply advance_kept | with_reducible apply Kept.ite | with_reducible apply foldl_kept
    | dsimp -zeta only | extract_lets | split | dsimp +zetaDelta only
    | (rename_i e; have e := congrArg Prod.fst e; dsimp only at e; rw [← e])

theorem execTopk_kept {s out : State} (t : Nat) (h : Half) (ctx : Nat) (e : execTopk t h ctx s = .next out) : Kept
    tl pr s out := by
  cases e
  repeat' first
    | intro _ | assumption | exact Kept.refl _ | exact HKept.of_eq rfl rfl | with_reducible apply command_kept
    | with_reducible apply advance_kept | with_reducible apply Kept.ite | with_reducible apply foldl_kept
    | dsimp -zeta only | extract_lets | split | dsimp +zetaDelta only
    | (rename_i e; have e := congrArg Prod.fst e; dsimp only at e; rw [← e])

theorem execCvt_kept {s out : State} (t : Nat) (h : Half) (ctx : Nat) (e : execCvt t h ctx s = .next out) : Kept tl
    pr s out := by
  cases e
  repeat' first
    | intro _ | assumption | exact Kept.refl _ | exact HKept.of_eq rfl rfl | with_reducible apply command_kept
    | with_reducible apply advance_kept | with_reducible apply Kept.ite | with_reducible apply foldl_kept
    | dsimp -zeta only | extract_lets | split | dsimp +zetaDelta only
    | (rename_i e; have e := congrArg Prod.fst e; dsimp only at e; rw [← e])

theorem execMoveCopy_kept {s out : State} (t : Nat) (h : Half) (ctx : Nat) (e : execMoveCopy t h ctx s = .next out)
    : Kept tl pr s out := by
  cases e
  repeat' first
    | intro _ | assumption | exact Kept.refl _ | exact HKept.of_eq rfl rfl | with_reducible apply command_kept
    | with_reducible apply advance_kept | with_reducible apply Kept.ite | with_reducible apply foldl_kept
    | dsimp -zeta only | extract_lets | split | dsimp +zetaDelta only
    | (rename_i e; have e := congrArg Prod.fst e; dsimp only at e; rw [← e])

theorem execMoveHalo_kept {s out : State} (t : Nat) (h : Half) (ctx : Nat) (e : execMoveHalo t h ctx s = .next out)
    : Kept tl pr s out := by
  cases e
  repeat' first
    | intro _ | assumption | exact Kept.refl _ | exact HKept.of_eq rfl rfl | with_reducible apply command_kept
    | with_reducible apply advance_kept | with_reducible apply Kept.ite | with_reducible apply foldl_kept
    | dsimp -zeta only | extract_lets | split | dsimp +zetaDelta only
    | (rename_i e; have e := congrArg Prod.fst e; dsimp only at e; rw [← e])

theorem execMoveKvPage_kept {s out : State} (t : Nat) (h : Half) (ctx : Nat) (e : execMoveKvPage t h ctx s = .next
    out) : Kept tl pr s out := by
  cases e
  repeat' first
    | intro _ | assumption | exact Kept.refl _ | exact HKept.of_eq rfl rfl | with_reducible apply command_kept
    | with_reducible apply advance_kept | with_reducible apply Kept.ite | with_reducible apply foldl_kept
    | dsimp -zeta only | extract_lets | split | dsimp +zetaDelta only
    | (rename_i e; have e := congrArg Prod.fst e; dsimp only at e; rw [← e])

theorem execMoveAtomic_kept {s out : State} (t : Nat) (h : Half) (ctx : Nat) (e : execMoveAtomic t h ctx s = .next
    out) : Kept tl pr s out := by
  cases e
  repeat' first
    | intro _ | assumption | exact Kept.refl _ | exact HKept.of_eq rfl rfl | with_reducible apply command_kept
    | with_reducible apply advance_kept | with_reducible apply Kept.ite | with_reducible apply foldl_kept
    | dsimp -zeta only | extract_lets | split | dsimp +zetaDelta only
    | (rename_i e; have e := congrArg Prod.fst e; dsimp only at e; rw [← e])

theorem execCuew_kept {s out : State} (t : Nat) (h : Half) (ctx : Nat) (halo : Option (Nat × Nat)) (e : execCuew t h
    ctx halo s = .next out) : Kept tl pr s out := by
  cases e
  repeat' first
    | intro _ | assumption | exact Kept.refl _ | exact HKept.of_eq rfl rfl | with_reducible apply command_kept
    | with_reducible apply advance_kept | with_reducible apply Kept.ite | with_reducible apply foldl_kept
    | dsimp -zeta only | extract_lets | split | dsimp +zetaDelta only
    | (rename_i e; have e := congrArg Prod.fst e; dsimp only at e; rw [← e])

theorem execCues_kept {s out : State} (t : Nat) (h : Half) (ctx : Nat) (e : execCues t h ctx s = .next out) : Kept
    tl pr s out := by
  cases e
  repeat' first
    | intro _ | assumption | exact Kept.refl _ | exact HKept.of_eq rfl rfl | with_reducible apply command_kept
    | with_reducible apply advance_kept | with_reducible apply Kept.ite | with_reducible apply foldl_kept
    | dsimp -zeta only | extract_lets | split | dsimp +zetaDelta only
    | (rename_i e; have e := congrArg Prod.fst e; dsimp only at e; rw [← e])

theorem execFence_kept {s out : State} (t : Nat) (h : Half) (ctx : Nat) (e : execFence t h ctx s = .next out) : Kept
    tl pr s out := by
  cases e
  repeat' first
    | intro _ | assumption | exact Kept.refl _ | exact HKept.of_eq rfl rfl | with_reducible apply command_kept
    | with_reducible apply advance_kept | with_reducible apply Kept.ite | with_reducible apply foldl_kept
    | dsimp -zeta only | extract_lets | split | dsimp +zetaDelta only
    | (rename_i e; have e := congrArg Prod.fst e; dsimp only at e; rw [← e])

/-! ### SdioPort -/

theorem onSdio_kept {t0 s : State} (f : State → State) (kp : Kept tl pr t0 s) (hf : ∀ t, Kept tl pr t0 t → Kept tl
    pr t0 (f t)) :
    Kept tl pr t0 (onSdio s f) := by
  unfold onSdio
  repeat' first
    | intro _ | assumption | exact Kept.refl _ | exact HKept.of_eq rfl rfl | with_reducible apply hf
    | with_reducible apply Kept.ite | with_reducible apply foldl_kept | dsimp -zeta only | extract_lets | split
    | dsimp +zetaDelta only | (rename_i e; have e := congrArg Prod.fst e; dsimp only at e; rw [← e])

theorem modSdio_kept {t0 s : State} (f : Sdio → Sdio) (kp : Kept tl pr t0 s) :
    Kept tl pr t0 (State.modSdio s f) := by
  unfold State.modSdio
  repeat' first
    | intro _ | assumption | exact Kept.refl _ | exact HKept.of_eq rfl rfl | with_reducible apply Kept.ite
    | with_reducible apply foldl_kept | dsimp -zeta only | extract_lets | split | dsimp +zetaDelta only
    | (rename_i e; have e := congrArg Prod.fst e; dsimp only at e; rw [← e]) | with_reducible apply set_sdio_kept

theorem execCmd0_kept {s out : State} (t : Nat) (e : execCmd0 t s = .next out) : Kept tl pr s out := by
  cases e
  repeat' first
    | intro _ | assumption | exact Kept.refl _ | exact HKept.of_eq rfl rfl | with_reducible apply onSdio_kept
    | with_reducible apply modSdio_kept | with_reducible apply advance_kept | with_reducible apply Kept.ite
    | with_reducible apply foldl_kept | dsimp -zeta only | extract_lets | split | dsimp +zetaDelta only
    | (rename_i e; have e := congrArg Prod.fst e; dsimp only at e; rw [← e])

theorem execCmd5_kept {s out : State} (t : Nat) (arg : BitVec 32) (e : execCmd5 t arg s = .next out) : Kept tl pr s
    out := by
  cases e
  repeat' first
    | intro _ | assumption | exact Kept.refl _ | exact HKept.of_eq rfl rfl | with_reducible apply onSdio_kept
    | with_reducible apply modSdio_kept | with_reducible apply advance_kept | exact Burnt.of_eq rfl rfl rfl rfl
    | exact HKept.of_prot (.of_eq rfl rfl rfl rfl) rfl | with_reducible apply Kept.ite | with_reducible apply foldl_kept
    | dsimp -zeta only | extract_lets | split | dsimp +zetaDelta only
    | (rename_i e; have e := congrArg Prod.fst e; dsimp only at e; rw [← e])

theorem execCmd3_kept {s out : State} (t : Nat) (e : execCmd3 t s = .next out) : Kept tl pr s out := by
  cases e
  repeat' first
    | intro _ | assumption | exact Kept.refl _ | exact HKept.of_eq rfl rfl | with_reducible apply onSdio_kept
    | with_reducible apply modSdio_kept | with_reducible apply advance_kept | with_reducible apply Kept.ite
    | with_reducible apply foldl_kept | dsimp -zeta only | extract_lets | split | dsimp +zetaDelta only
    | (rename_i e; have e := congrArg Prod.fst e; dsimp only at e; rw [← e]) | with_reducible apply set_free_kept

theorem execCmd7_kept {s out : State} (t : Nat) (arg : BitVec 32) (e : execCmd7 t arg s = .next out) : Kept tl pr s
    out := by
  cases e
  repeat' first
    | intro _ | assumption | exact Kept.refl _ | exact HKept.of_eq rfl rfl | with_reducible apply onSdio_kept
    | with_reducible apply modSdio_kept | with_reducible apply advance_kept | with_reducible apply Kept.ite
    | with_reducible apply foldl_kept | dsimp -zeta only | extract_lets | split | dsimp +zetaDelta only
    | (rename_i e; have e := congrArg Prod.fst e; dsimp only at e; rw [← e])

theorem execCmd11_kept {s out : State} (t : Nat) (e : execCmd11 t s = .next out) : Kept tl pr s out := by
  cases e
  repeat' first
    | intro _ | assumption | exact Kept.refl _ | exact HKept.of_eq rfl rfl | with_reducible apply onSdio_kept
    | with_reducible apply modSdio_kept | with_reducible apply advance_kept | with_reducible apply Kept.ite
    | with_reducible apply foldl_kept | dsimp -zeta only | extract_lets | split | dsimp +zetaDelta only
    | (rename_i e; have e := congrArg Prod.fst e; dsimp only at e; rw [← e])

theorem execCmd15_kept {s out : State} (t : Nat) (arg : BitVec 32) (e : execCmd15 t arg s = .next out) : Kept tl pr
    s out := by
  cases e
  repeat' first
    | intro _ | assumption | exact Kept.refl _ | exact HKept.of_eq rfl rfl | with_reducible apply onSdio_kept
    | with_reducible apply modSdio_kept | with_reducible apply advance_kept | with_reducible apply Kept.ite
    | with_reducible apply foldl_kept | dsimp -zeta only | extract_lets | split | dsimp +zetaDelta only
    | (rename_i e; have e := congrArg Prod.fst e; dsimp only at e; rw [← e])

theorem execCmd19_kept {s out : State} (t : Nat) (e : execCmd19 t s = .next out) : Kept tl pr s out := by
  cases e
  repeat' first
    | intro _ | assumption | exact Kept.refl _ | exact HKept.of_eq rfl rfl | with_reducible apply onSdio_kept
    | with_reducible apply modSdio_kept | with_reducible apply advance_kept | with_reducible apply Kept.ite
    | with_reducible apply foldl_kept | dsimp -zeta only | extract_lets | split | dsimp +zetaDelta only
    | (rename_i e; have e := congrArg Prod.fst e; dsimp only at e; rw [← e])

theorem ioAbort_kept {t0 s : State} (function : Nat) (kp : Kept tl pr t0 s) :
    Kept tl pr t0 (State.ioAbort s function) := by
  unfold State.ioAbort
  repeat' first
    | intro _ | assumption | exact Kept.refl _ | exact HKept.of_eq rfl rfl | with_reducible apply modSdio_kept
    | with_reducible apply Kept.ite | with_reducible apply foldl_kept | dsimp -zeta only | extract_lets | split
    | dsimp +zetaDelta only | (rename_i e; have e := congrArg Prod.fst e; dsimp only at e; rw [← e])

theorem ioReset_kept {t0 s : State}  (kp : Kept tl pr t0 s) :
    Kept tl pr t0 (State.ioReset s) := by
  unfold State.ioReset
  repeat' first
    | intro _ | assumption | exact Kept.refl _ | exact HKept.of_eq rfl rfl | with_reducible apply cancel_kept
    | with_reducible apply modSdio_kept | with_reducible apply Kept.ite | with_reducible apply foldl_kept
    | dsimp -zeta only | extract_lets | split | dsimp +zetaDelta only
    | (rename_i e; have e := congrArg Prod.fst e; dsimp only at e; rw [← e])

theorem cccrWrite_kept {t0 s : State} (a : Nat) (b : Byte) (kp : Kept tl pr t0 s) :
    Kept tl pr t0 (State.cccrWrite s a b) := by
  unfold State.cccrWrite
  repeat' first
    | intro _ | assumption | exact Kept.refl _ | exact HKept.of_eq rfl rfl | with_reducible apply modSdio_kept
    | with_reducible apply ioAbort_kept | with_reducible apply ioReset_kept | with_reducible apply Kept.ite
    | with_reducible apply foldl_kept | dsimp -zeta only | extract_lets | split | dsimp +zetaDelta only
    | (rename_i e; have e := congrArg Prod.fst e; dsimp only at e; rw [← e])

theorem ring'_kept {t0 s : State} (b : Byte) (kp : Kept tl pr t0 s) (hr : pr.mayReset = true) (hw : pr.mayWrite =
    true) :
    Kept tl pr t0 (State.ring' s b) := by
  unfold State.ring'
  repeat' first
    | intro _ | assumption | exact Kept.refl _ | exact HKept.of_eq rfl rfl | with_reducible apply rawRequest_kept
    | with_reducible apply modSdio_kept | with_reducible apply Kept.ite | with_reducible apply foldl_kept
    | dsimp -zeta only | extract_lets | split | dsimp +zetaDelta only
    | (rename_i e; have e := congrArg Prod.fst e; dsimp only at e; rw [← e])

theorem f1Read_kept {t0 s : State} (a : Nat) (kp : Kept tl pr t0 s) :
    Kept tl pr t0 (State.f1Read s a).1 := by
  unfold State.f1Read
  repeat' first
    | intro _ | assumption | exact Kept.refl _ | exact HKept.of_eq rfl rfl | with_reducible apply modSdio_kept
    | with_reducible apply Kept.ite | with_reducible apply foldl_kept | dsimp -zeta only | extract_lets | split
    | dsimp +zetaDelta only | (rename_i e; have e := congrArg Prod.fst e; dsimp only at e; rw [← e])

theorem f1Write_kept {t0 s : State} (a : Nat) (b : Byte) (kp : Kept tl pr t0 s) (hr : pr.mayReset = true)
    (hw : pr.mayWrite = true) : Kept tl pr t0 (s.f1Write a b) := by
  unfold State.f1Write
  split
  · exact modSdio_kept _ kp
  · split
    · exact ring'_kept _ kp hr hw
    · split
      · exact modSdio_kept _ kp
      · split
        · exact modSdio_kept _ kp
        · split
          · exact modSdio_kept _ kp
          · split
            · exact modSdio_kept _ kp
            · exact kp

theorem f2Fail_kept {t0 s : State}  (kp : Kept tl pr t0 s) :
    Kept tl pr t0 (State.f2Fail s) := by
  unfold State.f2Fail
  repeat' first
    | intro _ | assumption | exact Kept.refl _ | exact HKept.of_eq rfl rfl | with_reducible apply modSdio_kept
    | with_reducible apply Kept.ite | with_reducible apply foldl_kept | dsimp -zeta only | extract_lets | split
    | dsimp +zetaDelta only | (rename_i e; have e := congrArg Prod.fst e; dsimp only at e; rw [← e])

theorem f2Read_kept {t0 s : State} (off : Nat) (n : Nat) (kp : Kept tl pr t0 s) :
    Kept tl pr t0 (State.f2Read s off n).1 := by
  unfold State.f2Read
  repeat' first
    | intro _ | assumption | exact Kept.refl _ | exact HKept.of_eq rfl rfl | with_reducible apply hostLoad_kept
    | with_reducible apply f2Fail_kept | with_reducible apply Kept.ite | with_reducible apply foldl_kept
    | dsimp -zeta only | extract_lets | split | dsimp +zetaDelta only
    | (rename_i e; have e := congrArg Prod.fst e; dsimp only at e; rw [← e])

theorem f2Write_kept {t0 s : State} (off : Nat) (data : List Byte) (kp : Kept tl pr t0 s) :
    Kept tl pr t0 (State.f2Write s off data) := by
  unfold State.f2Write
  repeat' first
    | intro _ | assumption | exact Kept.refl _ | exact HKept.of_eq rfl rfl | with_reducible apply hostStore_kept
    | with_reducible apply f2Fail_kept | with_reducible apply Kept.ite | with_reducible apply foldl_kept
    | dsimp -zeta only | extract_lets | split | dsimp +zetaDelta only
    | (rename_i e; have e := congrArg Prod.fst e; dsimp only at e; rw [← e])

theorem ioWrite_kept {t0 s : State} (f : Nat) (a : Nat) (b : Byte) (kp : Kept tl pr t0 s) (hr : pr.mayReset = true)
    (hw : pr.mayWrite = true) :
    Kept tl pr t0 (State.ioWrite s f a b) := by
  unfold State.ioWrite
  repeat' first
    | intro _ | assumption | exact Kept.refl _ | exact HKept.of_eq rfl rfl | with_reducible apply modSdio_kept
    | with_reducible apply cccrWrite_kept | with_reducible apply f1Write_kept | with_reducible apply f2Write_kept
    | with_reducible apply Kept.ite | with_reducible apply foldl_kept | dsimp -zeta only | extract_lets | split
    | dsimp +zetaDelta only | (rename_i e; have e := congrArg Prod.fst e; dsimp only at e; rw [← e])

theorem ioRead_kept {t0 s : State} (f : Nat) (a : Nat) (kp : Kept tl pr t0 s) :
    Kept tl pr t0 (State.ioRead s f a).1 := by
  unfold State.ioRead
  repeat' first
    | intro _ | assumption | exact Kept.refl _ | exact HKept.of_eq rfl rfl | with_reducible apply modSdio_kept
    | with_reducible apply f1Read_kept | with_reducible apply f2Read_kept | with_reducible apply Kept.ite
    | with_reducible apply foldl_kept | dsimp -zeta only | extract_lets | split | dsimp +zetaDelta only
    | (rename_i e; have e := congrArg Prod.fst e; dsimp only at e; rw [← e])

theorem execCmd52_kept {s out : State} (t : Nat) (arg : BitVec 32) (hr : pr.mayReset = true) (hw : pr.mayWrite =
    true) (e : execCmd52 t arg s = .next out) : Kept tl pr s out := by
  cases e
  repeat' first
    | intro _ | assumption | exact Kept.refl _ | exact HKept.of_eq rfl rfl | with_reducible apply onSdio_kept
    | with_reducible apply modSdio_kept | with_reducible apply ioWrite_kept | with_reducible apply ioRead_kept
    | with_reducible apply advance_kept | with_reducible apply Kept.ite | with_reducible apply foldl_kept
    | dsimp -zeta only | extract_lets | split | dsimp +zetaDelta only
    | (rename_i e; have e := congrArg Prod.fst e; dsimp only at e; rw [← e])

theorem ioReads_kept {t0 s : State} (f a : Nat) (rise : Bool) (n : Nat) (kp : Kept tl pr t0 s) :
    Kept tl pr t0 (s.ioReads f a rise n).1 := by
  induction n generalizing s a with
  | zero => exact kp
  | succ n ih =>
    unfold State.ioReads
    exact ih _ (ioRead_kept _ _ kp)

theorem ioWrites_kept {t0 s : State} (f a : Nat) (rise : Bool) (l : List Byte) (kp : Kept tl pr t0 s)
    (hr : pr.mayReset = true) (hw : pr.mayWrite = true) : Kept tl pr t0 (s.ioWrites f a rise l) := by
  induction l generalizing s a with
  | nil => exact kp
  | cons b r ih =>
    unfold State.ioWrites
    exact ih _ (ioWrite_kept _ _ _ kp hr hw)

theorem execCmd53_kept {s out : State} (t : Nat) (arg : BitVec 32) (data : List Byte) (hr : pr.mayReset = true) (hw
    : pr.mayWrite = true) (e : execCmd53 t arg data s = .next out) : Kept tl pr s out := by
  cases e
  repeat' first
    | intro _ | assumption | exact Kept.refl _ | exact HKept.of_eq rfl rfl | with_reducible apply onSdio_kept
    | with_reducible apply modSdio_kept | with_reducible apply f2Read_kept | with_reducible apply f2Write_kept
    | with_reducible apply ioReads_kept | with_reducible apply ioWrites_kept | with_reducible apply advance_kept
    | with_reducible apply Kept.ite | with_reducible apply foldl_kept | dsimp -zeta only | extract_lets | split
    | dsimp +zetaDelta only | (rename_i e; have e := congrArg Prod.fst e; dsimp only at e; rw [← e])

theorem execDoorbell_kept {s out : State} (t : Nat) (value : Byte) (hr : pr.mayReset = true) (hw : pr.mayWrite =
    true) (e : execDoorbell t value s = .next out) : Kept tl pr s out := by
  cases e
  repeat' first
    | intro _ | assumption | exact Kept.refl _ | exact HKept.of_eq rfl rfl | with_reducible apply onSdio_kept
    | with_reducible apply ring'_kept | with_reducible apply advance_kept | with_reducible apply Kept.ite
    | with_reducible apply foldl_kept | dsimp -zeta only | extract_lets | split | dsimp +zetaDelta only
    | (rename_i e; have e := congrArg Prod.fst e; dsimp only at e; rw [← e])

theorem execRspRead_kept {s out : State} (t : Nat) (e : execRspRead t s = .next out) : Kept tl pr s out := by
  cases e
  repeat' first
    | intro _ | assumption | exact Kept.refl _ | exact HKept.of_eq rfl rfl | with_reducible apply onSdio_kept
    | with_reducible apply f1Read_kept | with_reducible apply advance_kept | with_reducible apply Kept.ite
    | with_reducible apply foldl_kept | dsimp -zeta only | extract_lets | split | dsimp +zetaDelta only
    | (rename_i e; have e := congrArg Prod.fst e; dsimp only at e; rw [← e])

theorem execIoAbort_kept {s out : State} (t : Nat) (function : Nat) (e : execIoAbort t function s = .next out) :
    Kept tl pr s out := by
  cases e
  repeat' first
    | intro _ | assumption | exact Kept.refl _ | exact HKept.of_eq rfl rfl | with_reducible apply onSdio_kept
    | with_reducible apply ioAbort_kept | with_reducible apply advance_kept | with_reducible apply Kept.ite
    | with_reducible apply foldl_kept | dsimp -zeta only | extract_lets | split | dsimp +zetaDelta only
    | (rename_i e; have e := congrArg Prod.fst e; dsimp only at e; rw [← e])

theorem execSdioDataTimeout_kept {s out : State} (t : Nat) (e : execSdioDataTimeout t s = .next out) : Kept tl pr s
    out := by
  cases e
  repeat' first
    | intro _ | assumption | exact Kept.refl _ | exact HKept.of_eq rfl rfl | with_reducible apply onSdio_kept
    | with_reducible apply modSdio_kept | with_reducible apply advance_kept | with_reducible apply Kept.ite
    | with_reducible apply foldl_kept | dsimp -zeta only | extract_lets | split | dsimp +zetaDelta only
    | (rename_i e; have e := congrArg Prod.fst e; dsimp only at e; rw [← e])

/-! ### TallyUnit -/

theorem onTally_kept {t0 s : State} (f : Tally → Tally) (kp : Kept tl pr t0 s) (ht : tl = false) :
    Kept tl pr t0 (State.onTally s f) := by
  unfold State.onTally
  repeat' first
    | intro _ | assumption | exact Kept.refl _ | exact HKept.of_eq rfl rfl | with_reducible apply Kept.ite
    | with_reducible apply foldl_kept | dsimp -zeta only | extract_lets | split | dsimp +zetaDelta only
    | (rename_i e; have e := congrArg Prod.fst e; dsimp only at e; rw [← e]) | with_reducible apply set_tally_kept

theorem onDisplay_kept {t0 s : State} (crcOk : Bool) (f : Tally → Tally) (kp : Kept tl pr t0 s) (ht : tl = false) :
    Kept tl pr t0 (State.onDisplay s crcOk f) := by
  unfold State.onDisplay
  repeat' first
    | intro _ | assumption | exact Kept.refl _ | exact HKept.of_eq rfl rfl | with_reducible apply onTally_kept
    | with_reducible apply Kept.ite | with_reducible apply foldl_kept | dsimp -zeta only | extract_lets | split
    | dsimp +zetaDelta only | (rename_i e; have e := congrArg Prod.fst e; dsimp only at e; rw [← e])

theorem execWheelPulse_kept {s out : State} (t : Nat) (channel : Nat) (ht : tl = false) (e : execWheelPulse t
    channel s = .next out) : Kept tl pr s out := by
  cases e
  repeat' first
    | intro _ | assumption | exact Kept.refl _ | exact HKept.of_eq rfl rfl | with_reducible apply onTally_kept
    | with_reducible apply advance_kept | with_reducible apply Kept.ite | with_reducible apply foldl_kept
    | dsimp -zeta only | extract_lets | split | dsimp +zetaDelta only
    | (rename_i e; have e := congrArg Prod.fst e; dsimp only at e; rw [← e])

theorem execPulseDisagreement_kept {s out : State} (t : Nat) (ht : tl = false) (e : execPulseDisagreement t s =
    .next out) : Kept tl pr s out := by
  cases e
  repeat' first
    | intro _ | assumption | exact Kept.refl _ | exact HKept.of_eq rfl rfl | with_reducible apply onTally_kept
    | with_reducible apply advance_kept | with_reducible apply Kept.ite | with_reducible apply foldl_kept
    | dsimp -zeta only | extract_lets | split | dsimp +zetaDelta only
    | (rename_i e; have e := congrArg Prod.fst e; dsimp only at e; rw [← e])

theorem execTallySeal_kept {s out : State} (t : Nat) (isOpen : Bool) (ht : tl = false) (e : execTallySeal t isOpen s
    = .next out) : Kept tl pr s out := by
  cases e
  repeat' first
    | intro _ | assumption | exact Kept.refl _ | exact HKept.of_eq rfl rfl | with_reducible apply advance_kept
    | with_reducible apply Kept.ite | with_reducible apply foldl_kept | dsimp -zeta only | extract_lets | split
    | dsimp +zetaDelta only | (rename_i e; have e := congrArg Prod.fst e; dsimp only at e; rw [← e])
    | with_reducible apply set_tally_kept

theorem execTallyTick_kept {s out : State} (t : Nat) (ht : tl = false) (e : execTallyTick t s = .next out) : Kept tl
    pr s out := by
  cases e
  repeat' first
    | intro _ | assumption | exact Kept.refl _ | exact HKept.of_eq rfl rfl | with_reducible apply onTally_kept
    | with_reducible apply advance_kept | with_reducible apply Kept.ite | with_reducible apply foldl_kept
    | dsimp -zeta only | extract_lets | split | dsimp +zetaDelta only
    | (rename_i e; have e := congrArg Prod.fst e; dsimp only at e; rw [← e])

theorem execTallyJournal_kept {s out : State} (t : Nat) (ht : tl = false) (e : execTallyJournal t s = .next out) :
    Kept tl pr s out := by
  cases e
  repeat' first
    | intro _ | assumption | exact Kept.refl _ | exact HKept.of_eq rfl rfl | with_reducible apply onTally_kept
    | with_reducible apply advance_kept | with_reducible apply Kept.ite | with_reducible apply foldl_kept
    | dsimp -zeta only | extract_lets | split | dsimp +zetaDelta only
    | (rename_i e; have e := congrArg Prod.fst e; dsimp only at e; rw [← e])

theorem execHire_kept {s out : State} (t : Nat) (crcOk : Bool) (ht : tl = false) (e : execHire t crcOk s = .next
    out) : Kept tl pr s out := by
  cases e
  repeat' first
    | intro _ | assumption | exact Kept.refl _ | exact HKept.of_eq rfl rfl | with_reducible apply onDisplay_kept
    | with_reducible apply advance_kept | with_reducible apply Kept.ite | with_reducible apply foldl_kept
    | dsimp -zeta only | extract_lets | split | dsimp +zetaDelta only
    | (rename_i e; have e := congrArg Prod.fst e; dsimp only at e; rw [← e])

theorem execStop_kept {s out : State} (t : Nat) (crcOk : Bool) (ht : tl = false) (e : execStop t crcOk s = .next
    out) : Kept tl pr s out := by
  cases e
  repeat' first
    | intro _ | assumption | exact Kept.refl _ | exact HKept.of_eq rfl rfl | with_reducible apply onDisplay_kept
    | with_reducible apply advance_kept | with_reducible apply Kept.ite | with_reducible apply foldl_kept
    | dsimp -zeta only | extract_lets | split | dsimp +zetaDelta only
    | (rename_i e; have e := congrArg Prod.fst e; dsimp only at e; rw [← e])

theorem execClearFare_kept {s out : State} (t : Nat) (crcOk : Bool) (ht : tl = false) (e : execClearFare t crcOk s =
    .next out) : Kept tl pr s out := by
  cases e
  repeat' first
    | intro _ | assumption | exact Kept.refl _ | exact HKept.of_eq rfl rfl | with_reducible apply onDisplay_kept
    | with_reducible apply advance_kept | with_reducible apply Kept.ite | with_reducible apply foldl_kept
    | dsimp -zeta only | extract_lets | split | dsimp +zetaDelta only
    | (rename_i e; have e := congrArg Prod.fst e; dsimp only at e; rw [← e])

theorem execIdent_kept {s out : State} (t : Nat) (crcOk : Bool) (ht : tl = false) (e : execIdent t crcOk s = .next
    out) : Kept tl pr s out := by
  cases e
  repeat' first
    | intro _ | assumption | exact Kept.refl _ | exact HKept.of_eq rfl rfl | with_reducible apply send_kept
    | with_reducible apply onDisplay_kept | with_reducible apply advance_kept | with_reducible apply Kept.ite
    | with_reducible apply foldl_kept | dsimp -zeta only | extract_lets | split | dsimp +zetaDelta only
    | (rename_i e; have e := congrArg Prod.fst e; dsimp only at e; rw [← e])

theorem execTallyFrameSend_kept {s out : State} (t : Nat) (ht : tl = false) (e : execTallyFrameSend t s = .next out)
    : Kept tl pr s out := by
  cases e
  repeat' first
    | intro _ | assumption | exact Kept.refl _ | exact HKept.of_eq rfl rfl | with_reducible apply send_kept
    | with_reducible apply onTally_kept | with_reducible apply advance_kept | with_reducible apply Kept.ite
    | with_reducible apply foldl_kept | dsimp -zeta only | extract_lets | split | dsimp +zetaDelta only
    | (rename_i e; have e := congrArg Prod.fst e; dsimp only at e; rw [← e])

theorem execImageSegment_kept {s out : State} (t : Nat) (data : List Byte) (last : Bool) (crcOk : Bool) (ht : tl =
    false) (e : execImageSegment t data last crcOk s = .next out) : Kept tl pr s out := by
  cases e
  repeat' first
    | intro _ | assumption | exact Kept.refl _ | exact HKept.of_eq rfl rfl | with_reducible apply onDisplay_kept
    | with_reducible apply advance_kept | with_reducible apply Kept.ite | with_reducible apply foldl_kept
    | dsimp -zeta only | extract_lets | split | dsimp +zetaDelta only
    | (rename_i e; have e := congrArg Prod.fst e; dsimp only at e; rw [← e])

theorem execTallyPowerUp_kept {s out : State} (t : Nat) (ht : tl = false) (e : execTallyPowerUp t s = .next out) :
    Kept tl pr s out := by
  cases e
  repeat' first
    | intro _ | assumption | exact Kept.refl _ | exact HKept.of_eq rfl rfl | with_reducible apply send_kept
    | with_reducible apply advance_kept | with_reducible apply Kept.ite | with_reducible apply foldl_kept
    | dsimp -zeta only | extract_lets | split | dsimp +zetaDelta only
    | (rename_i e; have e := congrArg Prod.fst e; dsimp only at e; rw [← e]) | with_reducible apply set_tally_kept

theorem execVauxTallyLoss_kept {s out : State} (t : Nat) (ht : tl = false) (e : execVauxTallyLoss t s = .next out) :
    Kept tl pr s out := by
  cases e
  repeat' first
    | intro _ | assumption | exact Kept.refl _ | exact HKept.of_eq rfl rfl | with_reducible apply onTally_kept
    | with_reducible apply advance_kept | with_reducible apply Kept.ite | with_reducible apply foldl_kept
    | dsimp -zeta only | extract_lets | split | dsimp +zetaDelta only
    | (rename_i e; have e := congrArg Prod.fst e; dsimp only at e; rw [← e])

/-! ### Every command -/

/-- Every command keeps what `Kept` says; what it asks of the Tally unit, of the protection blocks and of the fuses is for the
lemmas above and the next one. -/
theorem exec_kept {i : Instr} {s out : State} (e : exec i s = .next out) : Kept false .cut s out := by
  cases i
  case mmul => exact execMmul_kept _ _ _ _ e
  case conv => exact execConv_kept _ _ _ _ e
  case tconv => exact execTconv_kept _ _ _ _ e
  case pool => exact execPool_kept _ _ _ e
  case rsmp => exact execRsmp_kept _ _ _ e
  case ewise => exact execEwise_kept _ _ _ e
  case norm => exact execNorm_kept _ _ _ e
  case attn => exact execAttn_kept _ _ _ _ e
  case attb => exact execAttb_kept _ _ _ _ e
  case topk => exact execTopk_kept _ _ _ e
  case cvt => exact execCvt_kept _ _ _ e
  case moveCopy => exact execMoveCopy_kept _ _ _ e
  case moveHalo => exact execMoveHalo_kept _ _ _ e
  case moveKvPage => exact execMoveKvPage_kept _ _ _ e
  case moveAtomic => exact execMoveAtomic_kept _ _ _ e
  case cuew => exact execCuew_kept _ _ _ _ e
  case cues => exact execCues_kept _ _ _ e
  case fence => exact execFence_kept _ _ _ e
  case print => exact execPrint_kept _ _ _ e
  case killComplete => exact execKillComplete_kept _ _ _ e
  case commandWatchdog => exact execCommandWatchdog_kept _ _ _ e
  case cueHoldOverrun => exact execCueHoldOverrun_kept _ _ _ e
  case slotOverrun => exact execSlotOverrun_kept _ _ _ e
  case partReset => exact execPartReset_kept _ _ _ e
  case partResetOverrun => exact execPartResetOverrun_kept _ _ _ e
  case sheetLine => exact execSheetLine_kept _ _ rfl rfl e
  case groupDisableDone => exact execGroupDisableDone_kept _ _ _ e
  case deadlineMiss => exact execDeadlineMiss_kept _ _ _ _ e
  case withheld => exact execWithheld_kept _ _ _ _ e
  case backupTime => exact execBackupTime_kept _ _ _ _ e
  case printTokenGrant t h c g => exact execPrintTokenGrant_kept t h c g e
  case lineResponse => exact execLineResponse_kept _ _ _ _ _ _ e
  case bankCtlWrite => exact execBankCtlWrite_kept _ _ _ _ _ e
  case scrubDone => exact execScrubDone_kept _ _ _ e
  case scrubber => exact execScrubber_kept _ _ _ e
  case dollyApply => exact execDollyApply_kept _ _ _ e
  case groupCtlWrite => exact execGroupCtlWrite_kept _ _ _ _ _ e
  case hbmRefresh => exact execHbmRefresh_kept _ _ _ _ e
  case hbmRetrainStep => exact execHbmRetrainStep_kept _ _ _ _ e
  case retrainDue => exact execRetrainDue_kept _ _ e
  case hbmRetrainLate => exact execHbmRetrainLate_kept _ _ e
  case hbmTraining => exact execHbmTraining_kept _ _ _ _ e
  case hbmTempRead => exact execHbmTempRead_kept _ _ _ e
  case hbmReadResponse => exact execHbmReadResponse_kept _ _ _ _ _ e
  case hbmWrite => exact execHbmWrite_kept _ _ _ _ _ _ e
  case hbmParity => exact execHbmParity_kept _ _ _ _ _ e
  case hbmTimeout => exact execHbmTimeout_kept _ _ _ _ e
  case hbmApply => exact execHbmApply_kept _ _ _ e
  case flitReceive => exact execFlitReceive_kept _ _ _ e
  case flitReplay => exact execFlitReplay_kept _ _ _ e
  case creditReturn => exact execCreditReturn_kept _ _ _ e
  case controlMessage => exact execControlMessage_kept _ _ e
  case writeComplete => exact execWriteComplete_kept _ _ _ e
  case killNotice => exact execKillNotice_kept _ _ _ e
  case ctrDown => exact execCtrDown_kept _ _ e
  case ctrDegraded => exact execCtrDegraded_kept _ _ e
  case ctrTrain => exact execCtrTrain_kept _ _ e
  case ctrRetrain => exact execCtrRetrain_kept _ _ _ e
  case ctrApply => exact execCtrApply_kept _ _ _ e
  case protCtlApply => exact execProtCtlApply_kept _ _ _ _ rfl e
  case frameStart => exact execFrameStart_kept _ _ _ _ _ e
  case frameEnd => exact execFrameEnd_kept _ _ _ _ _ e
  case lineStart => exact execLineStart_kept _ _ _ _ _ e
  case longPacket => exact execLongPacket_kept _ _ _ _ _ _ _ _ _ e
  case lineLate => exact execLineLate_kept _ _ _ _ e
  case lineCount => exact execLineCount_kept _ _ _ e
  case lineLock => exact execLineLock_kept _ _ e
  case lineUnlock => exact execLineUnlock_kept _ _ e
  case fsyncFault => exact execFsyncFault_kept _ _ _ e
  case hznApply => exact execHznApply_kept _ _ _ e
  case sheetFrameAdopt => exact execSheetFrameAdopt_kept _ _ _ e
  case resultCopy => exact execResultCopy_kept _ _ _ _ e
  case consumerRead => exact execConsumerRead_kept _ _ _ _ e
  case gap => exact execGap_kept _ _ _ _ _ _ e
  case lockstepMismatch => exact execLockstepMismatch_kept _ _ _ e
  case coreSelftest => exact execCoreSelftest_kept _ _ _ _ e
  case lockstepInput => exact execLockstepInput_kept _ _ _ e
  case debugHalt => exact execDebugHalt_kept _ _ _ e
  case debugWrite => exact execDebugWrite_kept _ _ _ _ _ _ e
  case debugResume => exact execDebugResume_kept _ _ _ e
  case heartbeatSend => exact execHeartbeatSend_kept _ _ e
  case heartbeatReceive => exact execHeartbeatReceive_kept _ _ _ _ e
  case hbLane => exact execHbLane_kept _ _ _ e
  case pairing => exact execPairing_kept _ _ e
  case partnerLost => exact execPartnerLost_kept _ _ e
  case halfDown => exact execHalfDown_kept _ _ _ e
  case restartReq => exact execRestartReq_kept _ _ e
  case halfRestart => exact execHalfRestart_kept _ _ _ _ rfl e
  case serviceReady => exact execServiceReady_kept _ _ e
  case disagreementLimit => exact execDisagreementLimit_kept _ _ _ e
  case leaderRepeat => exact execLeaderRepeat_kept _ _ _ e
  case localise => exact execLocalise_kept _ _ _ e
  case postFp => exact execPostFp_kept _ _ _ e
  case outlierSlice => exact execOutlierSlice_kept _ _ _ e
  case threadSlice => exact execThreadSlice_kept _ _ _ _ e
  case bankMarch => exact execBankMarch_kept _ _ _ _ e
  case slabScoreDecay => exact execSlabScoreDecay_kept _ _ _ e
  case slabRetired => exact execSlabRetired_kept _ _ _ e
  case derate => exact execDerate_kept _ _ _ _ e
  case dirWatchdog => exact execDirWatchdog_kept _ _ e
  case islWatchdog => exact execIslWatchdog_kept _ _ e
  case halfCtlReturn => exact execHalfCtlReturn_kept _ _ _ rfl rfl e
  case halfCtlHoldOut => exact execHalfCtlHoldOut_kept _ _ _ rfl rfl e
  case halfCtlRestart => exact execHalfCtlRestart_kept _ _ _ rfl rfl e
  case halfCtlRetire => exact execHalfCtlRetire_kept _ _ _ rfl rfl e
  case derateClear => exact execDerateClear_kept _ _ _ _ rfl rfl e
  case powerOn => exact execPowerOn_kept _ _ rfl e
  case fuseSense => exact execFuseSense_kept _ _ _ e
  case slateFill => exact execSlateFill_kept _ _ e
  case brownOut => exact execBrownOut_kept _ rfl rfl e
  case supplyRange => exact execSupplyRange_kept _ _ _ e
  case regFault => exact execRegFault_kept _ _ _ _ e
  case clockFault => exact execClockFault_kept _ _ e
  case sensorRead => exact execSensorRead_kept _ _ _ _ _ _ e
  case throttleUpdate => exact execThrottleUpdate_kept _ _ e
  case thermalTrip => exact execThermalTrip_kept _ _ e
  case thermalTripHw => exact execThermalTripHw_kept _ _ e
  case flowPulse => exact execFlowPulse_kept _ _ e
  case coolStatusChange => exact execCoolStatusChange_kept _ _ _ e
  case degradedExit => exact execDegradedExit_kept _ _ e
  case ageMeasure => exact execAgeMeasure_kept _ _ _ _ e
  case shutdownBist => exact execShutdownBist_kept _ _ _ _ rfl rfl e
  case shutdown => exact execShutdown_kept _ _ rfl rfl e
  case restart => exact execRestart_kept _ _ rfl rfl e
  case bistDone => exact execBistDone_kept _ _ _ _ _ e
  case dictRead => exact execDictRead_kept _ _ _ _ _ _ _ rfl rfl e
  case dictWrite => exact execDictWrite_kept _ _ _ _ _ _ _ _ rfl rfl e
  case dictCancel => exact execDictCancel_kept _ _ _ rfl rfl e
  case dictTimeout => exact execDictTimeout_kept _ _ e
  case openSession => exact execOpenSession_kept _ _ _ rfl rfl e
  case commit => exact execCommit_kept _ _ _ rfl rfl e
  case discard => exact execDiscard_kept _ _ _ rfl rfl e
  case sessionExpire => exact execSessionExpire_kept _ _ e
  case arm => exact execArm_kept _ _ _ rfl rfl e
  case disarm => exact execDisarm_kept _ _ _ rfl rfl e
  case clear => exact execClear_kept _ _ _ _ rfl rfl e
  case rollbackCommit => exact execRollbackCommit_kept _ _ _ rfl rfl e
  case keyProgram => exact execKeyProgram_kept _ _ _ _ rfl rfl e
  case revokeKey => exact execRevokeKey_kept _ _ _ rfl rfl e
  case attestNonce => exact execAttestNonce_kept _ _ _ rfl rfl e
  case updateImage => exact execUpdateImage_kept _ _ _ rfl rfl e
  case cmd0 => exact execCmd0_kept _ e
  case cmd3 => exact execCmd3_kept _ e
  case cmd5 => exact execCmd5_kept _ _ e
  case cmd7 => exact execCmd7_kept _ _ e
  case cmd11 => exact execCmd11_kept _ e
  case cmd15 => exact execCmd15_kept _ _ e
  case cmd19 => exact execCmd19_kept _ e
  case cmd52 => exact execCmd52_kept _ _ rfl rfl e
  case cmd53 => exact execCmd53_kept _ _ _ rfl rfl e
  case doorbell => exact execDoorbell_kept _ _ rfl rfl e
  case rspRead => exact execRspRead_kept _ e
  case ioAbort => exact execIoAbort_kept _ _ e
  case sdioDataTimeout => exact execSdioDataTimeout_kept _ e
  case canRequest => exact execCanRequest_kept _ _ _ _ _ rfl rfl e
  case emcySend => exact execEmcySend_kept _ _ e
  case busOff => exact execBusOff_kept _ _ e
  case busOffRecovery => exact execBusOffRecovery_kept _ _ e
  case bar0Write t h o l => exact execBar0Write_kept t h o l e
  case bar2Write => exact execBar2Write_kept _ _ _ _ e
  case bar2Read => exact execBar2Read_kept _ _ _ _ e
  case hotReset => exact execHotReset_kept _ _ e
  case pciePerst => exact execPciePerst_kept _ _ e
  case linkUp => exact execLinkUp_kept _ _ _ _ e
  case registerWrite => exact execRegisterWrite_kept _ _ _ _ _ rfl e
  case wheelPulse => exact execWheelPulse_kept _ _ rfl e
  case tallySeal => exact execTallySeal_kept _ _ rfl e
  case hire => exact execHire_kept _ _ rfl e
  case stop => exact execStop_kept _ _ rfl e
  case clearFare => exact execClearFare_kept _ _ rfl e
  case ident => exact execIdent_kept _ _ rfl e
  case imageSegment => exact execImageSegment_kept _ _ _ _ rfl e
  case tallyTick => exact execTallyTick_kept _ rfl e
  case pulseDisagreement => exact execPulseDisagreement_kept _ rfl e
  case tallyFrameSend => exact execTallyFrameSend_kept _ rfl e
  case tallyJournal => exact execTallyJournal_kept _ rfl e
  case tallyPowerUp => exact execTallyPowerUp_kept _ rfl e
  case pairingTimeout => exact execPairingTimeout_kept _ _ e
  case tokenBucketRefill => exact execTokenBucketRefill_kept _ _ _ e
  case bootStageDone => exact execBootStageDone_kept _ _ _ rfl rfl e
  case hdrUe => exact execHdrUe_kept _ _ _ e
  case pcieConfigWrite => exact execPcieConfigWrite_kept _ _ _ _ e
  case msixTableWrite => exact execMsixTableWrite_kept _ _ _ _ e
  case vauxTallyLoss => exact execVauxTallyLoss_kept _ rfl e
  case canRejoin => exact execCanRejoin_kept _ _ e
  case updateWritten => exact execUpdateWritten_kept _ _ e

/-- Every command but BROWN_OUT only burns fuses. -/
theorem exec_burnt {i : Instr} {s out : State} (hn : ∀ t, i ≠ .brownOut t) (e : exec i s = .next out) :
    Kept false .any s out := by
  cases i
  case mmul => exact execMmul_kept _ _ _ _ e
  case conv => exact execConv_kept _ _ _ _ e
  case tconv => exact execTconv_kept _ _ _ _ e
  case pool => exact execPool_kept _ _ _ e
  case rsmp => exact execRsmp_kept _ _ _ e
  case ewise => exact execEwise_kept _ _ _ e
  case norm => exact execNorm_kept _ _ _ e
  case attn => exact execAttn_kept _ _ _ _ e
  case attb => exact execAttb_kept _ _ _ _ e
  case topk => exact execTopk_kept _ _ _ e
  case cvt => exact execCvt_kept _ _ _ e
  case moveCopy => exact execMoveCopy_kept _ _ _ e
  case moveHalo => exact execMoveHalo_kept _ _ _ e
  case moveKvPage => exact execMoveKvPage_kept _ _ _ e
  case moveAtomic => exact execMoveAtomic_kept _ _ _ e
  case cuew => exact execCuew_kept _ _ _ _ e
  case cues => exact execCues_kept _ _ _ e
  case fence => exact execFence_kept _ _ _ e
  case print => exact execPrint_kept _ _ _ e
  case killComplete => exact execKillComplete_kept _ _ _ e
  case commandWatchdog => exact execCommandWatchdog_kept _ _ _ e
  case cueHoldOverrun => exact execCueHoldOverrun_kept _ _ _ e
  case slotOverrun => exact execSlotOverrun_kept _ _ _ e
  case partReset => exact execPartReset_kept _ _ _ e
  case partResetOverrun => exact execPartResetOverrun_kept _ _ _ e
  case sheetLine => exact execSheetLine_kept _ _ rfl rfl e
  case groupDisableDone => exact execGroupDisableDone_kept _ _ _ e
  case deadlineMiss => exact execDeadlineMiss_kept _ _ _ _ e
  case withheld => exact execWithheld_kept _ _ _ _ e
  case backupTime => exact execBackupTime_kept _ _ _ _ e
  case printTokenGrant t h c g => exact execPrintTokenGrant_kept t h c g e
  case lineResponse => exact execLineResponse_kept _ _ _ _ _ _ e
  case bankCtlWrite => exact execBankCtlWrite_kept _ _ _ _ _ e
  case scrubDone => exact execScrubDone_kept _ _ _ e
  case scrubber => exact execScrubber_kept _ _ _ e
  case dollyApply => exact execDollyApply_kept _ _ _ e
  case groupCtlWrite => exact execGroupCtlWrite_kept _ _ _ _ _ e
  case hbmRefresh => exact execHbmRefresh_kept _ _ _ _ e
  case hbmRetrainStep => exact execHbmRetrainStep_kept _ _ _ _ e
  case retrainDue => exact execRetrainDue_kept _ _ e
  case hbmRetrainLate => exact execHbmRetrainLate_kept _ _ e
  case hbmTraining => exact execHbmTraining_kept _ _ _ _ e
  case hbmTempRead => exact execHbmTempRead_kept _ _ _ e
  case hbmReadResponse => exact execHbmReadResponse_kept _ _ _ _ _ e
  case hbmWrite => exact execHbmWrite_kept _ _ _ _ _ _ e
  case hbmParity => exact execHbmParity_kept _ _ _ _ _ e
  case hbmTimeout => exact execHbmTimeout_kept _ _ _ _ e
  case hbmApply => exact execHbmApply_kept _ _ _ e
  case flitReceive => exact execFlitReceive_kept _ _ _ e
  case flitReplay => exact execFlitReplay_kept _ _ _ e
  case creditReturn => exact execCreditReturn_kept _ _ _ e
  case controlMessage => exact execControlMessage_kept _ _ e
  case writeComplete => exact execWriteComplete_kept _ _ _ e
  case killNotice => exact execKillNotice_kept _ _ _ e
  case ctrDown => exact execCtrDown_kept _ _ e
  case ctrDegraded => exact execCtrDegraded_kept _ _ e
  case ctrTrain => exact execCtrTrain_kept _ _ e
  case ctrRetrain => exact execCtrRetrain_kept _ _ _ e
  case ctrApply => exact execCtrApply_kept _ _ _ e
  case protCtlApply => exact execProtCtlApply_kept _ _ _ _ rfl e
  case frameStart => exact execFrameStart_kept _ _ _ _ _ e
  case frameEnd => exact execFrameEnd_kept _ _ _ _ _ e
  case lineStart => exact execLineStart_kept _ _ _ _ _ e
  case longPacket => exact execLongPacket_kept _ _ _ _ _ _ _ _ _ e
  case lineLate => exact execLineLate_kept _ _ _ _ e
  case lineCount => exact execLineCount_kept _ _ _ e
  case lineLock => exact execLineLock_kept _ _ e
  case lineUnlock => exact execLineUnlock_kept _ _ e
  case fsyncFault => exact execFsyncFault_kept _ _ _ e
  case hznApply => exact execHznApply_kept _ _ _ e
  case sheetFrameAdopt => exact execSheetFrameAdopt_kept _ _ _ e
  case resultCopy => exact execResultCopy_kept _ _ _ _ e
  case consumerRead => exact execConsumerRead_kept _ _ _ _ e
  case gap => exact execGap_kept _ _ _ _ _ _ e
  case lockstepMismatch => exact execLockstepMismatch_kept _ _ _ e
  case coreSelftest => exact execCoreSelftest_kept _ _ _ _ e
  case lockstepInput => exact execLockstepInput_kept _ _ _ e
  case debugHalt => exact execDebugHalt_kept _ _ _ e
  case debugWrite => exact execDebugWrite_kept _ _ _ _ _ _ e
  case debugResume => exact execDebugResume_kept _ _ _ e
  case heartbeatSend => exact execHeartbeatSend_kept _ _ e
  case heartbeatReceive => exact execHeartbeatReceive_kept _ _ _ _ e
  case hbLane => exact execHbLane_kept _ _ _ e
  case pairing => exact execPairing_kept _ _ e
  case partnerLost => exact execPartnerLost_kept _ _ e
  case halfDown => exact execHalfDown_kept _ _ _ e
  case restartReq => exact execRestartReq_kept _ _ e
  case halfRestart => exact execHalfRestart_kept _ _ _ _ rfl e
  case serviceReady => exact execServiceReady_kept _ _ e
  case disagreementLimit => exact execDisagreementLimit_kept _ _ _ e
  case leaderRepeat => exact execLeaderRepeat_kept _ _ _ e
  case localise => exact execLocalise_kept _ _ _ e
  case postFp => exact execPostFp_kept _ _ _ e
  case outlierSlice => exact execOutlierSlice_kept _ _ _ e
  case threadSlice => exact execThreadSlice_kept _ _ _ _ e
  case bankMarch => exact execBankMarch_kept _ _ _ _ e
  case slabScoreDecay => exact execSlabScoreDecay_kept _ _ _ e
  case slabRetired => exact execSlabRetired_kept _ _ _ e
  case derate => exact execDerate_kept _ _ _ _ e
  case dirWatchdog => exact execDirWatchdog_kept _ _ e
  case islWatchdog => exact execIslWatchdog_kept _ _ e
  case halfCtlReturn => exact execHalfCtlReturn_kept _ _ _ rfl rfl e
  case halfCtlHoldOut => exact execHalfCtlHoldOut_kept _ _ _ rfl rfl e
  case halfCtlRestart => exact execHalfCtlRestart_kept _ _ _ rfl rfl e
  case halfCtlRetire => exact execHalfCtlRetire_kept _ _ _ rfl rfl e
  case derateClear => exact execDerateClear_kept _ _ _ _ rfl rfl e
  case powerOn => exact execPowerOn_kept _ _ rfl e
  case fuseSense => exact execFuseSense_kept _ _ _ e
  case slateFill => exact execSlateFill_kept _ _ e
  case brownOut => exact absurd rfl (hn _)
  case supplyRange => exact execSupplyRange_kept _ _ _ e
  case regFault => exact execRegFault_kept _ _ _ _ e
  case clockFault => exact execClockFault_kept _ _ e
  case sensorRead => exact execSensorRead_kept _ _ _ _ _ _ e
  case throttleUpdate => exact execThrottleUpdate_kept _ _ e
  case thermalTrip => exact execThermalTrip_kept _ _ e
  case thermalTripHw => exact execThermalTripHw_kept _ _ e
  case flowPulse => exact execFlowPulse_kept _ _ e
  case coolStatusChange => exact execCoolStatusChange_kept _ _ _ e
  case degradedExit => exact execDegradedExit_kept _ _ e
  case ageMeasure => exact execAgeMeasure_kept _ _ _ _ e
  case shutdownBist => exact execShutdownBist_kept _ _ _ _ rfl rfl e
  case shutdown => exact execShutdown_kept _ _ rfl rfl e
  case restart => exact execRestart_kept _ _ rfl rfl e
  case bistDone => exact execBistDone_kept _ _ _ _ _ e
  case dictRead => exact execDictRead_kept _ _ _ _ _ _ _ rfl rfl e
  case dictWrite => exact execDictWrite_kept _ _ _ _ _ _ _ _ rfl rfl e
  case dictCancel => exact execDictCancel_kept _ _ _ rfl rfl e
  case dictTimeout => exact execDictTimeout_kept _ _ e
  case openSession => exact execOpenSession_kept _ _ _ rfl rfl e
  case commit => exact execCommit_kept _ _ _ rfl rfl e
  case discard => exact execDiscard_kept _ _ _ rfl rfl e
  case sessionExpire => exact execSessionExpire_kept _ _ e
  case arm => exact execArm_kept _ _ _ rfl rfl e
  case disarm => exact execDisarm_kept _ _ _ rfl rfl e
  case clear => exact execClear_kept _ _ _ _ rfl rfl e
  case rollbackCommit => exact execRollbackCommit_kept _ _ _ rfl rfl e
  case keyProgram => exact execKeyProgram_kept _ _ _ _ rfl rfl e
  case revokeKey => exact execRevokeKey_kept _ _ _ rfl rfl e
  case attestNonce => exact execAttestNonce_kept _ _ _ rfl rfl e
  case updateImage => exact execUpdateImage_kept _ _ _ rfl rfl e
  case cmd0 => exact execCmd0_kept _ e
  case cmd3 => exact execCmd3_kept _ e
  case cmd5 => exact execCmd5_kept _ _ e
  case cmd7 => exact execCmd7_kept _ _ e
  case cmd11 => exact execCmd11_kept _ e
  case cmd15 => exact execCmd15_kept _ _ e
  case cmd19 => exact execCmd19_kept _ e
  case cmd52 => exact execCmd52_kept _ _ rfl rfl e
  case cmd53 => exact execCmd53_kept _ _ _ rfl rfl e
  case doorbell => exact execDoorbell_kept _ _ rfl rfl e
  case rspRead => exact execRspRead_kept _ e
  case ioAbort => exact execIoAbort_kept _ _ e
  case sdioDataTimeout => exact execSdioDataTimeout_kept _ e
  case canRequest => exact execCanRequest_kept _ _ _ _ _ rfl rfl e
  case emcySend => exact execEmcySend_kept _ _ e
  case busOff => exact execBusOff_kept _ _ e
  case busOffRecovery => exact execBusOffRecovery_kept _ _ e
  case bar0Write t h o l => exact execBar0Write_kept t h o l e
  case bar2Write => exact execBar2Write_kept _ _ _ _ e
  case bar2Read => exact execBar2Read_kept _ _ _ _ e
  case hotReset => exact execHotReset_kept _ _ e
  case pciePerst => exact execPciePerst_kept _ _ e
  case linkUp => exact execLinkUp_kept _ _ _ _ e
  case registerWrite => exact execRegisterWrite_kept _ _ _ _ _ rfl e
  case wheelPulse => exact execWheelPulse_kept _ _ rfl e
  case tallySeal => exact execTallySeal_kept _ _ rfl e
  case hire => exact execHire_kept _ _ rfl e
  case stop => exact execStop_kept _ _ rfl e
  case clearFare => exact execClearFare_kept _ _ rfl e
  case ident => exact execIdent_kept _ _ rfl e
  case imageSegment => exact execImageSegment_kept _ _ _ _ rfl e
  case tallyTick => exact execTallyTick_kept _ rfl e
  case pulseDisagreement => exact execPulseDisagreement_kept _ rfl e
  case tallyFrameSend => exact execTallyFrameSend_kept _ rfl e
  case tallyJournal => exact execTallyJournal_kept _ rfl e
  case tallyPowerUp => exact execTallyPowerUp_kept _ rfl e
  case pairingTimeout => exact execPairingTimeout_kept _ _ e
  case tokenBucketRefill => exact execTokenBucketRefill_kept _ _ _ e
  case bootStageDone => exact execBootStageDone_kept _ _ _ rfl rfl e
  case hdrUe => exact execHdrUe_kept _ _ _ e
  case pcieConfigWrite => exact execPcieConfigWrite_kept _ _ _ _ e
  case msixTableWrite => exact execMsixTableWrite_kept _ _ _ _ e
  case vauxTallyLoss => exact execVauxTallyLoss_kept _ rfl e
  case canRejoin => exact execCanRejoin_kept _ _ e
  case updateWritten => exact execUpdateWritten_kept _ _ e

end Sys2Proof.Machine
end

