-- ==== Sys2Proof/WellFormed.lean ====
section
/-! DEFINITION. What makes a command well formed: every operand inside the range its rule of spec/ gives. -/

namespace Sys2Proof

/-- Job contexts 0 to 255 (R181). -/
def okCtx (n : Nat) : Bool := decide (n < 256)
/-- Partitions 0 to 7 (R7). -/
def okPart (n : Nat) : Bool := decide (n < 8)
/-- Thread groups 0 to 95 (R160). -/
def okGroup (n : Nat) : Bool := decide (n < 96)
/-- Stream contexts 0 to 23 (R257). -/
def okStream (n : Nat) : Bool := decide (n < 24)
/-- Banks 0 to 255 (R174). -/
def okBank (n : Nat) : Bool := decide (n < 256)
/-- Thread contexts 0 to 24,575 (R160). -/
def okThread (n : Nat) : Bool := decide (n < 24576)
/-- Pseudo-channels 0 to 31 (R290). -/
def okPc (n : Nat) : Bool := decide (n < 32)
/-- HBM banks 0 to 47 (R290). -/
def okHbmBank (n : Nat) : Bool := decide (n < 48)
/-- Frame-sync outputs 0 to 3 (R266). -/
def okOutput (n : Nat) : Bool := decide (n < 4)
/-- Result rings 0 to 3 (R279). -/
def okRing (n : Nat) : Bool := decide (n < 4)
/-- Lockstep pairs: Director 0 and 1, island 2 (R352). -/
def okPair (n : Nat) : Bool := decide (n < 3)
/-- Heartbeat lanes 0 and 1 (R358). -/
def okLane (n : Nat) : Bool := decide (n < 2)
/-- Units 0 to 11 (R361, R428). -/
def okUnit (n : Nat) : Bool := decide (n < 12)
/-- Temperature bands 0 to 7 (R390). -/
def okBand (n : Nat) : Bool := decide (n < 8)
/-- Slabs 0 to 271 (R385). -/
def okSlab (n : Nat) : Bool := decide (n < 272)
/-- Receiver ports 0 to 5 (R258). -/
def okPort (n : Nat) : Bool := decide (n < 6)
/-- Virtual channels: 2 bits and the 2 extension bits of a D-PHY header (R254). -/
def okVc (n : Nat) : Bool := decide (n < 16)
/-- Wheel channels 0 and 1 (R489). -/
def okWheel (n : Nat) : Bool := decide (n < 2)
/-- Result parities 0 and 1 (R279). -/
def okParity (n : Nat) : Bool := decide (n < 2)
/-- Core rails 0 to 4 (R428). -/
def okRail (n : Nat) : Bool := decide (n < 5)
/-- Customer key slots 0 and 1 (R483). -/
def okSlot (n : Nat) : Bool := decide (n < 2)
/-- Cooling status bits 0 to 2 (R418). -/
def okCoolBit (n : Nat) : Bool := decide (n < 3)
/-- Image types 0x1 to 0x7 (R484). -/
def okImageType (n : Nat) : Bool := decide (1 ≤ n ∧ n ≤ 7)
/-- A U8 field. -/
def okU8 (n : Nat) : Bool := decide (n < 2 ^ 8)
/-- A U16 field. -/
def okU16 (n : Nat) : Bool := decide (n < 2 ^ 16)
/-- A U32 field. -/
def okU32 (n : Nat) : Bool := decide (n < 2 ^ 32)
/-- A message's data: at most 240 bytes (chapter 14, Messages). -/
def okData (l : List Byte) : Bool := decide (l.length ≤ 240)
/-- An attestation nonce: 32 bytes (R488). -/
def okNonce (l : List Byte) : Bool := l.length == 32
/-- A key hash: 64 bytes (R483). -/
def okHash (l : List Byte) : Bool := l.length == 64
/-- A heartbeat: 128 bytes (R358). -/
def okHeartbeat (l : List Byte) : Bool := l.length == 128
/-- One reading of each of the 72 sensors (R409, R428). -/
def okSensors (l : List Int) : Bool := l.length == 72

/-- A writer's job context is in range. -/
def Writer.wf : Writer → Bool
  | .job ctx _ => okCtx ctx
  | .firmware => true
  | .island => true
  | .host _ => true

/-- The job context of a Dolly port, or of the job the Director works for, is in range. -/
def HbmPort.wf : HbmPort → Bool
  | .dolly ctx => okCtx ctx
  | .horizon => true
  | .director job => (job.map okCtx).getD true
  | .island => true
  | .pcie => true

/-- A command is well formed when every operand lies in its range. -/
def Instr.wf : Instr → Bool
  | .mmul _ _ ctx _ => okCtx ctx
  | .conv _ _ ctx _ => okCtx ctx
  | .tconv _ _ ctx _ => okCtx ctx
  | .pool _ _ ctx => okCtx ctx
  | .rsmp _ _ ctx => okCtx ctx
  | .ewise _ _ ctx => okCtx ctx
  | .norm _ _ ctx => okCtx ctx
  | .attn _ _ ctx _ => okCtx ctx
  | .attb _ _ ctx _ => okCtx ctx
  | .topk _ _ ctx => okCtx ctx
  | .cvt _ _ ctx => okCtx ctx
  | .moveCopy _ _ ctx => okCtx ctx
  | .moveHalo _ _ ctx => okCtx ctx
  | .moveKvPage _ _ ctx => okCtx ctx
  | .moveAtomic _ _ ctx => okCtx ctx
  | .cuew _ _ ctx _ => okCtx ctx
  | .cues _ _ ctx => okCtx ctx
  | .fence _ _ ctx => okCtx ctx
  | .print _ _ printing => okCtx printing.ctx
  | .killComplete _ _ ctx => okCtx ctx
  | .commandWatchdog _ _ ctx => okCtx ctx
  | .cueHoldOverrun _ _ ctx => okCtx ctx
  | .slotOverrun _ _ ctx => okCtx ctx
  | .partReset _ _ part => okPart part
  | .partResetOverrun _ _ part => okPart part
  | .sheetLine _ _ => true
  | .groupDisableDone _ _ group => okGroup group
  | .deadlineMiss _ _ stream frame => okStream stream && okU32 frame
  | .withheld _ _ stream frame => okStream stream && okU32 frame
  | .backupTime _ _ stream frame => okStream stream && okU32 frame
  | .printTokenGrant _ _ ctx _ => okCtx ctx
  | .lineResponse _ _ thread _ _ _ => okThread thread
  | .bankCtlWrite _ _ bank _ who => okBank bank && Writer.wf who
  | .scrubDone _ _ bank => okBank bank
  | .scrubber _ _ _ => true
  | .dollyApply _ _ _ => true
  | .groupCtlWrite _ _ group _ _ => okGroup group
  | .hbmRefresh _ _ pc bank => okPc pc && okHbmBank bank
  | .hbmRetrainStep _ _ pc bank => okPc pc && okHbmBank bank
  | .retrainDue _ _ => true
  | .hbmRetrainLate _ _ => true
  | .hbmTraining _ _ _ _ => true
  | .hbmTempRead _ _ _ => true
  | .hbmReadResponse _ _ port _ _ => HbmPort.wf port
  | .hbmWrite _ _ _ _ _ _ => true
  | .hbmParity _ _ port _ _ => HbmPort.wf port
  | .hbmTimeout _ _ port _ => HbmPort.wf port
  | .hbmApply _ _ _ => true
  | .flitReceive _ _ _ => true
  | .flitReplay _ _ _ => true
  | .creditReturn _ _ part => okPart part
  | .controlMessage _ _ => true
  | .writeComplete _ _ ctx => okCtx ctx
  | .killNotice _ _ ctx => okCtx ctx
  | .ctrDown _ _ => true
  | .ctrDegraded _ _ => true
  | .ctrTrain _ _ => true
  | .ctrRetrain _ _ _ => true
  | .ctrApply _ _ _ => true
  | .protCtlApply _ _ _ _ => true
  | .frameStart _ _ port vc _ => okPort port && okVc vc
  | .frameEnd _ _ port vc _ => okPort port && okVc vc
  | .lineStart _ _ port vc _ => okPort port && okVc vc
  | .longPacket _ _ port vc _ _ _ _ _ => okPort port && okVc vc
  | .lineLate _ _ stream frame => okStream stream && okU32 frame
  | .lineCount _ _ stream => okStream stream
  | .lineLock _ _ => true
  | .lineUnlock _ _ => true
  | .fsyncFault _ _ output => okOutput output
  | .hznApply _ _ _ => true
  | .sheetFrameAdopt _ _ lane => okLane lane
  | .resultCopy _ _ stream parity => okStream stream && okParity parity
  | .consumerRead _ _ ring _ => okRing ring
  | .gap _ _ ring _ _ _ => okRing ring
  | .lockstepMismatch _ _ pair => okPair pair
  | .coreSelftest _ _ pair _ => okPair pair
  | .lockstepInput _ _ pair => okPair pair
  | .debugHalt _ _ pair => okPair pair
  | .debugWrite _ _ pair _ _ _ => okPair pair
  | .debugResume _ _ pair => okPair pair
  | .heartbeatSend _ _ => true
  | .heartbeatReceive _ _ lane bytes => okLane lane && okHeartbeat bytes
  | .hbLane _ _ lane => okLane lane
  | .pairing _ _ => true
  | .partnerLost _ _ => true
  | .halfDown _ _ frames => frames.all (fun f => decide (f.1 < 24) && decide (f.2 < 2 ^ 32))
  | .restartReq _ _ => true
  | .halfRestart _ _ _ _ => true
  | .serviceReady _ _ => true
  | .disagreementLimit _ _ unit => okUnit unit
  | .leaderRepeat _ _ stream => okStream stream
  | .localise _ _ _ => true
  | .postFp _ _ _ => true
  | .outlierSlice _ _ _ => true
  | .threadSlice _ _ group _ => okGroup group
  | .bankMarch _ _ bank _ => okBank bank
  | .slabScoreDecay _ _ slab => okSlab slab
  | .slabRetired _ _ slab => okSlab slab
  | .derate _ _ unit band => okUnit unit && okBand band
  | .dirWatchdog _ _ => true
  | .islWatchdog _ _ => true
  | .halfCtlReturn _ _ _ => true
  | .halfCtlHoldOut _ _ _ => true
  | .halfCtlRestart _ _ _ => true
  | .halfCtlRetire _ _ _ => true
  | .derateClear _ _ _ _ => true
  | .powerOn _ _ => true
  | .fuseSense _ _ _ => true
  | .slateFill _ _ => true
  | .brownOut _ => true
  | .supplyRange _ _ _ => true
  | .regFault _ _ rail _ => okRail rail
  | .clockFault _ _ => true
  | .sensorRead _ _ readings _ _ _ => okSensors readings
  | .throttleUpdate _ _ => true
  | .thermalTrip _ _ => true
  | .thermalTripHw _ _ => true
  | .flowPulse _ _ => true
  | .coolStatusChange _ _ bit => okCoolBit bit
  | .degradedExit _ _ => true
  | .ageMeasure _ _ _ _ => true
  | .shutdownBist _ _ _ _ => true
  | .shutdown _ _ => true
  | .restart _ _ => true
  | .bistDone _ _ _ _ _ => true
  | .dictRead _ _ txn index sub _ _ => okU8 txn && okU16 index && okU8 sub
  | .dictWrite _ _ txn index sub _ _ data => okU8 txn && okU16 index && okU8 sub && okData data
  | .dictCancel _ _ txn => okU8 txn
  | .dictTimeout _ _ => true
  | .openSession _ _ _ => true
  | .commit _ _ _ => true
  | .discard _ _ _ => true
  | .sessionExpire _ _ => true
  | .arm _ _ _ => true
  | .disarm _ _ _ => true
  | .clear _ _ _ ctx => okCtx ctx
  | .rollbackCommit _ _ type => okImageType type
  | .keyProgram _ _ slot hash => okSlot slot && okHash hash
  | .revokeKey _ _ slot => okSlot slot
  | .attestNonce _ _ nonce => okNonce nonce
  | .updateImage _ _ _ => true
  | .cmd0 _ => true
  | .cmd3 _ => true
  | .cmd5 _ _ => true
  | .cmd7 _ _ => true
  | .cmd11 _ => true
  | .cmd15 _ _ => true
  | .cmd19 _ => true
  | .cmd52 _ _ => true
  | .cmd53 _ _ _ => true
  | .doorbell _ _ => true
  | .rspRead _ => true
  | .ioAbort _ _ => true
  | .sdioDataTimeout _ => true
  | .canRequest _ _ _ _ _ => true
  | .emcySend _ _ => true
  | .busOff _ _ => true
  | .busOffRecovery _ _ => true
  | .bar0Write _ _ _ _ => true
  | .bar2Write _ _ _ _ => true
  | .bar2Read _ _ _ _ => true
  | .hotReset _ _ => true
  | .pciePerst _ _ => true
  | .linkUp _ _ _ _ => true
  | .registerWrite _ _ _ _ _ => true
  | .wheelPulse _ channel => okWheel channel
  | .tallySeal _ _ => true
  | .hire _ _ => true
  | .stop _ _ => true
  | .clearFare _ _ => true
  | .ident _ _ => true
  | .imageSegment _ _ _ _ => true
  | .tallyTick _ => true
  | .pulseDisagreement _ => true
  | .tallyFrameSend _ => true
  | .tallyJournal _ => true
  | .tallyPowerUp _ => true
  | .pairingTimeout _ _ => true
  | .tokenBucketRefill _ _ _ => true
  | .bootStageDone _ _ _ => true
  | .hdrUe _ _ port => okPort port
  | .pcieConfigWrite _ _ _ _ => true
  | .msixTableWrite _ _ _ _ => true
  | .vauxTallyLoss _ => true
  | .canRejoin _ _ => true
  | .updateWritten _ _ => true

end Sys2Proof
end

