-- ==== Sys2Proof/Tests/Slice0.lean ====
section
/-! SUPPORT. Tests: the checks of a command's operands, and for each statement a state that meets its premises. A test's
states are small: reset, with what the test needs changed. Expected results come from the rule of spec/ that a test names. -/

open Sys2Proof Sys2Proof.Machine

namespace Sys2Proof.Tests

set_option maxRecDepth 8000
set_option Elab.async false

/-- Reset with Half A changed. -/
def inA (f : HalfState → HalfState) : State := { State.reset with a := f State.reset.a }

/-- Reset at an instant with Half A changed. -/
def atNs (n : Nat) (f : HalfState → HalfState) : State := { State.reset with now := n, a := f State.reset.a }

/-- A premise holds of a state as a command at instant 0 finds it. -/
abbrev Meets (x : State) (p : State → Prop) : Prop := p (x.advance 0)

/-! ### Operands (WellFormed) -/

/-- One ill-formed command for each check of an operand. -/
theorem test_ill_formed_commands_are_refused :
    ([.pool 0 .a 256, .partReset 0 .a 8, .groupDisableDone 0 .a 96, .deadlineMiss 0 .a 24 0, .deadlineMiss 0 .a 0 (2 ^ 32),
      .lineResponse 0 .a 24576 0 0 .ok, .bankCtlWrite 0 .a 256 0 .island, .bankCtlWrite 0 .a 0 0 (.job 256 .secure),
      .hbmRefresh 0 .a 32 0, .hbmRefresh 0 .a 0 48, .hbmReadResponse 0 .a (.dolly 256) 0 { check := .ok }, .fsyncFault 0 .a 4,
      .resultCopy 0 .a 0 2, .consumerRead 0 .a 4 0, .lockstepMismatch 0 .a 3, .hbLane 0 .a 2,
      .heartbeatReceive 0 .a 0 [], .disagreementLimit 0 .a 12, .derate 0 .a 0 8, .slabRetired 0 .a 272, .regFault 0 .a 5 0,
      .sensorRead 0 .a [] 0 0 0, .coolStatusChange 0 .a 3, .dictCancel 0 .sdio 256, .dictRead 0 .sdio 0 65536 0 0 0,
      .dictWrite 0 .sdio 0 0 0 0 true (List.replicate 241 0), .rollbackCommit 0 .sdio 0, .rollbackCommit 0 .sdio 8,
      .revokeKey 0 .sdio 2, .keyProgram 0 .sdio 0 [], .attestNonce 0 .sdio [], .wheelPulse 0 2, .hdrUe 0 .a 6,
      .frameStart 0 .a 0 16 false, .frameStart 0 .a 6 0 false] : List Instr).all (fun i => !i.wf) = true := by decide

/-- The same operands at the ends of their ranges are accepted. -/
theorem test_well_formed_commands_are_accepted :
    ([.pool 0 .a 255, .partReset 0 .a 7, .groupDisableDone 0 .a 95, .deadlineMiss 0 .a 23 (2 ^ 32 - 1),
      .lineResponse 0 .a 24575 0 0 .ok, .bankCtlWrite 0 .a 255 0 (.job 255 .secure), .hbmRefresh 0 .a 31 47,
      .fsyncFault 0 .a 3, .resultCopy 0 .a 0 1, .consumerRead 0 .a 3 0, .lockstepMismatch 0 .a 2, .derate 0 .a 11 7,
      .slabRetired 0 .a 271, .regFault 0 .a 4 0, .sensorRead 0 .a (List.replicate 72 0) 0 0 0, .coolStatusChange 0 .a 2,
      .rollbackCommit 0 .sdio 1, .rollbackCommit 0 .sdio 7, .revokeKey 0 .sdio 1, .wheelPulse 0 1, .hdrUe 0 .a 5,
      .frameStart 0 .a 5 15 false] : List Instr).all (fun i => i.wf) = true := by decide

/-! ### The queue and the whole machine -/

/-- A command at the front of the queue (StepRunsFront), and an empty queue. -/
theorem test_step_runs_front :
    step { State.reset with pending := [.flowPulse 5 .a, .sheetLine 9 .b] } =
      exec (.flowPulse 5 .a) { State.reset with pending := [.sheetLine 9 .b] } ∧ State.reset.pending = [] := by
  exact ⟨rfl, rfl⟩

/-- Canonical memories in a state with a command waiting (StepKeepsCanonicalMemories). -/
theorem test_canonical_premise :
    CanonicalMemories { State.reset with mem := [(3, 1), (9, 255)], pending := [.sheetLine 0 .a] } := by
  unfold CanonicalMemories; decide

/-- Bytes stored over a listed byte (StoredBytesReadBack): the premises, and what the statement says of them. -/
theorem test_stored_bytes :
    Memory.wf [(3, (1 : Byte)), (9, 255)] = true ∧
    ({ State.reset with mem := [(3, 1), (9, 255)] }.writeBytes 8 [7, 0, 5]).mem = [(3, 1), (8, 7), (10, 5)] := by decide

/-- Both halves fenced (FencedHalvesPostNothing), and a command of the list (TallyIsSetApart). -/
theorem test_fenced_and_tally_premises :
    let x := { State.reset with
      a := { State.reset.a with isl := { State.reset.a.isl with fenced := true } }
      b := { State.reset.b with isl := { State.reset.b.isl with fenced := true } } }
    x.live .a = false ∧ x.live .b = false ∧ isTallyRow (.sheetLine 0 .a) = false ∧ isTallyRow (.tallyTick 0) = true := by
  decide

/-- Keys that are burnt (KeyFusesOnlyBurn), and LOCK in effect (RegionLockHolds). -/
theorem test_fuse_and_lock_premises :
    let b : Boot := { custProgrammed := [true, false], custRevoked := [false, true], custHash := [[1], []] }
    (b.custRevoked.getD 1 false = true ∧ b.custProgrammed.getD 0 false = true ∧ b.slotBlank 0 = false) ∧
    let x := inA (fun x => { x with prot := { lock := true } })
    (x.half .a).prot.lock = true ∧ (x.half .a).prot.pending = false ∧
      ∀ u k g, Instr.sheetLine 0 .a ≠ .bootStageDone u k g := by
  refine ⟨by decide, rfl, rfl, ?_⟩
  intro u k g h
  cases h

/-! ### Commands of a job -/

/-- 64-bit words as bytes, low byte first. -/
def wordBytes (l : List Nat) : List Byte := l.flatMap (toLe 8)

/-- A descriptor of one row of `d0` elements with a SPAN of 64 bytes (R106). -/
def rowDesc (base d0 : Nat) : List Byte := wordBytes [base, 64, d0 * 2 ^ 44 + 2 ^ 28 + 2 ^ 12 + 1, 0]

/-- A record of cost 1 ns and CMD_TAG 7 (R99): opcode, the three formats, PARAM, and the A, W, O and AUX pointers. -/
def recordOf (op fa fw fo param a w o x : Nat) : List Byte :=
  wordBytes [op * 2 ^ 56 + fa * 2 ^ 52 + fw * 2 ^ 48 + fo * 2 ^ 44 + 2 ^ 16 + 7, param, a, w, o, x, 0, 0]

/-- A job of context 0 that holds Half A's array, with one record in its queue, threads and a rate. -/
def withJob (record : List Byte) (data : List (Nat × List Byte)) : State :=
  let s := data.foldl (fun s p => s.writeBytes p.1 p.2) (State.reset.writeBytes 0x1000 record)
  let e : JobEntry := { ctx := 0, queueLen := 1, queuePtr := 0x1000, complPtr := 0x5000 }
  ((s.modJob .a 0 (fun j => { j with entry := some e, status := .released })).modDisp .a (fun d =>
    { d with running := some 0 })).modDolly .a (fun d =>
    { d with groups := [(0, { enabled := true })], regHbm := List.replicate 8 1000#64, tokHbm := List.replicate 8 4096000 })

/-- An A operand of the bytes 1 to 4, a W operand of 1, 1, 1, 2, and an output of `n` elements. -/
def operands (n : Nat) : List (Nat × List Byte) :=
  [(0x2000, rowDesc 0x3000 4), (0x2040, rowDesc 0x3100 4), (0x2080, rowDesc 0x4000 n), (0x3000, [1, 2, 3, 4]),
    (0x3100, [1, 1, 1, 2])]

/-- What a row leaves of the job's execution: its phase and the bytes that wait for the print. -/
def stagedBy (s : State) (i : Instr) : Option (ExecPhase × List (Nat × Byte)) :=
  match exec i s with
  | .next t => (t.job .a 0).exec.map (fun e => (e.phase, e.staged))
  | _ => none

def mmulJob : State := withJob (recordOf 0x01 1 1 1 0 0x2000 0x2040 0x2080 0) (operands 1)
def convJob : State := withJob (recordOf 0x02 1 1 1 0x100 0x2000 0x2040 0x2080 0) (operands 1)
def tconvJob : State := withJob (recordOf 0x03 1 1 1 0x100 0x2000 0x2040 0x2080 0) (operands 1)
def poolJob : State := withJob (recordOf 0x04 1 0 1 0 0x2000 0 0x2080 0) (operands 4)
def rsmpJob : State := withJob (recordOf 0x05 1 0 1 0 0x2000 0 0x2080 0) (operands 4)
def ewiseJob : State := withJob (recordOf 0x06 1 1 1 (2 ^ 58) 0x2000 0x2040 0x2080 0) (operands 4)
def normJob : State := withJob (recordOf 0x07 1 0 1 0 0x2000 0 0x2080 0) (operands 4)
def topkJob : State := withJob (recordOf 0x0A 1 0 1 1 0x2000 0 0x2080 0x20C0) (operands 2 ++ [(0x20C0, rowDesc 0x4100 2)])
def cvtJob : State := withJob (recordOf 0x0B 1 0 1 0 0x2000 0 0x2080 0) (operands 4)
def copyJob : State := withJob (recordOf 0x10 1 0 1 0 0x2000 0 0x2080 0) (operands 4)
def fenceJob : State := withJob (recordOf 0x22 0 0 0 0 0 0 0 0) []

/-- MMUL (R116): 1 + 2 + 3 + 2 · 4 = 14, in a row of 4 bytes (R107). -/
theorem test_mmul : stagedBy mmulJob (.mmul 0 .a 0 none) =
    some (.written, [(0x4000, 14), (0x4001, 0), (0x4002, 0), (0x4003, 0)]) := by decide +kernel
/-- CONV with a kernel of one element (R118). -/
theorem test_conv : stagedBy convJob (.conv 0 .a 0 none) =
    some (.written, [(0x4000, 14), (0x4001, 0), (0x4002, 0), (0x4003, 0)]) := by decide +kernel
/-- TCONV with a kernel of one element (R119). -/
theorem test_tconv : stagedBy tconvJob (.tconv 0 .a 0 none) =
    some (.written, [(0x4000, 14), (0x4001, 0), (0x4002, 0), (0x4003, 0)]) := by decide +kernel
/-- POOL's maximum over windows of one element (R120). -/
theorem test_pool : stagedBy poolJob (.pool 0 .a 0) =
    some (.written, [(0x4000, 1), (0x4001, 2), (0x4002, 3), (0x4003, 4)]) := by decide +kernel
/-- RSMP to the same size (R121). -/
theorem test_rsmp : stagedBy rsmpJob (.rsmp 0 .a 0) =
    some (.written, [(0x4000, 1), (0x4001, 2), (0x4002, 3), (0x4003, 4)]) := by decide +kernel
/-- EWISE's sum (R122). -/
theorem test_ewise : stagedBy ewiseJob (.ewise 0 .a 0) =
    some (.written, [(0x4000, 2), (0x4001, 3), (0x4002, 4), (0x4003, 6)]) := by decide +kernel
/-- TOPK (R124): scores 4 and 3, at indexes 3 and 2. -/
theorem test_topk : stagedBy topkJob (.topk 0 .a 0) =
    some (.written, [(0x4000, 4), (0x4001, 3), (0x4002, 0), (0x4003, 0), (0x4100, 3), (0x4101, 0), (0x4102, 0), (0x4103, 0),
      (0x4104, 2), (0x4105, 0), (0x4106, 0), (0x4107, 0)]) := by decide +kernel
/-- CVT between equal formats (R126). -/
theorem test_cvt : stagedBy cvtJob (.cvt 0 .a 0) =
    some (.written, [(0x4000, 1), (0x4001, 2), (0x4002, 3), (0x4003, 4)]) := by decide +kernel
/-- MOVE copies (R195). -/
theorem test_move_copy : stagedBy copyJob (.moveCopy 0 .a 0) =
    some (.written, [(0x4000, 1), (0x4001, 2), (0x4002, 3), (0x4003, 4)]) := by decide +kernel
/-- FENCE writes nothing (R133). -/
theorem test_fence : stagedBy fenceJob (.fence 0 .a 0) = some (.written, []) := by decide +kernel
/-- A row that does not stand for the record does nothing. -/
theorem test_other_row : stagedBy mmulJob (.conv 0 .a 0 none) = none := by decide +kernel

/-- The job holds a thread and has been issued, with two requests to make: what a row of its command finds. -/
def holding (x : State) : State :=
  x.modJob .a 0 (fun j =>
    { j with exec := some { x.newExec .a 0 (x.headChain .a 0) false none with threads := [0], requests := (2, 0) } })

/-- The conditions of Completes, evaluated (the atomics and the results are what the work comes to). -/
def completes (s : State) (e : Exec) (u : Option Upset) : Bool :=
  let v := fetched s .a 0 e
  let s2 := atWork s .a 0 e
  decide (e.requests.1 ≤ (s.half .a).dolly.tokensFor 0 0) && decide (e.requests.2 ≤ (s.half .a).dolly.tokensFor 1 0) &&
    (v.pagesRefused .a 0 e.recs).isNone && (v.decodeFails .a e.recs).isNone && (v.regionFails .a 0 e.recs).isNone &&
    (match v.runChain .a 0 e.wide u e.recs with
     | .done w _ => (e.drained || ((s2.drainPacked .a 0 e w).job .a 0).admitted) && (s2.poolLines .a (linesOf (w.cells ++ w.flow))).isEmpty && !((e.recs.headD (parseRec [])).guard && w.fl.clip)
     | _ => false)

/-- The premises of CommandsWriteResults for row `n` of `jobRows`. -/
def writePremises (x : State) (n : Nat) : Bool :=
  let s := x.advance 0
  match (jobRows 0 .a 0 none none)[n]?, (s.job .a 0).exec with
  | some r, some e =>
    s.live .a && (s.half .a).disp.running == some 0 && e.phase == .resumable && !e.threads.isEmpty &&
      (parseRec e.record).isRow r.1 r.2.1 && completes s e r.2.2.1
  | _, _ => false

/-- The conditions of Issues for row `n` of `jobRows`, evaluated. -/
def issues (x : State) (n : Nat) : Bool :=
  let s := x.advance 0
  match (jobRows 0 .a 0 none none)[n]?, s.headChain .a 0 with
  | some r, p :: l =>
    s.live .a && (s.half .a).disp.running == some 0 && (s.job .a 0).exec.isNone && p.2.isRow r.1 r.2.1 &&
      (s.issueFail .a 0 (p :: l) (s.job .a 0).wideNext).isNone && !(s.crossHalf .a ((p :: l).map (·.2)) none)
  | _, _ => false

/-- The premises of IssuedCommandsWriteResults for row `n` of `jobRows`. -/
def issuedPremises (x : State) (n : Nat) : Bool :=
  let s := x.advance 0
  match (jobRows 0 .a 0 none none)[n]?, s.headChain .a 0 with
  | some r, p :: l =>
    let s1 := (issued s .a 0 (p :: l) none).awaitCue .a 0 p.2
    let s2 := s1.stopEarly .a 0
    match (s1.job .a 0).exec with
    | some e =>
      let plan := (s2.withObjects e.objects).plan .a e.recs
      let free := (s2.half .a).dolly.freeThreads 0 plan.length
      let s3 := s2.takeThreads .a 0 e plan free
      issues x n && e.phase == .resumable && decide (plan.length ≤ free.length) &&
        (match (s3.job .a 0).exec with
         | some f => completes s3 f r.2.2.1
         | none => false)
    | none => false
  | _, _ => false

/-- The premises hold of a command of the array, one of the post unit, and a control command (JobCommandsWrite). -/
theorem test_write_premises :
    ([(mmulJob, 0), (normJob, 6), (fenceJob, 17)] : List (State × Nat)).all (fun p => writePremises (holding p.1) p.2) =
      true := by decide +kernel

/-- One key in a session of 32 elements: V's row is all ones (R204 to R208). -/
def attnJob : State := withJob (recordOf 0x08 9 9 9 0 0x2000 0x2100 0x2080 0)
  [(0x2000, rowDesc 0x3000 32), (0x2080, rowDesc 0x4000 32),
    (0x2100, wordBytes [0x2200, 0x2240, 0x2280, 0, 0, 0, 0x3F80000000000000, 2 ^ 32]),
    (0x2200, wordBytes [0x6000, 1024, 32 * 2 ^ 44 + 16 * 2 ^ 28 + 2 ^ 12 + 1, 0]),
    (0x2240, wordBytes [0x7000, 1024, 32 * 2 ^ 44 + 16 * 2 ^ 28 + 2 ^ 12 + 1, 0]),
    (0x7000, (List.replicate 32 [(0x80 : Byte), 0x3F]).flatten)]

/-- ATTB of one row (R225). -/
def attbJob : State := withJob (recordOf 0x09 9 9 9 0x3F800000 0x2000 0x2100 0x2080 0)
  [(0x2000, rowDesc 0x3000 32), (0x2080, rowDesc 0x4000 32),
    (0x2100, wordBytes [0x2200, 0x2240, 0x2280, 0x22C0, 0x2300, 0x2340, 0x2380, 0]), (0x2200, rowDesc 0x6000 32),
    (0x2240, rowDesc 0x7000 32), (0x2280, rowDesc 0x5000 32), (0x22C0, rowDesc 0x5100 32), (0x2340, rowDesc 0x4100 32),
    (0x2380, rowDesc 0x4200 32), (0x2300, wordBytes [0x3F80000000000000]),
    (0x5100, (List.replicate 32 [(0x80 : Byte), 0x3F]).flatten)]

/-- A move of two elements in atomic mode, of the word 0x0000_0005 to be added to the pool's word 0 (R198). -/
def atomicJob : State := (withJob (recordOf 0x10 3 0 3 (3 * 2 ^ 61) 0x2000 0 0 0)
  [(0x2000, rowDesc 0x3000 2), (0x3000, [5])]).modBank .a 0 (fun b => { b with owned := true })

/-- Both ends of Contrail are up, with a rate. -/
def linked (x : State) : State :=
  ((x.modLink .a (fun l => { l with state := 1 })).modLink .b (fun l => { l with state := 1 })).modDolly .a (fun d =>
    { d with regCtr := List.replicate 8 1000#64, tokCtr := List.replicate 8 4096000 })

/-- A move in halo mode into the partner's pool (R196). -/
def haloJob : State := linked (withJob (recordOf 0x10 1 0 1 (2 ^ 61 + 9) 0x2000 0 0x2080 0)
  [(0x2000, rowDesc 0x3000 4), (0x2080, wordBytes [0x1008000000, 128, 4 * 2 ^ 44 + 2 ^ 28 + 2 ^ 12 + 1, 0]),
    (0x3000, [1, 2, 3, 4])])

/-- A move in KV-page mode: page 0 to page 0 (R197). -/
def kvJob : State := withJob (recordOf 0x10 1 0 1 (2 ^ 62) 0x2000 0 0x2080 0x20C0)
  (operands 4 ++ [(0x20C0, wordBytes [1, 0])])

/-- A wait of value 0 and a signal, on a cue of the partition (R129, R130). -/
def cuewJob : State := (withJob (wordBytes [0x20 * 2 ^ 56 + 2 ^ 16 + 7, 0, 0, 3 * 2 ^ 49, 0, 0, 0, 0]) []).modDisp .a (fun d =>
  { d with cues := [(3, { armed := true, users := 1, ceiling := 0 })] })
def cuesJob : State := (withJob (wordBytes [0x21 * 2 ^ 56 + 2 ^ 16 + 7, 0, 0, 0, 3 * 2 ^ 49 + 2 * 2 ^ 41, 0, 0, 0]) []).modDisp .a
  (fun d => { d with cues := [(3, { armed := true, users := 1, ceiling := 0 })] })

/-- The premises of JobCommandsWrite for ATTB and an atomic move. -/
theorem test_write_premises_of_others :
    ([(attbJob, 8), (atomicJob, 14)] : List (State × Nat)).all (fun p => writePremises (holding p.1) p.2) = true := by decide +kernel

/-- An ATTN passes its checks at issue, and its work comes to an end (its values are free within their bounds). -/
theorem test_attn :
    attnJob.issueFail .a 0 (attnJob.headChain .a 0) false = none ∧
    (match attnJob.runChain .a 0 false none ((attnJob.headChain .a 0).map (·.2)) with
     | .done _ log => log == []
     | _ => false) = true := by decide +kernel

/-- A halo move pushes, and stages nothing of its own half. -/
theorem test_halo_premises :
    writePremises (holding haloJob) 12 = true ∧ ((holding haloJob).advance 0).pushes .a
      (((haloJob.headChain .a 0).map (·.2)).headD (parseRec [])) = true ∧
    stagedBy haloJob (.moveHalo 0 .a 0) = some (.written, []) ∧
    (match exec (.moveHalo 0 .a 0) haloJob with
     | .next t => some ((t.job .a 0).exec.map (·.acksDue), ((t.half .a).link.outData ++ (t.half .a).link.unsent).map (·.bytes.length))
     | _ => none) = some (some 2, [4, 64]) := by decide +kernel

/-- MOVE's atomics are logged and wait for the print (R187). -/
theorem test_atomic :
    (match exec (.moveAtomic 0 .a 0) atomicJob with
     | .next t => (t.job .a 0).exec.map (fun e => (e.phase, e.printLog))
     | _ => none) = some (.written, [5#64]) := by decide +kernel

/-- KV pages, a cue wait that is satisfied at once, and a cue signal. -/
theorem test_kv_and_cues :
    stagedBy kvJob (.moveKvPage 0 .a 0) = some (.written, [(0x4000, 1), (0x4001, 2), (0x4002, 3), (0x4003, 4)]) ∧
    stagedBy cuewJob (.cuew 0 .a 0 none) = some (.written, []) ∧ stagedBy cuesJob (.cues 0 .a 0) = some (.written, []) := by
  decide +kernel

/-- A record without a cost is refused with 0x03 (IssueRefusalFaultsTheJob; R103, R109). -/
theorem test_refusal_premises :
    let x := withJob (wordBytes [0x22 * 2 ^ 56 + 7, 0, 0, 0, 0, 0, 0, 0]) []
    let s := x.advance 0
    (s.issueFail .a 0 (s.headChain .a 0) (s.job .a 0).wideNext = some 3 ∧ (s.headChain .a 0).length = 1 ∧
      (s.headChain .a 0).all (fun p => p.2.isRow .fence none) = true ∧ (s.job .a 0).exec = none ∧ s.live .a = true) ∧
    (match exec (.fence 0 .a 0) x with
     | .next t => some ((t.job .a 0).status, (t.job .a 0).fault)
     | _ => none) = some (.faulted, 3) := by decide +kernel

/-- A command that is issued on an array with no thread for it (IssuedCommandWaitsForThreads). -/
theorem test_waits_for_threads :
    let x := copyJob.modDolly .a (fun d => { d with groups := [] })
    let s := x.advance 0
    let cs := s.headChain .a 0
    let e := s.newExec .a 0 cs false none
    let s1 := (s.modJob .a 0 (fun j => { j with exec := some e, dark := e.outputs })).stopEarly .a 0
    let n := ((s1.withObjects e.objects).plan .a e.recs).length
    (s.issueFail .a 0 cs false = none ∧ s.crossHalf .a (cs.map (·.2)) none = false ∧
      cs.all (fun p => p.2.isRow .move (some 0) && (p.2.cueWait false).isNone) = true ∧
      ((s1.half .a).dolly.freeThreads 0 n).length < n) ∧
    stagedBy x (.moveCopy 0 .a 0) = some (.resumable, []) := by decide +kernel

/-- With its threads and one line's tokens, a command that has two requests to make waits for the second
(CommandsWaitForTokens). -/
theorem test_waits_for_tokens :
    let x := (holding copyJob).modDolly .a (fun d => { d with tokHbm := [64000] })
    (x.half .a).dolly.tokensFor 0 0 = 1 ∧
    (match exec (.moveCopy 0 .a 0) x with
     | .next t => (t.job .a 0).exec.map (fun e => (e.phase, e.requests))
     | _ => none) = some (.resumable, (1, 0)) := by decide +kernel

/-- A wait for value 5 on a cue at 0: the command is parked, the first that waits there (UnmetCueParksCommand). -/
theorem test_unmet_cue_parks :
    let x := (withJob (wordBytes [0x20 * 2 ^ 56 + 2 ^ 16 + 7, 5, 0, 3 * 2 ^ 49, 0, 0, 0, 0]) []).modDisp .a (fun d =>
      { d with cues := [(3, { armed := true, users := 1, ceiling := 0 })] })
    let s := x.advance 0
    let cs := s.headChain .a 0
    (s.issueFail .a 0 cs false = none ∧ s.crossHalf .a (cs.map (·.2)) none = false ∧
      cs.all (fun p => p.2.isRow .cuew none && p.2.cueWait false == some (false, 5) && cueHome p.2.cueIn == .a) = true) ∧
    (match exec (.cuew 0 .a 0 none) x with
     | .next t => some ((t.job .a 0).status, (t.cue 3).waiters.map (·.amount))
     | _ => none) = some (.parked, [5]) := by decide +kernel

/-- The whole way in one row: a command of the array, one of the post unit, a move, and FENCE (IssuedCommandsWriteResults). -/
theorem test_issued_premises :
    ([(mmulJob, 0), (normJob, 6), (copyJob, 11), (fenceJob, 17)] : List (State × Nat)).all (fun p => issuedPremises p.1 p.2) =
      true := by decide +kernel

/-- CUEW, CUES and FENCE issue, with a cue that is met, and stand written (CueCommandsComplete). -/
theorem test_cue_commands_complete :
    ([(cuewJob, 15), (cuesJob, 16), (fenceJob, 17)] : List (State × Nat)).all (fun p =>
      issues p.1 p.2 && ((p.1.advance 0).headChain .a 0).all (fun q =>
        match q.2.cueWait false with
        | some (acq, n) => !acq && cueHome q.2.cueIn == .a && decide (n ≤ (p.1.cue q.2.cueIn).counter)
        | none => true)) = true ∧
    (match exec (.cuew 0 .a 0 none) cuewJob, exec (.cues 0 .a 0) cuesJob, exec (.fence 0 .a 0) fenceJob with
     | .next t, .next u, .next v => [t, u, v].map (fun s => (s.job .a 0).exec.map (fun e => (e.phase, e.threads, e.requests)))
     | _, _, _ => []) = List.replicate 3 (some (.written, [], (0, 0))) := by decide +kernel

/-- An acquiring CUEW takes 2 from a cue at 5, in escrow (CueCommandsComplete; R34, R129). -/
theorem test_cue_command_acquires :
    let x := (withJob (wordBytes [0x20 * 2 ^ 56 + 2 ^ 16 + 7, 2 ^ 32, 0, 3 * 2 ^ 49 + 2 * 2 ^ 41, 0, 0, 0, 0]) []).modDisp
      .a (fun d => { d with cues := [(3, { armed := true, users := 1, ceiling := 0, counter := 5 })] })
    (issues x 15 = true ∧ ((x.headChain .a 0).map (fun p => p.2.cueWait false)) = [some (true, 2)]) ∧
    (match exec (.cuew 0 .a 0 none) x with
     | .next t => some ((t.cue 3).counter, (t.job .a 0).exec.map (·.escrow))
     | _ => none) = some (3, some [(3, 2)]) := by decide +kernel

/-- A FENCE with an early fetch to give back (CueCommandsComplete; R131). -/
theorem test_fence_drops_early_fetch :
    let x := fenceJob.modJob .a 0 (fun j => { j with early := [5] })
    issues x 17 = true ∧ (match exec (.fence 0 .a 0) x with
     | .next t => (t.job .a 0).early
     | _ => [0]) = [] := by decide +kernel

/-- The head record of a job's queue. -/
def headRec (x : State) : Rec := ((x.headChain .a 0).map (·.2)).headD (parseRec [])

/-- An MMUL that accumulates integers, with 1 + 2 + 3 + 2 · 4 in its one sum (MatrixProductsAreExact; R52, R116). -/
theorem test_dot_product :
    let g := mmulJob.gemm (headRec mmulJob) false
    g.c.op = some .mmul ∧ g.exact = true ∧ g.q.outlier = false ∧ g.q.gather = false ∧ g.c.checked = false ∧ g.c.slate = false ∧
      0 < g.o.d0 ∧ exactDot mmulJob g 0 0 = 14 := by decide +kernel

/-- A CVT, an EWISE sum and a POOL maximum without a gather (PostUnitRowsHoldTheirValues), and the moves (MovesCopyRows). -/
theorem test_value_premises :
    let c := headRec cvtJob
    let e := headRec ewiseJob
    let p := headRec poolJob
    let m := headRec copyJob
    let k := headRec kvJob
    let a := headRec atomicJob
    (c.op = some .cvt ∧ e.op = some .ewise ∧ ewiseFunc e.param = 1 ∧ p.op = some .pool ∧ poolKind p.param % 2 = 0 ∧
      (cvtJob.qdesc c.qPtr).gather = false ∧ (ewiseJob.qdesc e.qPtr).gather = false ∧ (poolJob.qdesc p.qPtr).gather = false) ∧
    (m.op = some .move ∧ m.moveMode = 0 ∧ 8 ≤ m.fa.bits ∧ k.op = some .move ∧ k.moveMode = 2 ∧ 8 ≤ k.fa.bits ∧
      a.op = some .move ∧ a.moveMode = 3 ∧ atomicJob.logAtomics .a 0 0 (atomicJob.atomicEntries a) = none) := by decide +kernel

/-- A producer and its consumer that complete (ChainsPassRowsOn; R134, R135), and a run of five bytes across a line in two packets
(PacketsHoldEveryByte; R304). -/
theorem test_chain_and_packets :
    (match cvtJob.runChain .a 0 false none [headRec cvtJob, headRec cvtJob], cvtJob.runChain .a 0 false none [headRec cvtJob] with
     | .done w _, .done v _ => w.cells == v.cells ++ v.cells || w.cells == v.cells
     | _, _ => false) = true ∧
    (runPackets 0 false [(60, [1, 2, 3, 4, 5])]).map (fun p => (p.addr, p.bytes)) = [(60, [1, 2, 3, 4]), (64, [5])] := by
  decide +kernel

/-! ### Cues, prints and the end of a command -/

/-- A counter of 5 and two waiters of one partition: the first takes 3, the second must wait (R336). -/
theorem test_grants :
    grants 5 [] [{ ctx := 1, acquire := true, amount := 3 }, { ctx := 2, acquire := true, amount := 3 },
      { ctx := 33, acquire := true, amount := 2 }] =
      ([{ ctx := 1, acquire := true, amount := 3 }, { ctx := 33, acquire := true, amount := 2 }], 0) := by decide +kernel

/-- A signal within the range, and one above it (SignalAddsAndSaturates; R335). -/
theorem test_signal :
    let x := inA (fun x => { x with disp := { x.disp with cues := [(3, { counter := 0xFFFFFFFE })] } })
    (x.cue 3).waiters = [] ∧ ((x.signalCue 0 0 0 3 1).cue 3).counter = 0xFFFFFFFF ∧
      ((x.signalCue 0 0 0 3 7).cue 3).counter = 0xFFFFFFFF ∧ ((x.signalCue 0 0 0 3 7).half .a).isl.logCount = 1 := by
  decide +kernel

/-- A command of context 0 in a phase, on Half A's array, with a job entry whose ring lies at 0x5000. -/
def inPhase (e : Exec) : State :=
  let en : JobEntry := { ctx := 0, queueLen := 2, queuePtr := 0x1000, complPtr := 0x5000, retakeLimit := 3 }
  atNs 30000000 (fun x => { x with disp := { x.disp with
    running := some 0, jobs := [(0, { entry := some en, status := .released, exec := some e, kills := 3 })] } })

/-- The fields of a status (R110). -/
theorem test_status_word :
    statusWord { tag := 0x1234, wide := true } 5 { clip := true } = 0x123400050000A000 := by decide

/-- A written command that may print: the premises of PrintTakesEffect, and what it leaves (R29, R110). -/
theorem test_print :
    let s := inPhase { phase := .written, staged := [(0x4000, 9)], tag := 7, outputs := [{ base := 0x4000, len := 64 }] }
    let e : Exec := { phase := .written, staged := [(0x4000, 9)], tag := 7, outputs := [{ base := 0x4000, len := 64 }] }
    (Memory.wf s.mem = true ∧ s.live .a = true ∧ (s.job .a 0).exec = some e ∧ e.acksDue = 0 ∧ e.hbmDue = [] ∧
      s.scrubHolds .a e = false ∧ s.gate .a 0 e = .print ∧ e.halo = none ∧ (s.job .a 0).entry.isSome = true) ∧
    (match exec (.print 0 .a { ctx := 0 }) s with
     | .next t => some (t.readByte 0x4000, t.readLe 0x5000 8)
     | _ => none) = some (9, 0x0007000000000000) := by decide +kernel

/-- A stream 0 on port 0 and virtual channel 0 of data type 0x2A, whose RES_CUE_0 is cue 8, named by an armed sheet. -/
def streamCfg : StreamCfg := { ctl := BitVec.ofNat 64 (2 ^ 63 + 0x2A * 2 ^ 51 + 1 * 2 ^ 41), res := BitVec.ofNat 64 (8 * 2 ^ 49) }
def withStream (k : Stream) (x : HalfState) : HalfState :=
  { x with
    disp := { x.disp with
      sheetState := 1
      active := some { streams := [{ context := 0, jobCtx := 0, timeNs := 100 }], slots := [{ lengthM1 := 1124, selftest := true }] } }
    hzn := { x.hzn with streams := [(0, k)], ports := [(0, { ctl := BitVec.ofNat 64 (2 ^ 63) })] } }

/-- The record of a result command of stream 0: it signals the stream's result cue of even frames. -/
def resultRecord : List Byte :=
  wordBytes [0x21 * 2 ^ 56 + 2 ^ 16 + 7, 0, 0, 0, streamCfg.resCue 0 * 2 ^ 49 + 2 ^ 41, 0, 0, 0]

/-- A written result command, with the frame it is for. -/
def resultState (f : Frame) : State :=
  let x := inPhase { phase := .written, record := resultRecord }
  { x with a := withStream { cfg := streamCfg, frames := [f] } x.a }

/-- Print held back: for a token, and for a frame that is marked (PrintIsHeldBack; R277, R343). -/
theorem test_print_gates :
    let e : Exec := { phase := .written, record := resultRecord }
    let s := (resultState { seq := 4 }).advance 0
    let u := (resultState { seq := 4, mark := 2 }).advance 0
    (s.job .a 0).exec = some e ∧ s.gate .a 0 e = .wait ∧ s.scrubHolds .a e = false ∧ s.live .a = true ∧
      u.gate .a 0 e = .stop ∧ (u.job .a 0).exec = some e := by decide +kernel

/-- A kill of a written command, and a teardown of a job without one (KillAndTeardown; R36, R346). -/
theorem test_kill_and_teardown :
    let s := inPhase { phase := .written, staged := [(0x4000, 9)], outputs := [{ base := 0x4000, len := 64 }] }
    (s.job .a 0).exec.map (·.phase) = some .written ∧ ((s.kill .a 0 .same).job .a 0).kills = 4 ∧ (s.job .a 1).exec = none ∧
      ((s.teardown .a 1 0x21 0 0).job .a 1).status = .faulted := by decide +kernel

/-- The end of a kill, and one whose notice is still to be delivered (KilledCommandIsRetaken; R37, R308). -/
theorem test_retake :
    let e : Exec := { phase := .killing, retake := .same, threads := [3] }
    let s := (inPhase e).advance 0
    (s.live .a = true ∧ (s.job .a 0).exec = some e ∧ (s.job .a 0).status ≠ .teardown ∧ (s.job .a 0).deferredRelease = false ∧
      s.noticeDue .a 0 = false ∧ (s.half .a).disp.armRest = none ∧ e.escrow = [] ∧
      (s.modLink .a (fun l => { l with outbox := [.killed 0] })).noticeDue .a 0 = true) ∧
    (match exec (.killComplete 0 .a 0) (inPhase e) with
     | .next t => some ((t.job .a 0).retakes, (t.job .a 0).queueIndex)
     | _ => none) = some (1, 0) := by decide +kernel

/-- The command watchdog before its limit and at it, first and second time (WatchdogExpiry; R103, R365). -/
theorem test_watchdog :
    let e : Exec := { phase := .resumable, startedAt := 29999999, budget := 16 }
    let s := (inPhase e).advance 0
    let u := s.modJob .a 0 (fun j => { j with expiries := 1 })
    let early := (inPhase { e with budget := 17 }).advance 0
    (s.live .a = true ∧ (s.job .a 0).exec = some e ∧ (s.half .a).suspended = false ∧ (s.job .a 0).expiries = 0) ∧
      e.budget ≤ 16 * (s.now - e.startedAt) ∧ (u.job .a 0).expiries ≠ 0 ∧
      16 * (early.now - e.startedAt) < 17 := by decide +kernel

/-- A hold in its last line and one line later, and a command at its RETAKE_LIMIT (WatchdogsAndOverruns; R333, R345). -/
theorem test_overruns :
    let x := inPhase {}
    let d := fun (n : Nat) => { x with a := { x.a with
      disp := { x.a.disp with sheetState := 1, active := some { holdMax := 2 }, deferredPreempt := [(1, 9, 9), (0, 2, 100)] }
      hzn := { x.a.hzn with lines := n, lineStart := 29999901 } } }
    let run := fun (n : Nat) => match exec (.cueHoldOverrun 0 .a 0) (d n) with
      | .next t => (t.job .a 0).fault
      | _ => 0
    ((d 4).live .a = true ∧ ((d 4).half .a).disp.deferredPreempt.find? (fun p => p.1 == 0) = some (0, 2, 100) ∧
      ((d 4).half .a).sheet.map (·.holdMax) = some 2 ∧ (run 4, run 5) = (0, 0x27)) ∧
    ((d 4).job .a 0).entry.map (·.retakeLimit) = some 3 ∧ ((d 4).job .a 0).kills = 3 ∧ ((d 4).job .a 0).active = true := by
  decide +kernel

/-- A partition whose teardown lasts 10 µs and more (PartResetClearsPartition; R347), and one that has lasted 40 µs. -/
theorem test_part_reset :
    let x := inPhase { phase := .killing }
    let s := x.modJob .a 0 (fun j => { j with status := .teardown, teardownAt := some 100 })
    s.live .a = true ∧ s.teardownOver .a 0 10000 = true ∧ s.teardownOver .a 0 40000 = true ∧ s.teardownOver .a 1 40000 = false := by
  decide +kernel

/-- A parked acquisition that comes first in the order of R336, and a staged byte with a signal to an own cue on which nothing waits
and one of the partner's (FirstAcquisitionIsGranted, PrintTakesEffect; R128, R336). -/
theorem test_grant_and_print_premises :
    let w : Waiter := { ctx := 0, acquire := true, amount := 3 }
    let s := (inPhase { phase := .parked }).modCue 5 (fun c => { c with counter := 4, waiters := [{ w with ctx := 40 }, w] })
    let b := wordBytes [0x21 * 2 ^ 56, 0, 0, 0, 7 * 2 ^ 49 + 2 ^ 41, 0x4003 * 2 ^ 49 + 2 * 2 ^ 41, 0, 0]
    let e : Exec := { phase := .written, record := b }
    let r := e.recs.getLastD (parseRec [])
    let p := linked (inPhase e)
    (byPartition (s.cue 5).waiters = [w, { w with ctx := 40 }] ∧ w.amount ≤ (s.cue 5).counter ∧ w.half = cueHome 5 ∧
      (s.job w.half w.ctx).exec = some { phase := .parked }) ∧
    ((s.evalCue 5).cue 5).counter = 1 ∧
    r.signals.filter (fun p => p.1 == 7) = [(7, 1)] ∧ r.signals.filter (fun p => p.1 == 0x4003) = [(0x4003, 2)] ∧
      cueHome 7 = .a ∧ cueHome 0x4003 ≠ .a ∧ (p.cue 7).waiters = [] ∧ p.linkUp .a = true ∧ p.gate .a 0 e = .print := by
  decide +kernel

/-- Two adds to the word at 0, the first of whose lines is corrected, and one to a word that cannot be corrected (AtomicsExecute;
R176, R188, R202). -/
theorem test_atomics_execute :
    let s := State.reset.writeBytes (poolBase .a) [0xFE, 0xFF, 0xFF, 0x7F]
    let x := s.runAtomics .a 0 [.corrected 3] [1#64, 5#64]
    let y := s.runAtomic .a 0 (.uncorrectable 0 9) 1#64
    (x.1.readLe (poolBase .a) 4, x.2.clip, (x.1.bank .a 0).ceCount) = (0x7FFFFFFF, true, 1) ∧
      (y.1.mem = s.mem ∧ (y.1.bank .a 0).ueCount = 1 ∧ (y.1.half .a).isl.logCount = 1) ∧
      (s.runAtomic .a 0 .ok (BitVec.ofNat 64 (2 ^ 62 + 0x3F800000))).2.nan = true := by decide +kernel

/-- A tag line with another TAG than the job expects faults the job; the expected one does not (PrintTakesEffect; R245). -/
theorem test_print_checks_halo :
    let e : Exec := { phase := .written, halo := some (0x7000, 9), escrow := [(7, 2)] }
    let run := fun (tag : Byte) => match exec (.print 0 .a { ctx := 0 }) ((inPhase e).writeBytes 0x7000 [tag, 0, 0, 0, 1]) with
      | .next t => ((t.job .a 0).fault, (t.cue 7).counter)
      | _ => (1, 1)
    (run 9, run 8) = ((0, 0), (0x24, 0)) := by decide +kernel

/-- A killed command of context 0 whose notice is delivered, with a job status, what it names, and an amount of the partner's cue
0x4003 (KillOver; R34, R36). -/
def killedOf (k : RetakeKind) (st : JobStatus) (late : Bool) (rel : Nat) : State :=
  (inPhase { phase := .killing, retake := k, threads := [3], escrow := [(0x4003, 2)], wideRecord := recordOf 0x22 0 0 0 0 0 0 0 0 }).modJob .a 0
    (fun j => { j with status := st, fault := 0x26, deferredRelease := late, entry := j.entry.map (fun e => { e with release := rel }) })

/-- The ends of a kill: retaken, run ended (and released again where it is continuous), torn down, and released late
(KilledCommandIsRetaken; R37, R38, R321, R346). -/
theorem test_kill_ends :
    let s := (killedOf .same .running false 0).advance 0
    let run := fun (x : State) => match exec (.killComplete 0 .a 0) x with
      | .next t => some ((t.job .a 0).exec.isSome, (t.job .a 0).retakes, (t.cue 0x4003).counter)
      | _ => none
    let status := fun (x : State) => match exec (.killComplete 0 .a 0) (x.modDisp .a (fun d => { d with sheetState := 0 })) with
      | .next t => some ((t.job .a 0).status, (t.job .a 0).fault)
      | _ => none
    (s.live .a = true ∧ s.noticeDue .a 0 = false ∧ (s.half .a).disp.armRest = none ∧ (s.cue 0x4003).waiters = [] ∧
      cueHome 0x4003 ≠ .a) ∧
    run (killedOf .same .running false 0) = some (false, 1, 2) ∧ run (killedOf .none .running false 0) = some (false, 0, 2) ∧
    [status (killedOf .none .running false 0), status (killedOf .none .running false 1), status (killedOf .none .teardown false 0),
      status (killedOf .same .teardown true 0), status (killedOf .same .idle true 0)] =
      [some (.idle, 0x26), some (.released, 0x26), some (.faulted, 0x26), some (.released, 0x26), some (.released, 0x26)] := by
  decide +kernel

/-- The wide variant goes on with the command's escrow, and one that fails a check of its own is torn down with that check's code
(KilledCommandIsRetaken; R89, R90). -/
theorem test_kill_ends_wide :
    let run := fun (x : State) => match exec (.killComplete 0 .a 0) x with
      | .next t => ((t.job .a 0).fault, (t.job .a 0).exec.map (fun (e : Exec) => (e.wide, e.escrow)), (t.half .a).isl.logCount)
      | _ => (1, none, 9)
    let bad := (killedOf .wide .running false 0).modJob .a 0 (fun j => { j with exec := j.exec.map (fun e => { e with wideRecord := [] }) })
    run (killedOf .wide .running false 0) = (0x26, some (true, [(0x4003, 2)]), 1) ∧ (run bad).1 = 1 := by decide +kernel

/-- A new acquisition behind one of its partition, and one of another partition; and a raised counter that satisfies a wait
and then grants by partition (CueGrantsConserve; R336). -/
theorem test_cue_operations :
    let w : Waiter := { ctx := 33, acquire := true, amount := 2 }
    let s := (inPhase { phase := .parked }).modCue 5 (fun c => { c with counter := 3, waiters := [w, { ctx := 0, amount := 4 }] })
    let t := s.raiseCue 5 1
    ((s.askCue { w with ctx := 34 } 5).1, (s.askCue { w with ctx := 1 } 5).1, (s.askCue { w with acquire := false } 5).1) =
      (false, true, true) ∧
    ((t.cue 5).counter, (t.cue 5).waiters.length, (t.job .a 0).satisfied) = (2, 0, true) := by decide +kernel

/-! ### Threads, token buckets, groups, banks and HBM -/

/-- A thread of context 0 that awaits generation 1, and a line of the half's own pool (LineResponseFollowsItsCheck). -/
theorem test_line_response :
    let y := inPhase { phase := .resumable }
    let x := y.modThread .a 5 (fun _ =>
      { busy := true, generated := 3, delivered := 1, total := 3, desc0 := 0x40000000, desc1 := 0x0000000100000002 })
    let s := x.advance 0
    (s.live .a = true ∧ (s.thread .a 5).awaits 1 = true ∧ s.threadLives .a 5 (s.thread .a 5).ctx = true ∧
      s.requestLine .a (s.thread .a 5) 1 = some (0x1000000000 / 64) ∧
      s.reaches .a (s.thread .a 5) 0x1000000000 = true ∧ s.target 0x1000000000 = .bankPool .a) ∧
    (match exec (.lineResponse 0 .a 5 1 0x1000000000 (.corrected 3)) x with
     | .next t => some ((t.bank .a 0).ceCount, (t.thread .a 5).delivered)
     | _ => none) = some (1, 2) := by decide +kernel

/-- Generation 2 returns before generation 1 (ResponsesInOrder; R163). -/
theorem test_response_order :
    let t : Thread := { busy := true, generated := 3, delivered := 1, returned := [2], total := 4 }
    t.awaits 1 = true ∧ t.returned.Nodup ∧ (∀ g ∈ t.returned, t.delivered < g ∧ g < t.delivered + 8) ∧
      (Thread.answer 1 t).delivered = 3 ∧ (Thread.answer 2 { t with returned := [] }).delivered = 1 := by decide

/-- A refill of 5 ns at 1,000 bytes per µs, and the scrubber at a bank's last line (RefillAndScrubber; R169, R178). -/
theorem test_refill_and_scrubber :
    let x := atNs 30000000 (fun x => { x with dolly := { x.dolly with
      regHbm := List.replicate 8 (BitVec.ofNat 64 (64 * 2 ^ 52 + 1000)), scrubBank := 255, scrubLine := 8191 } })
    x.live .a = true ∧
    (match exec (.tokenBucketRefill 0 .a 5) x with
     | .next t => some ((t.half .a).dolly.tokHbm.getD 7 0, (t.half .a).dolly.refilledAt)
     | _ => none) = some (5000, 5) ∧
    (match exec (.scrubber 0 .a (.corrected 9)) x with
     | .next t => some ((t.half .a).dolly.scrubBank, (t.half .a).dolly.scrubLine, (t.bank .a 255).ceCount)
     | _ => none) = some (0, 0, 1) := by decide +kernel

/-- A group that is enabled, one that is not, and LOCK in effect or not (RegisterWritesOfDolly). -/
theorem test_register_premises :
    let x := inA (fun x => { x with
      dolly := { x.dolly with groups := [(95, { enabled := true })] }, prot := { lock := true } })
    let y := inA (fun x => { x with dolly := { x.dolly with groups := [(2, { enabled := true, disabling := true })] } })
    let v : BitVec 32 := 0x80000000
    (x.live .a = true ∧ ((x.half .a).dolly.group 95).enabled = true ∧ flag v.toNat 31 = true ∧ (x.half .a).prot.lock = true) ∧
    (¬(((x.half .a).dolly.group 0).enabled = true ∧ flag v.toNat 31 = true) ∧ (y.half .a).prot.lock = false) ∧
    ((y.half .a).dolly.group 2).disabling = true ∧ ((y.half .a).dolly.group 2).active = 0 ∧
      ¬(((x.half .a).dolly.group 0).disabling = true ∧ ((x.half .a).dolly.group 0).active = 0) := by decide +kernel

/-- Bank 255 owned by context 33, and a handover with SCRUB (BankHandover; R181, R183). -/
theorem test_bank_handover :
    let x := inA (fun x => { x with dolly := { x.dolly with
      banks := [(255, { owned := true, ownerPart := 1, ownerRole := 1 })] } })
    (x.supplied .a = true ∧ Memory.wf x.mem = true ∧ (x.bank .a 255).ownedBy 33 = true ∧ x.bankBusy .a 255 = false ∧
      (x.bank .a 255).ownedBy 34 = false) ∧
    (match exec (.bankCtlWrite 0 .a 255 0xA0000041 (.job 33 .secure)) x with
     | .next t => some (t.bank .a 255)
     | _ => none) = some { owned := true, scrubbing := true, ownerPart := 2, ownerRole := 1 } := by decide +kernel

/-- Refresh, retraining due, late and trained (HbmUpkeep; R294 to R296). -/
theorem test_hbm_upkeep_premises :
    let x := atNs 3000000000 (fun x => { x with hbm := { x.hbm with train := 2, dueSince := some 1000000000 } })
    let y := inA (fun x => { x with hbm := { x.hbm with train := 1 } })
    (x.supplied .a = true ∧ (tget ({} : HbmQueue) (x.half .a).hbm.queues 31).holds x.now 47 = false ∧
      (x.half .a).hbm.retrainDue = false ∧ (x.half .a).hbm.passAt + 1000000000 ≤ x.now ∧
      (x.half .a).hbm.dueSince = some 1000000000 ∧ 1000000000 + 1000000000 ≤ x.now ∧ (x.half .a).hbm.retrainLate = false) ∧
    (y.half .a).hbm.train < 2 ∧
    (match exec (.hbmTraining 0 .a true 70) y with
     | .next t => some ((t.half .a).hbm.train, (t.half .a).hbm.lanesRepaired)
     | _ => none) = some (2, 63) := by decide +kernel

/-- A retraining window, with 15 steps made on one pseudo-channel (RetrainStepAndPass; R295). -/
theorem test_retrain_step :
    let x := atNs 30000 (fun x => { x with
      disp := { x.disp with sheetState := 1, active := some { slots := [{ lengthM1 := 1124, retrain := true }] } }
      hbm := { x.hbm with train := 2, retrainDue := true, queues := [(4, { steps := 15, lastStepAt := some 25000 })] } })
    let q := tget ({} : HbmQueue) (x.half .a).hbm.queues 4
    (x.live .a = true ∧ (x.half .a).hbm.retrainDue = true ∧ (x.half .a).retrainWindow = true ∧ q.steps < 16 ∧
      q.lastStepAt = some 25000 ∧ 25000 + 5000 ≤ x.now ∧ q.holds x.now 3 = false) ∧
    (match exec (.hbmRetrainStep 0 .a 4 3) x with
     | .next t => some (tget ({} : HbmQueue) (t.half .a).hbm.queues 4).steps
     | _ => none) = some 16 := by decide +kernel

/-- A read and writes of the half's own stack (HbmReadsAndWrites; R297, R298). -/
theorem test_hbm_accesses :
    let x := inA id
    (x.target 0x40 = .hbm .a ∧ x.supplied .a = true ∧ x.live .a = true ∧ (x.half .a).hbmServed = true ∧
      64000 ≤ (x.half .a).hbm.tokPort.getD 1 0 ∧ (x.half .a).admits .firmware true true 0x40 4 = true ∧
      x.targetOf { base := 0x40, len := 4 } = .hbm .a) ∧
    (match exec (.hbmWrite 0 .a (.director none) 0x40 [1, 2, 3, 4] .ok) x with
     | .next t => t.mem
     | _ => []) = [(0x40, 1), (0x41, 2), (0x42, 3), (0x43, 4)] ∧
    (match exec (.hbmReadResponse 0 .a .horizon 0x40 { check := .corrected }) x with
     | .next t => (t.half .a).hbm.pcErr.map (fun p => p.2.ce)
     | _ => []) = [1] := by decide +kernel

/-- A request of a Dolly command that is 20 µs old, and one that is not (HbmErrorEvents; R299). -/
theorem test_hbm_timeout_premises :
    let e : Exec := { phase := .written, hbmDue := [0x40], writtenAt := 10 }
    let late := inPhase e
    let soon := { late with now := 20009 }
    late.live .a = true ∧ late.target 0x40 = .hbm .a ∧ (late.job .a 0).exec = some e ∧ e.awaits 0x40 = true ∧
      e.admittedAt 0x40 + 20000 ≤ late.now ∧ soon.now < e.admittedAt 0x40 + 20000 := by decide +kernel

/-- Applies that were written, each with its set (ApplyTakesWhatWasWritten; R13). -/
theorem test_applies_take :
    let d : Dolly := { applyPending := true, takeHbm := [5], stagedHbm := [6] }
    let m : Hbm := { applyPending := true, takePort := 0x40, stagedPort := 0x80 }
    let l : Link := { applyPending := true, takeShare := [9], stagedShare := [8] }
    let p : Prot := { pending := true, takeEnforce := true, takeLock := true }
    (d.apply.regHbm, d.apply.stagedHbm) = ([5], [6]) ∧ m.apply.hznPrio = 1 ∧ l.apply.share = [9] ∧
      (p.apply.enforce, p.apply.lock, p.apply.pending) = (true, true, false) := by decide

/-- The other clauses of HbmAccesses: no tokens, a late response, a stack that failed training, a refused host write
(R293, R296, R299, R314). -/
theorem test_hbm_access_clauses :
    let x := inA (fun x => { x with hbm := { x.hbm with tokPort := [0, 64000, 64000], late := [(.dolly 3, 0x40)] } })
    let bad := x.modHbm .a (fun m => { m with train := 3 })
    let shut := x.modProt .a (fun p => { p with enforce := true })
    let run := fun (s : State) (p : HbmPort) => match exec (.hbmWrite 0 .a p 0x40 [1] .ok) s with
      | .next t => (t.mem.length, (t.half .a).isl.logCount, (t.half .a).hbm.late.length)
      | _ => (9, 9, 9)
    (x.portReady .a .horizon 1 = false ∧ x.discards .a (.dolly 3) 0x40 false = true ∧ x.levelRoom .a .island 0x40 1 = true ∧
      (bad.half .a).hbmServed = false ∧ shut.portAdmits .a (.director none) true 0x40 1 = false ∧
      x.portAdmits .a (.dolly 3) true 0x40 1 = true) ∧
    [run x .horizon, run x (.dolly 3), run bad .island, run shut (.director none), run x (.director none)] =
      [(0, 0, 1), (0, 0, 0), (0, 1, 1), (0, 0, 1), (1, 0, 1)] := by decide +kernel

/-- Two banks with requests of two levels, the more urgent one later in turn; and one whose urgent bank is held (PickIsMostUrgent;
R292). -/
theorem test_pick :
    let q : HbmQueue := { pointer := 3, reqs := [{ bank := 4, level := 2 }, { bank := 1, level := 1 }, { bank := 4, level := 0 }] }
    (List.range 4).findSome? (q.ready 0) = some { bank := 1, level := 1 } ∧ (q.pick 0).pointer = 2 ∧
      (List.range 4).findSome? ({ q with blocked := [(1, 9)] }.ready 0) = some { bank := 4, level := 2 } := by decide +kernel

/-- Reads of the half's own stack: served, with its bank held, without room in its level, without tokens, discarded (HbmReads). -/
theorem test_hbm_read_premises :
    let x := inA id
    let q := fun (f : HbmQueue → HbmQueue) => x.modPc .a (hbmPc (hbmOffset .a 0x40)) f
    let held := q (fun q => { q with blocked := [(hbmBank (hbmOffset .a 0x40), 100)] })
    let full := q (fun q => { q with reqs := List.replicate 64 {}, pickedAt := 9 })
    let dry := x.modHbm .a (fun m => { m with tokPort := [0, 0, 0] })
    (x.serveRead .a .horizon 0x40).2 = true ∧ x.portAdmits .a .horizon false 0x40 64 = true ∧
      (x.modProt .a (fun p => { p with enforce := true })).portAdmits .a .horizon false 0x40 64 = false ∧ x.discards .a .horizon 0x40 false = false ∧ x.portReady .a .horizon 1 = true ∧
      x.levelRoom .a .horizon 0x40 1 = true ∧
    (held.serveRead .a .horizon 0x40).2 = false ∧ held.levelRoom .a .horizon 0x40 1 = true ∧
    full.readQueued .a .horizon 0x40 = false ∧ full.levelRoom .a .horizon 0x40 1 = false ∧
    dry.portReady .a .horizon 1 = false ∧ x.discards .a .horizon 0x40 true = true := by decide +kernel

/-- A port that owes a line's tokens pays it before it holds any (RefillAddsTokens; R293). -/
theorem test_owed_tokens :
    let x := atNs 30000000 (fun x => { x with hbm := { x.hbm with tokPort := [0, 0, 0], owed := [64000, 0, 0] } })
    x.live .a = true ∧ (match exec (.tokenBucketRefill 0 .a 1) x with
     | .next t => some ((t.half .a).hbm.tokPort.getD 0 0, (t.half .a).hbm.owed.getD 0 0)
     | _ => none) = some (0, 64000 - portCaps.getD 0 0) := by decide +kernel

/-- A line for the K feed of an ATTN whose page table names a page it has not, and of one whose table passes (LineResponseFollowsItsCheck;
R212). -/
theorem test_page_table_precedes_its_lines :
    let x := fun (page : Nat) => ((attnJob.writeBytes 0x2280 (toLe 4 page)).modJob .a 0 (fun j =>
        { j with exec := some { phase := .resumable, record := recordOf 0x08 9 9 9 0 0x2000 0x2100 0x2080 0 } })).modThread .a 5 (fun _ =>
      { busy := true, generated := 3, delivered := 1, total := 3, desc0 := 0x0400000000000000, lines := some [0x180, 0x180, 0x180] })
    let s := x 7
    (s.live .a = true ∧ (s.thread .a 5).awaits 1 = true ∧ s.requestLine .a (s.thread .a 5) 1 = some (0x6000 / 64) ∧
      s.tableRefused .a 5 (s.thread .a 5) = some 1 ∧ (x 0).tableRefused .a 5 ((x 0).thread .a 5) = none) ∧
    (match exec (.lineResponse 0 .a 5 1 0x6000 .ok) s with
     | .next t => some ((t.job .a 0).fault, (t.job .a 0).status)
     | _ => none) = some (0x23, .teardown) := by decide +kernel

/-! ### Contrail -/

/-- A packet of context 0 of Half A for the first line of bank 0 of Half B's pool. -/
def packet : LinkPacket := { ctx := 0, addr := 0x1008000000, bytes := [1, 2, 3] }

/-- Both ends up, with a packet on its way from Half A to Half B. -/
def onTheWay : State := (linked State.reset).modLink .a (fun l => { l with outData := [packet] })

/-- A flit's premises at the receiver and the replay's at the sender (FlitsInOrder; R305). -/
theorem test_flits :
    (onTheWay.live .b = true ∧ onTheWay.carries .a = true ∧ (onTheWay.half .b).link.naked = false ∧
      (onTheWay.half .a).link.outData = [packet]) ∧
    (let x := onTheWay.modLink .b (fun l => { l with naked := true })
     (x.half .b).link.naked = true ∧ x.live .a = true ∧ x.carries .a = true) ∧
    (match exec (.flitReceive 0 .b .ok) onTheWay with
     | .next t => some ((t.half .b).link.writeQueue, (t.half .a).link.outData)
     | _ => none) = some ([], []) := by decide +kernel

/-- A packet in the partner's queue: owned and admitted, not owned, not admitted, and behind a scrub; and an acknowledgement
that is the partner's next message (WriteCompleteStoresPacket; R182, R185, R307, R314). -/
theorem test_write_complete :
    let x := (linked (inPhase { phase := .written, acksDue := 1 })).modLink .b (fun l => { l with writeQueue := [packet] })
    let y := x.modBank .b 0 (fun b => { b with owned := true })
    let z := y.modBank .b 0 (fun b => { b with owned := false })
    let w := y.modProt .b (fun p => { p with enforce := true })
    let line : Region := { base := packet.addr, len := packet.bytes.length }
    (Memory.wf y.mem = true ∧ y.live .a = true ∧ y.linkUp .b = true ∧ y.packetWaits .b packet = false ∧
      (y.modBank .b 0 (fun b => { b with scrubbing := true })).packetWaits .b packet = true ∧
      y.ownAdmits .b (.remote 0) true true line = true ∧ y.packetOwned .b packet = true ∧ z.packetOwned .b packet = false ∧
      w.ownAdmits .b (.remote 0) true true line = false) ∧
    (y.drain .b).mem = [(0x1008000000, 1), (0x1008000001, 2), (0x1008000002, 3)] ∧
    ((y.drain .b).half .b).link.outbox = [.written 0] ∧ (y.drain .b).nextMessage .a = some (.written 0) ∧
    (match exec (.writeComplete 0 .a 0) (y.drain .b) with
     | .next t => (t.job .a 0).exec.map (·.acksDue)
     | _ => none) = some 0 := by decide +kernel

/-- A message, a credit in use, and the kill notices of two kinds (ContrailMessages; R304, R306, R337). -/
theorem test_contrail_messages :
    let x := (linked State.reset).modLink .b (fun l => { l with outbox := [.signal 3 2] })
    let y := (inPhase { phase := .written, credits := 2 })
    let k := fun (r : RetakeKind) => ((linked State.reset).modJob .a 0 (fun j => { j with exec := some { phase := .killing, retake := r } }))
    (x.live .a = true ∧ x.carries .b = true ∧ (x.half .a).link.naked = false ∧ (x.half .b).link.outbox = [.signal 3 2] ∧ cueHome 3 = .a) ∧
    ((y.half .a).disp.jobs.find? (fun p => p.1 / 32 == 0 && (match p.2.exec with
      | some e => decide (((y.half .a).link.outData.filter (fun q => q.ctx == p.1)).length < e.credits)
      | none => false))).isSome = true ∧
    ((k .wide).job .a 0).exec.map (·.retake) = some .wide ∧ ((k .same).job .a 0).exec.map (·.retake) = some .same ∧
    (match exec (.controlMessage 0 .a) x with
     | .next t => some ((t.cue 3).counter)
     | _ => none) = some 2 := by decide +kernel

/-- A link that is up, one that is down, 65 replays, and two halves that may train (LinkDownAndTrained; R309, R310). -/
theorem test_link_premises :
    let x := linked State.reset
    let y := { State.reset with
      a := { State.reset.a with boot := { stage := 2 }, link := { replayTimes := List.replicate 65 0 } }
      b := { State.reset.b with boot := { stage := 2 } } }
    x.live .a = true ∧ x.linkUp .a = true ∧ y.linkUp .a = false ∧
      64 < ((y.half .a).link.replayTimes.filter (fun a => decide (y.now < a + 1000000))).length ∧ y.twoHalves = true ∧
      y.mayTrain .a = true ∧ y.mayTrain .b = true := by decide +kernel

/-! ### Horizon -/

/-- Half A with stream 0, at 1 ms. -/
def streaming (k : Stream) : State := atNs 1000000 (withStream k)

/-- Packets bound to no context (UnboundPacketsAreCounted; R278). -/
theorem test_unbound_packet :
    let x := streaming { cfg := streamCfg }
    (x.live .a = true ∧ (x.half .a).portOn 0 = true ∧ (x.half .a).bound 0 3 = none) ∧
    (match exec (.frameStart 0 .a 0 3 false) x, exec (.frameEnd 0 .a 0 3 true) x with
     | .next t, .next u => some ((((t.half .a).port 0).discarded), (((u.half .a).port 0).corrected))
     | _, _ => none) = some (1, 1) := by decide +kernel

/-- A frame-start of a named stream and of one that is not named (FrameStartOpensFrame; R266, R278). -/
theorem test_frame_start :
    let x := (streaming { cfg := streamCfg }).modHzn .a (fun z => { z with fsync := [(0, { edgeFrame := 9 })] })
    let y := x.modDisp .a (fun d => { d with sheetState := 0 })
    ((x.half .a).bound 0 0 = some 0 ∧ (x.half .a).namesStream 0 = true ∧ (y.half .a).namesStream 0 = false ∧
      (x.half .a).hzn.lockState ≠ .locked) ∧
    (match exec (.frameStart 0 .a 0 0 false) x, exec (.frameStart 0 .a 0 0 false) y with
     | .next t, .next u => some ((t.stream .a 0).frames.map (fun f => (f.seq, f.mark)), (u.stream .a 0).discarded)
     | _, _ => none) = some ([(9, 128)], 1) := by decide +kernel

/-- A frame-end with too few line-starts marks bit 3 (FrameEndFinalisesMark; R276). -/
theorem test_frame_end :
    let f : Frame := { seq := 9, mark := 2 }
    let x := streaming { cfg := streamCfg, frames := [f] }
    ((x.stream .a 0).frames = [f] ∧ f.ended = false ∧ f.final = false) ∧
    (match exec (.frameEnd 0 .a 0 0 false) x with
     | .next t => (t.stream .a 0).frames.map (fun f => (f.mark, f.final))
     | _ => []) = [(10, true)] := by decide +kernel

/-- A locked timer, 400 ns late: a correction of +16 ns at most (LineStartSteersTimer; R261). -/
theorem test_line_start :
    let x := (streaming { cfg := streamCfg, activeLine := some 4 }).modHzn .a (fun z => { z with
      line := { z.line with locked := true }, lockState := .locked, lineNo := 4, lineStart := 999600 })
    let z := (x.half .a).hzn
    (z.line.locked = true ∧ z.inUse = 0 ∧ z.error? x.now (x.stream .a 0).cfg.firstLine 4 = some 400) ∧
    (match exec (.lineStart 0 .a 0 0 false) x with
     | .next t => some ((t.half .a).hzn.delta, (t.half .a).hzn.goodRun)
     | _ => none) = some (16, 1) := by decide +kernel

/-- 64 good packets, and 8 bad ones with and without ALT_EN (LockTransitions; R262). -/
theorem test_lock_premises :
    let z : Hzn := { line := { locked := true }, lockState := .acquiring, goodRun := 64, badRun := 8 }
    let x := inA (fun x => { x with hzn := z })
    let y := inA (fun x => { x with hzn := { z with line := { z.line with altEn := true } } })
    x.live .a = true ∧ (x.half .a).hzn.lockState = .acquiring ∧ 64 ≤ (x.half .a).hzn.goodRun ∧ 8 ≤ (x.half .a).hzn.badRun ∧
      (x.half .a).hzn.line.altEn = false ∧ (y.half .a).hzn.line.altEn = true ∧
    (match exec (.lineUnlock 0 .a) x, exec (.lineUnlock 0 .a) y with
     | .next t, .next u => ((t.half .a).hzn.lockState, (u.half .a).hzn.lockState, (u.half .a).hzn.onAlt)
     | _, _ => (.freeRun, .freeRun, false)) = (.holdover, .acquiring, true) := by decide +kernel

/-- A long packet outside the crop, inside it, and the first line of a row of two lines (LongPacketMarksAndLands; R269). -/
theorem test_long_packet_premises :
    let c := { streamCfg with geom1 := BitVec.ofNat 64 (1079 * 2 ^ 52 + 2 * 2 ^ 40 + 3 * 2 ^ 28), ctl := streamCfg.ctl ||| 1 <<< 45 }
    let f : Frame := { seq := 9 }
    let x := streaming { cfg := c, frames := [f] }
    (c.dt ≠ 0x12 ∧ (x.half .a).bound 0 0 = some 0 ∧ (x.half .a).namesStream 0 = true ∧ f.longPackets < c.cropY0 ∧
      c.cropY0 + c.cropH ≤ ({ f with longPackets := 6 } : Frame).longPackets ∧ c.cropY0 ≤ ({ f with longPackets := 2 } : Frame).longPackets ∧
      2 < c.cropY0 + c.cropH ∧ (x.stream .a 0).lines.length + 1 < c.rowLines) ∧
    (match exec (.longPacket 0 .a 0 0 0x2A 7 [] false false) x with
     | .next t => (t.stream .a 0).frames.map (fun f => (f.longPackets, f.mark))
     | _ => []) = [(1, 16)] := by decide +kernel

/-- A faulted output, an apply that is refused and one that is not, and an adopted frame (HorizonControl; R264, R266, R268). -/
theorem test_horizon_control :
    let x := inA (fun x => { x with hzn := { x.hzn with
      lockState := .locked, lockedAt := 9, fsync := [(3, { driven := true })] } })
    let y := { x with b := { x.b with hzn := { x.b.hzn with lockState := .locked, sheetFrame := 0xFFFFFFFF } } }
    let bad := x.modHzn .a (fun z => { z with lineWritten := some { frameLines := 63 } })
    (y.hznError .a = 0 ∧ bad.hznError .a = 1 ∧ y.live .b = true ∧ (y.half .a).masterCamera = (y.half .b).masterCamera ∧
      (y.half .b).hzn.lockedAt < (y.half .a).hzn.lockedAt ∧ ((y.half .a).isl.lanes.getD 1 {}).silent = false) ∧
    (match exec (.sheetFrameAdopt 0 .a 1) y, exec (.sheetFrameAdopt 0 .b 1) y, exec (.fsyncFault 0 .a 3) x with
     | .next t, .next v, .next u =>
       some ((t.half .a).hzn.adopt, (v.half .b).hzn.adopt, (u.half .a).hzn.fsync.map (fun p => (p.2.driven, p.2.sense)))
     | _, _, _ => none) = some (true, false, [(false, false)]) := by decide +kernel

/-- The last line of a frame, with a frame to adopt and settings that wait (SheetLineAdvances; R260, R264, R268). -/
theorem test_sheet_line :
    let x := atNs 14800 (fun x => { x with hzn := { x.hzn with
      lineNo := 1124, sheetFrame := 7, lineStaged := some { lineNs := 20000 } } })
    (x.live .a = true ∧ (x.half .a).zen.regsOn = true) ∧
    (match exec (.sheetLine 0 .a) x with
     | .next t => some ((t.half .a).hzn.lineNo, (t.half .a).hzn.sheetFrame, (t.half .a).hzn.line.lineNs)
     | _ => none) = some (0, 8, 20000) := by decide +kernel

/-- Line 0 with settings and a frame that wait (LineZeroTakesEffect; R264, R268), and a line that has not lasted its period. -/
theorem test_line_zero :
    let z : Hzn := { adopt := true, sheetFrame := 3, lineStaged := some { locked := true } }
    let x := atNs 100 (fun x => { x with hzn := { x.hzn with linePeriod := 101 } })
    ((Hzn.lineZero (some 9) z).sheetFrame, (Hzn.lineZero (some 9) z).lockState, (Hzn.lineZero none z).sheetFrame) =
      (9, .acquiring, 3) ∧ x.now < (x.half .a).hzn.lineStart + (x.half .a).hzn.linePeriod := by decide

/-- LINE_COUNT before and at the line before the next frame-start, and LINE_LATE in time and late (FrameEndFinalisesMark;
R271, R276). -/
theorem test_line_count_and_late :
    let f : Frame := { seq := 9, mark := 2, expectAt := 10 }
    let x := fun (n : Nat) => (streaming { cfg := streamCfg, frames := [f] }).modHzn .a (fun z =>
      { z with lines := n, line := { z.line with frameLines := 100 } })
    let marks := fun (i : Instr) (s : State) => match exec i s with
      | .next t => (t.stream .a 0).frames.map (·.mark)
      | _ => []
    let due := 10 + ((x 0).stream .a 0).cfg.lastLineOf 0 + 2
    0 < ((x 0).stream .a 0).cfg.outH ∧
      [marks (.lineCount 0 .a 0) (x 108), marks (.lineCount 0 .a 0) (x 109), marks (.lineLate 0 .a 0 9) (x due),
        marks (.lineLate 0 .a 0 9) (x (due + 1))] = [[2], [10], [2], [34]] := by decide +kernel

/-- A row that lands in HBM, one in a bank its job does not own, and one in the partner's HBM (RowsLand; R182, R272, R288). -/
theorem test_rows_land :
    let x := streaming { cfg := streamCfg, frames := [{ seq := 9 }] }
    let v := fun (a : Nat) => x.landVerdict .a streamCfg { base := a, len := 2 }
    let m := fun (a : Nat) => ((x.rowLands .a 0 9 0 a [7, 8] true).stream .a 0).frames.map (fun f => (f.mark, f.rowsLanded))
    [v 0x40, v 0x1000000000, v 0x800000000] = [.ok, .owner, .decode] ∧ m 0x40 = [(256, 1)] ∧ m 0x1000000000 = [(320, 1)] ∧
      (x.rowLands .a 0 9 0 0x40 [7, 8] true).mem = [(0x40, 7), (0x41, 8)] := by decide +kernel

/-- A timer in HOLDOVER whose stream returns (LineStartSteersTimer; R262). -/
theorem test_holdover :
    let x := (streaming { cfg := streamCfg, activeLine := some 4 }).modHzn .a (fun z => { z with
      line := { z.line with locked := true }, lockState := .holdover, holdoverRun := 7, lineNo := 4, lineStart := 999600 })
    (match exec (.lineStart 0 .a 0 0 false) x with
     | .next t => some ((t.half .a).hzn.lockState, (t.half .a).hzn.delta)
     | _ => none) = some (.acquiring, 0) := by decide +kernel

/-- A credit that a waiting packet takes (ContrailMessages; R304). -/
theorem test_waiting_packet :
    let x := (linked (inPhase { phase := .written, credits := 1 })).modLink .a (fun l =>
      { l with unsent := [packet], creditsUsed := [1] })
    x.live .a = true ∧ ((x.half .a).disp.jobs.find? ((x.half .a).link.spent 0)).isSome = true ∧
    (match exec (.creditReturn 0 .a 0) x with
     | .next t => ((t.half .a).link.outData, (t.half .a).link.unsent)
     | _ => ([], [])) = ([packet], []) := by decide +kernel

/-- A kill notice for a wide variant, whose escrow is kept (ContrailMessages; R308, R337). -/
theorem test_wide_notice :
    let e : Exec := { phase := .killing, credits := 1, retake := .wide, escrow := [(3, 1)] }
    let y := (linked (inPhase e)).modLink .a (fun l => { l with outbox := [.killed 0] })
    y.nextMessage .b = some (.killed 0) ∧
    (match exec (.killNotice 0 .b 0) y with
     | .next t => (t.job .a 0).exec.map (fun e => (e.credits, e.escrow))
     | _ => none) = some (0, [(3, 1)]) := by decide +kernel

/-- A credit that returns while the share is used up, and one whose packet waits beside another partition's (ContrailMessages; R304). -/
theorem test_credits_and_shares :
    let y := inPhase { phase := .written, credits := 1 }
    let x := fun (share : Nat) => y.modLink .a (fun l => { l with unsent := [{ packet with ctx := 33 }, packet], creditsUsed := [1], share := [share] })
    let w := (x 2).sendWaiting .a 0
    ((((x 1).half .a).link.share.getD 0 0 ≤ ((x 1).half .a).link.creditsUsed.getD 0 0) ∧
      ((x 2).half .a).link.unsent.filter (fun p => p.ctx / 32 == 0) = [packet] ∧
      ((x 2).half .a).link.share.getD 0 0 = ((x 2).half .a).link.creditsUsed.getD 0 0 + 1) ∧
    ((w.half .a).link.outData, (w.half .a).link.unsent, (w.half .a).link.creditsUsed.getD 0 0) = ([packet], [{ packet with ctx := 33 }], 2) := by
  decide +kernel

/-- A frame-start while a frame is open: the earlier one bears LINE_COUNT (FrameStartOpensFrame; R276). -/
theorem test_early_frame_start :
    let x := (streaming { cfg := streamCfg, frames := [{ seq := 8, mark := 2 }] }).modHzn .a (fun z =>
      { z with fsync := [(0, { edgeFrame := 9 })] })
    (match exec (.frameStart 0 .a 0 0 false) x with
     | .next t => (t.stream .a 0).frames.map (fun f => (f.seq, f.mark, f.ended, f.final))
     | _ => []) = [(9, 128, false, false), (8, 10, true, true)] := by decide +kernel

/-- A frame-end after every line-start leaves the mark open, and a row that is then late and can never form ends the frame
(FrameEndFinalisesMark; R271, R276). -/
theorem test_ended_frame_lacks_rows :
    let f : Frame := { seq := 9, expectAt := 10, lineStarts := streamCfg.frameRows }
    let x := streaming { cfg := streamCfg, frames := [f] }
    let y := fun (n : Nat) => (streaming { cfg := streamCfg, frames := [{ f with ended := true, rowsFormed := n }] }).modHzn .a (fun z =>
      { z with lines := 5000 })
    let runs := fun (i : Instr) (s : State) => match exec i s with
      | .next t => (t.stream .a 0).frames.map (fun f => (f.mark, f.ended, f.final, f.lastLanding))
      | _ => []
    0 < streamCfg.outH ∧ [runs (.frameEnd 0 .a 0 0 false) x, runs (.lineLate 0 .a 0 9) (y 0), runs (.lineLate 0 .a 0 9) (y streamCfg.outH)] =
      [[(0, true, false, none)], [(32, true, true, some 1000000)], [(32, true, false, none)]] := by decide +kernel

/-- A sheet frame without a line-start of the stream in use, and a MASTER that changes while the alternate is followed (LockTransitions,
LineZeroTakesEffect; R262). -/
theorem test_frame_without_line_starts :
    let z : Hzn := { line := { locked := true, master := 2 }, lockState := .locked, goodRun := 70, onAlt := true }
    let goes := fun (c : LineCfg) => let y := Hzn.lineZero none { z with seenThisFrame := true, lineStaged := some c }
      (y.lockState, y.onAlt, y.goodRun)
    z.seenThisFrame = false ∧ z.lineStaged = none ∧ 8 ≤ (Hzn.lineZero none z).badRun ∧
      (Hzn.lineZero none { z with seenThisFrame := true }).badRun = 0 ∧
      [goes { z.line with master := 3 }, goes { z.line with altMaster := 5 }, goes { z.line with lockTol := 9 },
        goes { z.line with locked := false }] = [(.acquiring, false, 0), (.acquiring, false, 0), (.locked, true, 70), (.freeRun, false, 0)] := by
  decide +kernel

/-- A half that waits for a halo as the link goes down: its job is faulted, its frame is not delivered, and it falls back
(LinkDownAndTrained; R23, R247, R252, R309). -/
theorem test_link_loss :
    let x := linked (inPhase { phase := .parked, halo := some (3, 1), threads := [3] })
    let s := { x with a := withStream { frames := [{ seq := 4 }] } x.a }
      |>.modJob .a 0 (fun j => { j with frame := some 4, entry := j.entry.map (fun (e : JobEntry) => { e with stream := 0 }) })
      |>.modDisp .a (fun d => { d with degraded := some {} })
    (s.live .a = true ∧ s.linkUp .a = true ∧ (s.half .a).link.ackAt + 10000 ≤ s.now ∧ s.lostJobs .a = [0] ∧
      s.stripeJob .a 0 = true ∧ (s.half .a).haloJobs = [0]) ∧
    (match exec (.ctrDown 0 .a) s with
     | .next t => some ((t.job .a 0).fault, (t.half .a).disp.switchPending, (t.stream .a 0).frames.map (·.withheldBy), (t.half .a).isl.logCount)
     | _ => none) = some (0x2D, true, [true], (s.half .a).isl.logCount + 2) := by decide +kernel

/-- What the partner had been granted goes back to its cue: an answer on its way, and an escrow of its job (LinkDownAndTrained;
R337). -/
theorem test_link_loss_returns_grants :
    let s := linked (atNs 30000000 (fun x => { x with link := { x.link with outbox := [.granted 0 5 2] } }))
    let u := linked { (atNs 30000000 id) with b := { State.reset.b with disp := { State.reset.b.disp with
      jobs := [(0, { exec := some { phase := .parked, escrow := [(5, 3)] } })] } } }
    let run := fun (s : State) => match exec (.ctrDown 0 .a) s with
      | .next t => some (t.cue 5).counter
      | _ => none
    (cueHome 5 = .a ∧ (s.half .a).link.grantsOut = [(5, 2)] ∧ s.lostJobs .a = [] ∧ u.lostJobs .a = [] ∧ (u.half .a).link.grantsOut = []) ∧
    [run s, run u] = [some 2, some 3] := by decide +kernel

/-- One end at its power-up and the other down, and two ends down of which none may train (LinkDownAndTrained; R310). -/
theorem test_one_end_trains :
    let x := fun (r : Bool) => { State.reset with
      a := { State.reset.a with boot := { stage := 2 } }
      b := { State.reset.b with boot := { stage := 2 }, link := { state := 2, retraining := r } } }
    let run := fun (s : State) => match exec (.ctrTrain 0 1) s with
      | .next t => ((t.half .a).link.state, (t.half .b).link.state)
      | _ => (9, 9)
    let lone := (x false).modLink .a (fun l => { l with state := 2 })
    ((x false).mayTrain .a = true ∧ (x false).mayTrain .b = false ∧ lone.mayTrain .a = false) ∧
    [run (x false), run lone] = [(1, 1), (2, 2)] := by decide +kernel

/-! ### Records, rings and health -/

/-- An enabled ring 0 of four slots of 256 bytes at 0x1000, with its control block at 0x800. -/
def ring0 : Ring := { base := 0x1000, cb := 0x800, enable := true, slotsLog2 := 2, slotLog2 := 8, producer := 1, nextSeq := 5 }

/-- Half A at 1 ms with stream 0, ring 0, and an endpoint that may post. -/
def posting (k : Stream) (g : Ring) : State := atNs 1000000 (fun x =>
  let y := withStream k x
  { y with hzn := { y.hzn with rings := [(0, g)] }, pcie := { y.pcie with linkState := 2, busMaster := true } })

/-- What a record says, for tests. -/
def info : RecordInfo :=
  { frameSeq := 9, camera := 3, status := 0, flags := 1, mark := 0, retakes := 0, tag := 7, latency := 100, printLine := 4 }

/-- A data record in slot 1 (RecordStandsInItsSlot; R281, R283): its RECORD_SEQ, its FRAME_SEQ, and its payload. -/
theorem test_record_in_slot :
    let s := posting {} ring0
    let g := s.ring .a 0
    let slot := g.base + g.nextSeq % 2 ^ g.slotsLog2 * 2 ^ g.slotLog2
    let u := s.putRecord .a 0 info [0xAA] true
    (Memory.wf s.hostMem = true ∧ slot = 0x1100 ∧ g.cb + 20 ≤ slot) ∧
      [0x1100, 0x1108, 0x110C, 0x1140, 0x800, 0x808, 0x810].map (memGet u.hostMem) = [5, 9, 3, 0xAA, 2, 6, 9] := by decide +kernel

/-- A ring with one free slot drops (FullRingDropsRecord; R284). -/
theorem test_full_ring :
    let k : Stream := { cfg := streamCfg, frames := [{ seq := 9 }] }
    let s := posting k { ring0 with producer := 3 }
    let u := s.deliver .a 0 info []
    (s.ring .a 0).free < 2 ∧ ((u.ring .a 0).dropped, (u.ring .a 0).firstDropped) = (1, 9) ∧
      (u.stream .a 0).frames.map (·.recorded) = [true] := by decide +kernel

/-- A printed frame of even parity whose result stands (R279). -/
def printedFrame : Frame := { seq := 4, lastLanding := some 900000, printed := some 900050, ended := true, final := true }

/-- Copies of a good frame and of a marked one, a result that waits, and an empty cue (ResultCopyDelivers; R279, R287). -/
theorem test_result_copy :
    let x := fun f n => (posting { cfg := streamCfg, frames := [f] } ring0).modCue (streamCfg.resCue 0) (fun q => { q with counter := n })
    let s := x printedFrame 1
    let m := x { printedFrame with mark := 2 } 1
    let w := x { printedFrame with lastLanding := none } 1
    (s.live .a = true ∧ (s.stream .a 0).cfg.enabled = true ∧ (s.ring .a 0).gapDue = false ∧
      0 < (s.cue (streamCfg.resCue 0)).counter ∧ ((x printedFrame 0).cue (streamCfg.resCue 0)).counter = 0 ∧
      (s.stream .a 0).copyFrame 0 = some printedFrame ∧ printedFrame.marked = false ∧
      (m.stream .a 0).copyFrame 0 = some { printedFrame with mark := 2 } ∧ ({ printedFrame with mark := 2 } : Frame).marked = true ∧
      (w.stream .a 0).copyFrame 0 = none ∧ (w.stream .a 0).copyWaits 0 = true) ∧
    (match exec (.resultCopy 0 .a 0 0) s, exec (.resultCopy 0 .a 0 0) m with
     | .next t, .next u => some ([memGet t.hostMem 0x1108, memGet t.hostMem 0x110E], memGet u.hostMem 0x110E)
     | _, _ => none) = some ([4, 0], 2) := by decide +kernel

/-- Before a deadline, and at it (DeadlineIsEnforced; R277, R341). -/
theorem test_deadline :
    let x := fun f => posting { cfg := streamCfg, frames := [f] } ring0
    let f : Frame := { seq := 9, lastLanding := some 999900 }
    let g : Frame := { f with lastLanding := some 999901 }
    let m : Frame := { f with mark := 2 }
    let s := x f
    (s.deadline .a 0 f = some 1000000 ∧ (x g).deadline .a 0 g = some 1000001 ∧ f.marked = false ∧ f.token = .free ∧
      m.marked = true ∧ (x m).deadline .a 0 m = some 1000000 ∧ (x m).deliversFrame .a 0 m = true ∧
      (x m).partnerHas .a 0 m = false ∧ ((x m).half .a).isl.withholding = false ∧ (x m).live .a = true) ∧
    (match exec (.deadlineMiss 0 .a 0 9) s, exec (.withheld 0 .a 0 9) (x m) with
     | .next t, .next u => some ((t.half .a).isl.logCount, memGet u.hostMem 0x110E)
     | _, _ => none) = some (s.a.isl.logCount + 1, 2) := by decide +kernel

/-- A frame with its record (OneRecordPerFrame; R39). -/
theorem test_recorded_frame :
    let f : Frame := { seq := 9, recorded := true }
    ((posting { cfg := streamCfg, frames := [f] } ring0).stream .a 0).frame? 9 = some f := by decide +kernel

/-- The backup's time before and at it (BackupAndToken; R342). -/
theorem test_backup_premises :
    let f : Frame := { seq := 9, lastLanding := some 999900 }
    let en : StreamEntry := { context := 0, shadow := true, jobCtx := 0, timeNs := 100 }
    let s := (posting { cfg := { streamCfg with ctl := streamCfg.ctl ||| 1 <<< 62 }, frames := [f] } ring0).modDisp .a (fun d =>
      { d with active := some { streams := [en] } })
    s.live .a = true ∧ (s.stream .a 0).frame? 9 = some f ∧ (s.half .a).streamEntry 0 = some en ∧ f.lastLanding = some 999900 ∧
      999900 + en.timeNs ≤ s.now ∧ en.shadow = true ∧ f.backupDue = false ∧
      (s.advance 0).now = s.now ∧ ({ s with now := 999999 } : State).now < 999900 + en.timeNs := by decide +kernel

/-- A token that is free, and one the partner holds (BackupAndToken; R343). -/
theorem test_token_premises :
    let f : Frame := { seq := 4 }
    let g : Frame := { seq := 4, token := .heldBy .b }
    let s := resultState f
    let u := resultState g
    let e : Exec := { phase := .written, record := resultRecord }
    let two := { s with b := withStream { cfg := { streamCfg with ctl := streamCfg.ctl ||| 1 <<< 62 } } s.b }
    (s.job .a 0).exec = some e ∧ e.phase = .written ∧ e.tokenHeld = false ∧
      (s.half .a).resultOf ((e.recs).getLastD (parseRec [])) = some (0, 0) ∧ s.resultFrame .a 0 0 0 = some f ∧
      u.resultFrame .a 0 0 0 = some g ∧ f.marked = false ∧ f.recorded = false ∧ (s.stream .a 0).cfg.shadow = false ∧
      f.token ≠ .heldBy (otherHalf .a) ∧ g.token = .heldBy (otherHalf .a) ∧ s.twin .a 0 = none ∧
      two.twin .a 0 = some 0 := by decide +kernel

/-- A ring read when it is nearly full, and a GAP record (RingReadsAndGap; R284, R285). -/
theorem test_ring_reads :
    let s := posting {} { ring0 with producer := 3 }
    let g := posting {} { ring0 with gapDue := true }
    let late := posting {} { ring0 with consumerReadAt := some 999500 }
    ((s.ring .a 0).free < 2 ∧ (s.ring .a 0).consumerReadAt = none ∧ s.now < 999500 + 1000 ∧
      (late.ring .a 0).consumerReadAt = some 999500 ∧ (g.ring .a 0).gapDue = true ∧ (g.half .a).isl.withholding = false ∧
      (g.half .a).canPost = true ∧ (s.ring .a 0).gapDue = false) ∧
    (match exec (.consumerRead 0 .a 0 3) s with
     | .next t => (t.ring .a 0).consumer
     | _ => 0) = 3 := by decide +kernel

/-- A SELFTEST slot of the whole frame, and no slot (SlicesRun; R394, R395). -/
theorem test_slices :
    let s := posting {} ring0
    let n := s.modDisp .a (fun d => { d with active := none })
    let kinds : List SliceKind := [.postFp, .outlier, .thread 5, .bankMarch 3, .localise]
    (s.live .a = true ∧ kinds.all (fun k => s.sliceFits .a k && !(s.cutShort .a k)) = true ∧
      kinds.all (fun k => !(n.sliceFits .a k)) = true ∧
      (tget ({} : Group) (s.half .a).dolly.groups 5).enabled = false ∧ (s.bank .a 3).owned = false ∧
      2 ≤ [(1, 2), (3, 4)].eraseDups.length) ∧
    (match exec (.postFp 0 .a false) s with
     | .next t => (t.half .a).isl.disagree.getD 8 0
     | _ => 0) = 1 := by decide +kernel

/-- A byte of another bank (BankMarchTouchesItsBank; R133, R394), and a slab that decays by 2 and that is found by LOCALISE
(SlabScores; R385). -/
theorem test_slab_scores :
    let s := { (posting {} ring0) with now := 20000001000 }
    let x := (s.modHzn .a (fun z => { z with lineStart := s.now })).modIsl .a (fun i => { i with slabs := [(3, { score := 100, col := 3 })] })
    (bankOf 4096 ≠ 0 ∨ bankOf 0 = 0) ∧ x.supplied .a = true ∧ x.live .a = true ∧ x.sliceFits .a .localise = true ∧
      x.cutShort .a .localise = false ∧ x.slabServing .a 0 3 = some 3 ∧ x.slabServing .a 0 17 = none ∧
    (match exec (.slabScoreDecay 0 .a 3) x, exec (.localise 0 .a [(0, 3)]) x with
     | .next t, .next u => some ((t.slab .a 3).score, (u.slab .a 3).score, (u.half .a).isl.retireDue.map (·.1))
     | _, _ => none) = some (98, 130, [3]) := by decide +kernel

/-- A slab that is due, with retirements left and without (SlabRetirement; R386, R387). -/
theorem test_slab_retirement :
    let s := (posting {} ring0).modIsl .a (fun i => { i with retireDue := [(3, 7)] })
    let n := s.modIsl .a (fun i => { i with retirements := 2 })
    ((s.half .a).isl.retireDue.find? (fun p => p.1 == 3) = some (3, 7) ∧ 7 ≠ (s.half .a).hzn.sheetFrame ∧
      s.arrayFree .a = true ∧ (s.slab .a 3).state = .active ∧ s.spareOf .a 3 = some 16 ∧
      2 ≤ (n.half .a).isl.retirements) ∧
    (match exec (.slabRetired 0 .a 3) s, exec (.slabRetired 0 .a 3) n with
     | .next t, .next u => some ((t.slab .a 16).state, (t.slab .a 16).col, (t.slab .a 3).state, (u.slab .a 3).state)
     | _, _ => none) = some (.active, 3, .retired, .active) := by decide +kernel

/-- Three events of one band, and two (DerateAfterThree; R392, R393). -/
theorem test_derate :
    let s := inA (fun x => { x with isl := { x.isl with derateEvents := List.replicate 3 (7, 7, 0) } })
    let n := inA (fun x => { x with isl := { x.isl with derateEvents := List.replicate 2 (7, 7, 0) } })
    (3 ≤ (s.half .a).derateCount 7 7 ∧ flag (s.half .a).isl.derate 63 = false ∧ (n.half .a).derateCount 7 7 < 3) ∧
    (match exec (.derate 0 .a 7 7) s with
     | .next t => t.a.isl.derate
     | _ => 0) = 2 ^ 63 := by decide +kernel

/-- The frames of WithheldRecords: a shadow context's after a takeover, one its partner had delivered, one whose partner has
it in hand, and one before its deadline (R277, R375). -/
theorem test_withheld_clauses :
    let f : Frame := { seq := 9, lastLanding := some 900000, mark := 2 }
    let far : StreamCfg := { streamCfg with ctl := streamCfg.ctl ||| 1 <<< 62 }
    let sh : StreamEntry := { context := 0, shadow := true, jobCtx := 0, timeNs := 100 }
    let x := fun (last : Nat) => { (posting { cfg := far, frames := [f] } ring0) with b := withStream { cfg := streamCfg } State.reset.b }
      |>.modIsl .a (fun i => { i with holdsTokens := true, partnerLast := [last] })
      |>.modDisp .a (fun d => { d with active := some { streams := [sh] } })
    let s := x 0xFFFFFFFF
    let soon := posting { cfg := streamCfg, frames := [{ f with lastLanding := some 999901 }] } ring0
    let run := fun (s : State) => match exec (.withheld 0 .a 0 9) s with
      | .next t => (t.stream .a 0).frames.map (·.recorded)
      | _ => []
    (s.live .a = true ∧ s.deliversFrame .a 0 f = true ∧ (s.stream .a 0).cfg.shadow = true ∧ s.pastDeadline .a 0 f = true ∧
      s.reportedDelivered .a 0 9 = false ∧ (x 9).reportedDelivered .a 0 9 = true) ∧
    [run s, run (x 9), run soon] = [[true], [false], [false]] := by decide +kernel

/-- A unit whose slices are due, and one whose are not (HealthPathEnds; R371, R372). -/
theorem test_health_path :
    let s := inA (fun x => { x with isl := { x.isl with slicesDue := [8] } })
    ((s.healthPath .a 8 true).half .a).isl.slicesDue = [] ∧ ((s.healthPath .a 8 false).half .a).isl.fenced = true ∧
      ((s.healthPath .a 9 false).half .a).isl.fenced = false := by decide +kernel

/-- A shadow context's command asks for its token, and the home half's answer kills or goes on (TokensAreGranted; R343). -/
theorem test_shadow_token :
    let far : StreamCfg := { streamCfg with ctl := streamCfg.ctl ||| 1 <<< 62 }
    let x := linked (inPhase { phase := .written, record := resultRecord })
    let s := { x with a := withStream { cfg := far, frames := [{ seq := 4 }] } x.a, b := withStream { cfg := streamCfg } x.b }
      |>.modIsl .a (fun i => { i with paired := true })
      |>.modJob .a 0 (fun j => { j with frame := some 4 })
    let y := fun (b : Bool) => s.modLink .b (fun l => { l with outbox := [.tokenAnswer 0 b] })
    let run := fun (b : Bool) (s : State) => match exec (.printTokenGrant 0 .a 0 b) s with
      | .next t => ((t.job .a 0).exec.map (fun e => (e.phase, e.tokenHeld)), (t.half .a).link.outbox.length)
      | _ => (none, 9)
    (s.tokenPath .a = true ∧ s.deliversFrame .a 0 { seq := 4 } = false ∧ (y true).nextMessage .a = some (.tokenAnswer 0 true) ∧
      (s.resultFrame .a 0 0 0).map (·.seq) = some 4) ∧
    [run false s, run false (y true), run false (y false)] =
      [(some (.written, false), 1), (some (.written, true), 0), (some (.killing, false), 0)] := by decide +kernel

/-- What a backup's release asks for (BackupIsReleased; R342): paired, with the link up and a probe that finds the frame
free. -/
theorem test_backup_release :
    let far : StreamCfg := { streamCfg with ctl := streamCfg.ctl ||| 1 <<< 62 }
    let x := linked State.reset
    let f : Frame := { seq := 4 }
    let s := { x with a := withStream { cfg := far, frames := [f] } x.a, b := withStream { cfg := streamCfg } x.b }
      |>.modIsl .a (fun i => { i with paired := true })
    (s.half .a).stripes 0 = false ∧ (s.half .a).runsOf 0 4 = [] ∧ (s.half .a).isl.holdsTokens = false ∧ f.kept = false ∧
      s.linkUp .a = true ∧ s.probeFree .a 0 4 = true := by decide +kernel

/-- Two free slots take a record; after records were dropped an OVERFLOW record goes first (RoomTakesRecord; R280, R284). -/
theorem test_room_takes_record :
    let k : Stream := { cfg := streamCfg, frames := [{ seq := 9 }] }
    let s := posting k { ring0 with producer := 2 }
    let o := posting k { ring0 with dropped := 3, firstDropped := 4, lastDropped := 6, slotsLog2 := 3 }
    let at' := fun (s : State) => let u := s.deliver .a 0 info []
      ((u.ring .a 0).producer, (u.ring .a 0).nextSeq, (u.ring .a 0).dropped, (u.stream .a 0).lastRecord)
    ((s.ring .a 0).free = 2 ∧ (s.ring .a 0).enable = true ∧ (s.half .a).canPost = true ∧ s.putOverflow .a 0 = s ∧
      2 ≤ (o.ring .a 0).free ∧ 0 < (o.ring .a 0).dropped ∧ (o.ring .a 0).gapDue = false) ∧
    [at' s, at' o] = [(3, 6, 0, some 9), (3, 7, 0, some 9)] := by decide +kernel

/-- An answer to a command that holds its token already leaves the messages, and a retirement that is due takes place before LOCALISE
runs on its map (TokensAreGranted, SlabScores; R306, R399). -/
theorem test_idle_answer_and_due_map :
    let s := linked (inPhase { phase := .written, tokenHeld := true })
    let y := s.modLink .b (fun l => { l with outbox := [.tokenAnswer 0 true] })
    let p := (posting {} ring0).modIsl .a (fun i => { i with retireDue := [(3, 7)] })
    ((y.nextMessage .a = some (.tokenAnswer 0 true)) ∧ s.nextMessage .a = none) ∧
    (match exec (.printTokenGrant 0 .a 0 false) y with
     | .next t => (t.half .b).link.outbox.length
     | _ => 9) = 0 ∧
    p.live .a = true ∧ p.sliceFits .a .localise = true ∧ p.slabServing .a 0 3 = some 3 ∧
      (p.retireAll .a).slabServing .a 0 3 = some 16 := by decide +kernel

/-- A slice that a more critical slot cuts short, the line at which that slot begins, and one that no SELFTEST slot covers (SlicesCutShort;
R395). -/
theorem test_slice_is_cut_short :
    let sh : Sheet := { selftestPart := 3, slots := [{ lengthM1 := 39, selftest := true, part := 3 }, { startLine := 1, lengthM1 := 9 }] }
    let s := ((posting {} ring0).modHzn .a (fun z => { z with lineStart := 990000 })).modDisp .a (fun d => { d with active := some sh })
    let v := (s.modHzn .a (fun z => { z with lineNo := 1 })).modIsl .a (fun i => { i with slices := [.postFp] })
    let o := (s.modHzn .a (fun z => { z with lineNo := 60 })).modIsl .a (fun i => { i with slices := [.postFp] })
    let kinds : List SliceKind := [.postFp, .outlier, .thread 5, .bankMarch 3, .localise]
    (kinds.all (fun k => s.sliceFits .a k && s.cutShort .a k) = true ∧ (v.half .a).periodLine sh = 1 ∧
      (v.half .a).selftestLeft v.now ≠ none ∧ (o.half .a).selftestLeft o.now = none ∧ (s.half .a).selftestLeft s.now ≠ none ∧
      (s.half .a).periodLine sh = 0) ∧
    (match exec (.postFp 0 .a false) s with
     | .next t => ((t.half .a).isl.slices, (t.half .a).isl.disagree.getD 8 0)
     | _ => ([], 9)) = ([.postFp], 0) ∧
    ((v.cutSlices .a).half .a).isl.slicesCut = [.postFp] ∧ ((o.cutSlices .a).half .a).isl.slices = [] := by decide +kernel

/-- Two free slots and dropped records: the OVERFLOW record takes the room, and the record is the first of a new count (FullRingDropsRecord;
R284). -/
theorem test_overflow_takes_the_room :
    let k : Stream := { cfg := streamCfg, frames := [{ seq := 9 }] }
    let s := posting k { ring0 with dropped := 3, firstDropped := 4, lastDropped := 6, producer := 2 }
    let u := s.deliver .a 0 info []
    ((s.ring .a 0).free = 2 ∧ ((s.putOverflow .a 0).ring .a 0).free = 1) ∧
    ((u.ring .a 0).producer, (u.ring .a 0).nextSeq, (u.ring .a 0).dropped, (u.ring .a 0).firstDropped) = (3, 6, 1, 9) := by
  decide +kernel

/-- What releases no backup: a token that is held, and a link that is down; and a half that holds the tokens needs neither (BackupIsReleased;
R342, R375). -/
theorem test_backup_is_not_released :
    let far : StreamCfg := { streamCfg with ctl := streamCfg.ctl ||| 1 <<< 62 }
    let x := linked State.reset
    let s := fun (g : Frame) => { x with a := withStream { cfg := far, frames := [{ seq := 4 }] } x.a, b := withStream { cfg := streamCfg, frames := [g] } x.b }
      |>.modIsl .a (fun i => { i with paired := true })
    let held := (s { seq := 4, token := .heldBy .b })
    let own := held.modIsl .a (fun i => { i with holdsTokens := true })
    let down := (s { seq := 4 }).modLink .a (fun l => { l with state := 2 })
    ((s { seq := 4 }).twin .a 0 = some 0 ∧ held.probeFree .a 0 4 = false ∧ down.linkUp .a = false ∧ own.reportedDelivered .a 0 4 = false) ∧
      (s { seq := 4 }).probeFree .a 0 4 = true := by decide +kernel

/-! ### The continuity island -/

/-- Half A live with its island changed. -/
def isle (n : Nat) (f : Isl → Isl) : State := atNs n (fun x => { x with isl := f x.isl, boot := { x.boot with stage := 2 } })

/-- A class 5 event (ClassFiveEffect), and the conditions of each clause of ClassFiveConditions (R347, R353, R406). -/
theorem test_class_five :
    let s := isle 0 (fun i => { i with pairs := [{ comparing := true }, { halted := true }, {}] })
    let overv := (s.modZen .a (fun z => { z with rails := [{ setpoint := 850 }] }))
    let halted := s.modIsl .a (fun i => { i with pairs := [{}, {}, { halted := true }] })
    let r := (overv.half .a).zen.rails.getD 0 {}
    (s.live .a = true ∧ (s.pair .a 0).halted = false ∧ (s.pair .a 0).comparing = true ∧ (s.pair .a 1).halted = true ∧
      r.setpoint < 20 * ((900 : Int) - (r.setpoint : Int)).natAbs ∧ 20 * ((880 : Int) - (r.setpoint : Int)).natAbs ≤ r.setpoint ∧
      (isle 0 id).teardownOver .a 3 40000 = false) ∧
    ((isle 0 id).half .a).suspended = false ∧ (halted.half .a).suspended = true ∧
    (match exec (.lockstepMismatch 0 .a 0) s with
     | .next t => some ((t.half .a).isl.fenced, (t.half .a).isl.faultN, (t.half .a).isl.lastHalfFault)
     | _ => none) = some (true, false, 0x0503) := by decide +kernel

/-- A partition's reset that has run for 40 µs (ClassFiveConditions; R348). -/
theorem test_part_reset_overrun :
    let e : JobEntry := { ctx := 103 }
    let s := atNs 50000 (fun x => { x with disp := { x.disp with
      jobs := [(103, { entry := some e, status := .teardown, teardownAt := some 9999 })] } })
    s.teardownOver .a 3 40000 = true := by decide +kernel

/-- The premises of the clauses of LockstepAndDebug, and a write without its replay (R355, R357). -/
theorem test_debug :
    let s := isle 0 (fun i => { i with safetyMode := 1, pairs := [{ testing := true }, { halted := true }, { halted := true, diverged := true }] })
    (s.supplied .a = true ∧ 2 < (s.half .a).isl.pairs.length ∧ (s.pair .a 0).testing = true ∧ (s.half .a).isl.safetyMode = 1 ∧
      (isle 0 id).a.isl.safetyMode ≠ 1 ∧ (s.pair .a 1).halted = true ∧ (s.pair .a 1).diverged = false ∧
      (s.pair .a 2).halted = true ∧ (s.pair .a 2).diverged = true ∧ (s.pair .a 0).halted = false) ∧
    (match exec (.debugWrite 0 .a 1 (.copy 4) [77] false) s, exec (.debugResume 0 .a 2) s with
     | .next t, .next u => some (tget 0 (t.pair .a 1).main 4, (t.pair .a 1).diverged, (u.half .a).isl.lastHalfFault)
     | _, _ => none) = some (77, true, 0x0504) := by decide +kernel

/-- A debugger's write to HBM, to a bank that the pair does not own, and outside the half's memory (DebugWrites; R356). -/
theorem test_debug_memory :
    let s := (isle 0 (fun i => { i with safetyMode := 1, pairs := [{}, { halted := true }, { halted := true }] })).modHbm .a
      (fun m => { m with train := 2 })
    let run := fun (p a : Nat) => match exec (.debugWrite 0 .a p (.memory a) [9] true) s with
      | .next t => (t.mem, (t.half .a).isl.logCount)
      | _ => ([], 9)
    (s.supplied .a = true ∧ (s.half .a).hbmServed = true ∧ (s.half .a).admits .firmware true true 0x40 1 = true ∧
      (s.half .a).admits .island true true 0x1000000000 1 = true) ∧
    [run 1 0x40, run 1 0x1000000000, run 2 0x1000000000, run 1 0x1008000000] =
      [([(0x40, 9)], 0), ([], 1), ([(0x1000000000, 9)], 0), ([], 1)] := by decide +kernel

/-- What Half B sends is taken by Half A (HeartbeatRoundTrip; R358). -/
theorem test_heartbeat :
    let x := isle 5000 id
    let s := { x with b := { x.b with isl := { x.b.isl with halfState := 3 }, hzn := { x.b.hzn with sheetFrame := 0x10203 } } }
    (s.supplied .a = true ∧ s.twoHalves = true ∧ 1 < (s.half .a).isl.lanes.length ∧ (s.heartbeat .b 41).length = 128) ∧
    (match exec (.heartbeatReceive 0 .a 1 (s.heartbeat .b 41)) s with
     | .next t => some ((t.half .a).isl.partnerState, (t.half .a).isl.partnerFrame, ((t.half .a).isl.lanes.getD 1 {}).lastSeq)
     | _ => none) = some (3, 0x10203, some 41) := by decide +kernel

/-- A short heartbeat, one whose HB_CRC fails, and a lane that fell silent (HeartbeatLanes; R358). -/
theorem test_heartbeat_lanes :
    let b : List Byte := List.replicate 124 0 ++ [1, 2, 3, 4]
    let lanes : List HbLane := [{ lastAt := some 0 }, { lastAt := some 999999 }]
    let s := isle 1000000 (fun i => { i with lanes := lanes })
    leAt b 0x7C 4 ≠ crc32c (b.take 0x7C) ∧ ([] : List Byte).length ≠ 128 ∧ s.supplied .a = true ∧ s.twoHalves = true ∧
      2 ≤ (s.half .a).boot.stage ∧ s.live .a = true ∧
      ((s.half .a).isl.lanes.getD 0 {}).lastAt.isSome = true ∧ ((s.half .a).isl.lanes.getD 0 {}).quiet s.now = true ∧
      ((s.half .a).isl.lanes.getD 0 {}).silent = false ∧ ((s.half .a).isl.lanes.getD (1 - 0) {}).quiet s.now = false ∧
      ({ lanes := [{ silent := true }] } : Isl).lanes.getD 0 {} = { silent := true } := by decide +kernel

/-- A half that pairs, one that loses its partner, and one that never found it (PairingAndTakeover; R359, R360). -/
theorem test_pairing :
    let good : List HbLane := [{ lastAt := some 1999999, goodSince := some 0 }, { lastAt := some 1999999, goodSince := some 0 }]
    let s := isle 2000000 (fun i => { i with halfState := 2, lanes := good })
    let p := s.modIsl .a (fun i => { i with paired := true })
    let q := p.modIsl .a (fun i => { i with partnerState := 2, lanes := [{ lastAt := some 0 }, { lastAt := some 0 }] })
    let o := { s.modIsl .a (fun i => { i with readyAt := some 0, lanes := [{}, {}] }) with now := 1000000000 }
    (s.live .a = true ∧ s.twoHalves = true ∧ (s.half .a).isl.paired = false ∧ (s.half .a).isl.withholding = false ∧
      (s.half .a).inService = true ∧ (s.half .a).isl.goodFor1ms s.now = true ∧ (s.half .a).isl.holdsTokens = false) ∧
    ((p.half .a).isl.paired = true ∧ (p.half .a).isl.partnerState ≠ 2 ∧ (p.half .a).isl.partnerState ≠ 3 ∧
      (q.half .a).isl.lanes.all (fun l => l.quiet q.now) = true) ∧
    ((o.half .a).isl.goodFor1ms o.now = false ∧ (o.half .a).isl.readyAt = some 0 ∧ 0 + 1000000000 ≤ o.now ∧
      (o.half .a).isl.partnerReported = false ∧ (o.half .a).isl.partnerLost = false) ∧
    (match exec (.pairing 0 .a) s, exec (.partnerLost 0 .a) q with
     | .next t, .next u => some ((t.half .a).isl.paired, (u.half .a).isl.paired, (u.half .a).isl.holdsTokens)
     | _, _ => none) = some (true, false, true) := by decide +kernel

/-- A fenced half, with fewer than two restarts in the window and with two (HalfRestartResets; R379, R382). -/
theorem test_restart :
    let s := isle 5000 (fun i => { i with fenced := true, halfState := 5 })
    let n := s.modIsl .a (fun i => { i with restartTimes := [0, 4000] })
    ((isle 0 id).live .a = true ∧ s.supplied .a = true ∧ (s.half .a).isl.fenced = true ∧ (s.half .a).isl.halfState ≠ 6 ∧
      (s.half .a).isl.halfState ≠ 7 ∧ (s.half .a).isl.pairs.any (·.testing) = false ∧ (s.half .a).zen.tripHolds s.now = false ∧
      (s.half .a).isl.coreFailed = 0 ∧
      ((s.half .a).isl.restartTimes.filter (fun a => decide (s.now < a + 1000000000000))).length < 2 ∧
      2 ≤ ((n.half .a).isl.restartTimes.filter (fun a => decide (n.now < a + 1000000000000))).length) ∧
    (match exec (.halfRestart 0 .a true true) n, exec (.restartReq 0 .a) ((isle 0 id).modIsl .b (fun i => { i with restartReq := true })) with
     | .next t, .next u => some ((t.half .a).isl.halfState, (u.half .a).isl.fenced)
     | _, _ => none) = some (6, true) := by decide +kernel

/-- A half with a sheet in effect enters service; three disagreements; eight leader failures (ServiceAndLimits; R371, R373, R469). -/
theorem test_service :
    let s := atNs 77 (fun x => { x with
      disp := { x.disp with sheetState := 1 }
      isl := { x.isl with disagree := [0, 0, 0, 3] }
      hzn := { x.hzn with streams := [(2, { leaderFails := 8 })] } })
    let x := s.half .a
    (s.live .a = true ∧ x.isl.halfState = 1 ∧ x.disp.sheetState ≠ 0 ∧ x.hzn.line.locked = false ∧ x.hbm.train ≠ 3 ∧
      State.reset.a.disp.sheetState = 0 ∧ 3 ≤ x.isl.disagree.getD 3 0 ∧ x.isl.disagree.getD 0 0 < 3 ∧
      8 ≤ (s.stream .a 2).leaderFails ∧ (s.stream .a 0).leaderFails < 8) ∧
    (match exec (.serviceReady 0 .a) s, exec (.disagreementLimit 0 .a 3) s with
     | .next t, .next u => some ((t.half .a).isl.halfState, (t.half .a).isl.readyAt, (u.half .a).isl.slicesDue)
     | _, _ => none) = some (2, some 77, [3]) := by decide +kernel

/-- A partner that reports itself failed, a fenced partner's message, and a boundary to be set (PairingAndTakeover; R360, R374,
R375, R380). -/
theorem test_partner_reports :
    let s := isle 5000 (fun i => { i with halfState := 2, partnerState := 6 })
    let d := { (s.modIsl .a (fun i => { i with paired := true, partnerState := 2 })) with
      b := { s.b with isl := { s.b.isl with fenced := true, downMessage := [(1, 7)] } } }
    let good : List HbLane := [{ lastAt := some 1999999, goodSince := some 0 }, { lastAt := some 1999999, goodSince := some 0 }]
    let r0 := { (isle 2000000 (fun i => { i with halfState := 2, holdsTokens := true, lanes := good })) with b :=
      { s.b with isl := { s.b.isl with halfState := 2 }, boot := { s.b.boot with stage := 4 } } }
    (s.live .a = true ∧ s.twoHalves = true ∧ (s.half .a).inService = true ∧ (d.half .b).isl.downMessage = [(1, 7)] ∧
      r0.live .b = true ∧ (r0.half .b).inService = true ∧ (r0.half .a).isl.goodFor1ms r0.now = true) ∧
    (match exec (.partnerLost 0 .a) s, exec (.halfDown 0 .a [(1, 7)]) d, exec (.pairing 0 .a) r0 with
     | .next t, .next u, .next v => some ((t.half .a).isl.partnerReported, (u.half .a).isl.holdsTokens,
        (u.half .a).isl.downFrames, (v.half .a).isl.returnFrame.isSome)
     | _, _, _ => none) = some (true, true, [(1, 7)], true) := by decide +kernel

/-- A self-test that found the pair transient, and a restart after one that found both copies failed (R357, R391). -/
theorem test_core_selftest :
    let s := isle 0 (fun i => { i with fenced := true, pairs := [{ testing := true }, {}, {}], log := [(0, List.replicate 32 0)] })
    let f := isle 5000 (fun i => { i with fenced := true, halfState := 5, coreFailed := 4 })
    (match exec (.coreSelftest 0 .a 0 .bothPass) s, exec (.halfRestart 0 .a true true) f with
     | .next t, .next u => some ((t.pair .a 0).verdict, (t.half .a).isl.derateEvents.length, (u.half .a).isl.halfState)
     | _, _ => none) = some (3, 1, 6) := by decide +kernel

/-- A half held out that restarts and stays so, one whose hold-out is only that it was never configured, and a debugger's write for which
the Director's port has no tokens (HalfRestartResets, ServiceAndLimits, DebugWrites; R293, R378, R396, R399). -/
theorem test_held_out_and_port :
    let out := fun (u : Bool) => isle 5000 (fun i => { i with fenced := true, halfState := 5, unconfigured := u })
    let ready := fun (u : Bool) => (isle 5000 (fun i => { i with halfState := 5, unconfigured := u })).modDisp .a (fun d => { d with sheetState := 1 })
    let st := fun (i : Instr) (s : State) => match exec i s with
      | .next t => (t.half .a).isl.halfState
      | _ => 99
    let s := (isle 0 (fun i => { i with safetyMode := 1, pairs := [{}, { halted := true }, {}] })).modHbm .a
      (fun m => { m with train := 2, tokPort := [4096000, 0, 4096000] })
    [st (.halfRestart 0 .a true true) (out false), st (.serviceReady 0 .a) (ready false), st (.serviceReady 0 .a) (ready true)] = [5, 5, 2] ∧
      s.targetOf { base := 0x40, len := 1 } = .hbm .a ∧ (s.half .a).hbmServed = true ∧
      (s.half .a).admits .firmware true true 0x40 1 = true ∧ s.portOpen .a (.director none) { base := 0x40, len := 1 } = false := by
  decide +kernel

/-- A half held out that is ready delivers nothing still (ServiceAndLimits; R396). -/
theorem test_held_out_withholds :
    let s := (isle 5000 (fun i => { i with halfState := 5 })).modDisp .a (fun d => { d with sheetState := 1 })
    (match exec (.serviceReady 0 .a) s with
     | .next t => some ((t.half .a).isl.halfState, (t.half .a).isl.withholding)
     | _ => none) = some (5, true) := by decide +kernel

/-! ### Power-up, boot and Zenith -/

/-- Half A unsupplied, and supplied with its fuses sensed or not (PowerComesAndGoes; R400, R402, R508). -/
theorem test_power :
    let off := inA (fun x => { x with zen := { x.zen with power := .off }, boot := { x.boot with rollback := [5] } })
    (State.reset.hasHalf .a = true ∧ (off.half .a).powered = false ∧ State.reset.supplied .a = true ∧
      off.supplied .a = false ∧ ({ fusesSensed := true } : Boot).fusesSensed = true) ∧
    (match exec (.powerOn 3 .a) off, exec (.brownOut 4) State.reset with
     | .next t, .next u => some (t.a.boot.powerOnAt, t.a.boot.rollback, t.a.zen.power, u.a.zen.power, u.b.zen.power)
     | _, _ => none) = some (3, [5], .boot, .off, .off) := by decide +kernel

/-- An image of a type with a body, under the key of order 1, for which R = 1 and S = 0 sign any message (R476, R477). -/
def imageOf (t : Nat) (body : List Byte) : List Byte :=
  toLe 4 0x4D495A42 ++ toLe 2 1 ++ toLe 1 t ++ [0] ++ toLe 5 0 ++ [7] ++ toLe 10 0 ++ toLe 4 body.length ++ toLe 4 0 ++
    sha512 body ++ toLe 32 1 ++ toLe 32 1 ++ toLe 32 0 ++ body

/-- An image of a type: a slate image has one fill entry, of no bytes (R479), any other a body of 64 zeros. -/
def bootImage (t : Nat) : List Byte :=
  imageOf t (if t = 5 then [1] ++ List.replicate 127 0 else List.replicate 64 0)

/-- Half A at a stage of its boot, with an image in copy A of its flash. -/
def booting (n t : Nat) : State := inA (fun x => { x with boot := { x.boot with
  stage := n, fusesSensed := true, vendorHash := sha512 (toLe 32 1), flashA := { dir := [(t, 128)], images := [(128, bootImage t)] } } })

/-- The loads of FS, ISL and ZEN, and an FS of which the flash has no copy (BootStagesFollow; R478). -/
theorem test_boot_stages :
    ([(0, 1), (1, 2), (2, 3)] : List (Nat × Nat)).all (fun p =>
      let s := booting p.1 p.2
      s.live .a && !(s.half .a).boot.failed && (s.half .a).boot.stage == p.1 && (s.half .a).boot.fusesSensed &&
        (s.load .a p.2 (fun _ => true)).2.isSome) = true ∧
    ((booting 0 2).load .a 1 (fun _ => true)).2 = none := by decide +kernel

/-- The load of DIR_S, and the slate image (BootStagesFollow, SlateIsFilled; R478, R479). -/
theorem test_boot_director_and_slate :
    let s := booting 3 4
    let x := booting 6 5
    let y := { x with a := { x.a with boot := { x.a.boot with slateVerified := true }, hbm := { x.a.hbm with train := 2 } } }
    ((s.load .a 4 (fun _ => true)).2.isSome = true ∧ (s.half .a).boot.stage = 3) ∧
    (y.live .a = true ∧ (y.half .a).boot.slateVerified = true ∧ (y.half .a).boot.slateReady = false ∧ (y.half .a).hbm.train = 2 ∧
      (y.tryCopies .a 5 slateOk ((y.half .a).boot.order 5)).2 = (some 0, 0)) := by decide +kernel

/-- Services follow the Director (BootStagesFollow; R480). -/
theorem test_boot_services :
    let s := booting 4 5
    (s.live .a = true ∧ (s.half .a).boot.failed = false ∧ (s.half .a).boot.stage = 4) ∧
    (match exec (.bootStageDone 0 .a .services) s, exec (.bootStageDone 0 .a .isl) s with
     | .next t, .next u => some ((t.half .a).boot.dictLevel, (u.half .a).boot.stage)
     | _, _ => none) = some (4, 4) := by decide +kernel

/-- A supply out of range and one within it, and Degraded that ends (ZenithReadings; R401, R404, R405). -/
theorem test_zenith_readings :
    let s := inA (fun x => { x with zen := { x.zen with power := .degraded, degradedClear := some 0 } })
    let e := { s with now := 10000000000 }
    (s.supplied .a = true ∧ (s.half .a).zen.supplyBad = false ∧ (e.half .a).zen.degradedClear = some 0 ∧
      (e.half .a).zen.power = .degraded ∧ 0 + 10000000000 ≤ e.now ∧ State.reset.a.zen.degradedClear = none) ∧
    (match exec (.supplyRange 0 .a 1700) s, exec (.supplyRange 0 .a 1710) s, exec (.flowPulse 6 .a) s with
     | .next t, .next u, .next v => some ((t.half .a).zen.supplyBad, (u.half .a).zen.supplyBad, (v.half .a).zen.flowPulses)
     | _, _, _ => none) = some (true, false, [6]) := by decide +kernel

/-- A unit at 120 °C takes one reactive step more (ThrottleSteps; R413). -/
theorem test_throttle :
    State.reset.supplied .a = true ∧
    (match exec (.throttleUpdate 0 .a) (inA (fun x => { x with zen := { x.zen with units := [(0, { temp16 := 1920 })] } })) with
     | .next u => some (u.unit .a 0).react
     | _ => none) = some 1 := by decide +kernel

/-- A sensor hot for 1 ms, a half that has tripped, and a cooling bit 10 s after its condition changed (TripsAndCooling; R416, R418). -/
theorem test_trips :
    let s := atNs 10000000000 (fun x => { x with zen := { x.zen with
      sensorHigh := [(4, 9999000000)], coolTimers := [some 0, some 1, none] } })
    (s.supplied .a = true ∧ (s.half .a).zen.tripped = false ∧
      (s.half .a).zen.sensorHigh.find? (fun p => decide (p.2 + 1000000 ≤ s.now)) = some (4, 9999000000) ∧
      State.reset.a.zen.sensorHigh.find? (fun p => decide (p.2 + 1000000 ≤ State.reset.now)) = none ∧
      ({ tripped := true } : Zen).tripped = true ∧ (s.half .a).zen.coolTimers.getD 0 none = some 0 ∧ 0 + 10000000000 ≤ s.now ∧
      (s.half .a).zen.coolTimers.getD 1 none = some 1 ∧ s.now < 1 + 10000000000) ∧
    (match exec (.thermalTrip 0 .a) s, exec (.coolStatusChange 0 .a 0) s with
     | .next t, .next u => some ((t.half .a).zen.regsOn, (t.half .a).isl.fenced, (u.half .a).zen.coolStatus)
     | _, _ => none) = some (false, true, 1) := by decide +kernel

/-- A measurement, and a BIST that has run (AgeingAndBist; R419, R420, R426). -/
theorem test_ageing_and_bist :
    let s := atNs 3600000000000 (fun x => { x with zen := { x.zen with poweredHours := 7 } })
    let b := inA (fun x => { x with zen := { x.zen with power := .testing, bistRunning := true } })
    (s.supplied .a = true ∧ ((80 : Int) - (s.half .a).zen.ageTemp).natAbs ≤ 80 ∧ 80 < ((81 : Int) - (s.half .a).zen.ageTemp).natAbs ∧
      (s.half .a).zen.poweredHours ≠ 0 ∧ (b.half .a).zen.bistRunning = true ∧ (b.half .a).zen.power = .testing ∧
      (s.half .a).zen.bistRunning = false ∧ (s.half .a).zen.hourAt + 3600000000000 ≤ s.now ∧ b.now < (b.half .a).zen.hourAt + 3600000000000) ∧
    (match exec (.ageMeasure 0 .a 80 [9]) s, exec (.ageMeasure 0 .a 81 [9]) s, exec (.bistDone 0 .a [] [] []) b with
     | .next t, .next u, .next v => some ((t.half .a).zen.age.getD 0 0, (u.half .a).zen.age.getD 0 0, (v.half .a).zen.lastBist)
     | _, _, _ => none) = some (9, 0, 1) := by decide +kernel

/-- The copy in boot flash B serves where the one in A fails its checks (LoadTriesBothCopies; R478). -/
theorem test_second_copy :
    let s := (booting 0 1).modBoot .a (fun b => { b with flashA := { dir := [(1, 128)] }, flashB := { dir := [(0, 0), (1, 192)], images := [(192, bootImage 1)] } })
    let b := (s.half .a).boot
    b.order 1 = [0, 1] ∧ s.verify .a 1 (b.copy 1 0) ≠ 0 ∧ s.verify .a 1 (b.copy 1 1) = 0 := by decide +kernel

/-- A sensor fault becomes a status bit, and sets COOL_DEGRADED (TripsAndCooling; R418). -/
theorem test_cool_sensor :
    let s := atNs 10000000000 (fun x => { x with zen := { x.zen with coolTimers := [none, none, some 0] } })
    (match exec (.coolStatusChange 0 .a 2) s with
     | .next t => (t.half .a).zen.coolStatus
     | _ => 0) = 6 := by decide +kernel

/-- Fuses sensed with the rails in range or not (PowerComesAndGoes; R402, R508). -/
theorem test_fuse_sense :
    let s := inA (fun x => { x with boot := { x.boot with custHash := [[7], []], custProgrammed := [true, false] } })
    let run := fun (ok : Bool) => match exec (.fuseSense 0 .a ok) s with
      | .next t => ((t.half .a).boot.fusesSensed, (t.half .a).boot.vioOk, (t.half .a).boot.keysAtBoot.getD 0 ([], false, false), (t.half .a).hbm.train)
      | _ => (false, false, ([], false, false), 9)
    s.supplied .a = true ∧ (s.half .a).boot.fusesSensed = false ∧ (run true).2.2 = (([7], true, false), 1) ∧ (run true).1 = true ∧
      (run false).1 = false ∧ (run false).2.1 = false := by decide +kernel

/-- What the supply's removal cuts off: the programming of a fuse row, of a key slot and of a counter, each still in its time, and each
over (PowerComesAndGoes; R425, R430, R501). -/
theorem test_power_cut_premises :
    (let s := inA (fun x => { x with zen := { x.zen with power := .testing, bistRunning := true, fuseRows := [(0, 0xFFFFFFFF)] } })
     (s.half .a).zen.bistRunning = true ∧ (s.half .a).zen.row 1 = 0 ∧ rowFree ((s.half .a).zen.row 0) = false) ∧
    (let s := inA (fun x => { x with boot := { x.boot with
       keyBurnt := some (1, 5), rollBurnt := some (3, 5, 2), custProgrammed := [false, true], custHash := [[], [0xFF]], rollback := [0, 0, 4] } })
     s.supplied .a = true ∧ s.now < 5 + Config.fuseTime ∧ 3 - 1 < (s.half .a).boot.rollback.length ∧ (s.half .a).boot.keyBurnt = some (1, 5) ∧
       (s.half .a).boot.rollBurnt = some (3, 5, 2)) ∧
    State.reset.a.boot.keyBurnt = none ∧ State.reset.a.boot.rollBurnt = none :=
  ⟨by decide +kernel, ⟨by decide, by show 0 < 5 + Config.fuseTime; omega, by decide, rfl, rfl⟩, rfl, rfl⟩

/-- A required image that fails while the link is up, and while it is not (BootChain; R310, R481). -/
theorem test_boot_fails :
    let s := linked (booting 2 3)
    let u := s.bootFails .a
    (s.linkUp (otherHalf .a) = true ∧ (booting 2 3).linkUp (otherHalf .a) = false) ∧
      ((u.half .a).boot.failed, (u.half .a).isl.halfState, (u.half .b).link.state, (u.half .a).link.state) = (true, 6, 2, 0) := by
  decide +kernel

/-- A restart with LOCK in effect, with a good snapshot, and with a bad one (BootChain; R315, R379, R474). -/
theorem test_director_runs :
    let x := fun (lock good : Bool) => { State.reset.a with
      prot := { lock := lock }
      isl := { State.reset.a.isl with halfState := 4, snapshot := { State.reset.a.isl.snapshot with taken := true, good := good, lock := true } } }
    let w := fun (x : HalfState) => (HalfState.directorRuns .a 0 x).prot
    (w (x true true) = { lock := true } ∧ ((w (x false true)).lock, (w (x false true)).enforce) = (true, false)) ∧
      (w (x false false)).enforce = true := ⟨by decide +kernel, rfl⟩

/-! ### The dictionary -/

/-- A half with its whole dictionary, in service. -/
def serving (x : HalfState) : HalfState := { x with
  boot := { x.boot with stage := 4, dictLevel := 4, sdioLevel := 4, slateReady := true }
  isl := { x.isl with halfState := 2 }, zen := { x.zen with power := .run } }

/-- Both halves in service, with changes of Half A and of Half B. -/
def served (f g : HalfState → HalfState) : State :=
  { State.reset with a := f (serving State.reset.a), b := g (serving State.reset.b) }

/-- The conditions of Admits, evaluated. -/
def admits (s : State) (ch : Channel) (index sub : Nat) (data : List Byte) : Bool :=
  s.channelOpen ch && !(s.chan ch (s.chanHome ch index)).inFlight && !s.notReady ch index && s.accessAbort ch index sub true == 0 &&
    (match entryAt (entryIndex index) sub with
     | some e => lengthAbort (entryIndex index) sub e data == 0 &&
        (Noted s ch index).rangeAbort (s.answerer index) (entryIndex index) sub e data == 0 &&
        (Noted s ch index).stateAbort ch index sub e true == 0
     | none => false)

/-- A write that is evaluated to be admitted is admitted. -/
theorem admits_sound {s : State} {ch : Channel} {index sub : Nat} {data : List Byte} (h : admits s ch index sub data = true) :
    Admits s ch index sub data := by
  unfold admits at h
  split at h
  · next e he =>
    simp only [Bool.and_eq_true, Bool.not_eq_true', beq_iff_eq] at h
    obtain ⟨⟨⟨⟨h1, h2⟩, h3⟩, h4⟩, ⟨h5, h6⟩, h7⟩ := h
    exact ⟨h1, h2, h3, h4, e, he, h5, h6, h7⟩
  · simp at h

/-- A read that goes, and reads that meet each other condition (DictReads; R432, R441). -/
theorem test_dict_reads :
    let s := served id id
    let busy := s.modChan .sdio .a (fun c => { c with inFlight := true })
    let low := s.modBoot .a (fun b => { b with dictLevel := 1 })
    (s.channelOpen .sdio = true ∧ 2 ≤ s.servedLevel .sdio 0x5000 ∧ (s.chan .sdio .a).inFlight = false ∧
      s.notReady .sdio 0x5000 = false ∧ s.accessAbort .sdio 0x5000 1 false = 0 ∧ (busy.chan .sdio .a).inFlight = true ∧
      low.channelOpen .sdio = true ∧ low.servedLevel .sdio 0x5000 < 2 ∧ s.accessAbort .sdio 0x0F00 1 false ≠ 0) ∧
    (match entryAt 0x5000 1 with
     | some e => s.stateAbort .sdio 0x5000 1 e false
     | none => 1) = 0 ∧
    (match exec (.dictRead 0 .sdio 9 0x5000 1 0 0) s with
     | .next t => some (leAt t.sdio.rsp 0 1, leAt t.sdio.rsp 1 1, leAt t.sdio.rsp 6 2, leAt t.sdio.rsp 16 1)
     | _ => none) = some (0x81, 9, 0, 2) := by decide +kernel

/-- A whole write of NTC_B, and segments in and out of order (DictWrites; R442, R443). -/
theorem test_dict_writes :
    let s := served id id
    let x := s.modChan .sdio .a Chan.done
    let d : List Byte := toLe 2 3950
    let other := s.modChan .sdio .a (fun c => { c with inFlight := true, txn := 7 })
    (s.channelOpen .sdio = true ∧ 2 ≤ s.servedLevel .sdio 0x6100 ∧ s.notReady .sdio 0x6100 = false ∧ (s.chan .sdio .a).inFlight = false ∧
      s.accessAbort .sdio 0x6100 0x19 true = 0 ∧ d.length ≤ capacityOf .sdio ∧ sessionControl (entryIndex 0x6100) = false ∧
      x.holds .sdio (x.answerer 0x6100) = false ∧ admits x .sdio 0x6100 0x19 d = true ∧
      (entryAt (entryIndex 0x6100) 0x19).map (fun e => (e.access == .rw, e.session)) = some (true, false)) ∧
    ¬((other.chan .sdio .a).inFlight = false ∨ (other.chan .sdio .a).txn = 8) ∧
    (match exec (.dictWrite 0 .sdio 3 0x6100 0x19 0 true d) s, exec (.dictWrite 0 .sdio 3 0x6100 0x19 0 false d) s,
        exec (.dictWrite 0 .sdio 3 0x6100 0x19 4 true d) s with
     | .next t, .next u, .next v =>
       some ((t.half .a).zen.ntcB, ((u.chan .sdio .a).inFlight, (u.chan .sdio .a).gathered), leAt v.sdio.rsp 6 2)
     | _, _, _ => none) = some (3950, (true, d), 0xA103) := by decide +kernel

/-- A segment 50 ms late, and a cancel (DictWrites; R444). -/
theorem test_dict_timeout :
    let f := { ((served id id).modChan .sdio .a (fun c => { c with inFlight := true, txn := 7, index := 0x6100, sub := 0x19 })) with
      now := 50000001 }
    ((f.chan .sdio .a).inFlight = true ∧ (f.chan .sdio .a).startedAt + 50000000 < f.now ∧ 2 ≤ f.servedLevel .sdio 0) ∧
    (match exec (.dictTimeout 0 .sdio) f, exec (.dictCancel 0 .sdio 7) f with
     | .next t, .next u => some (leAt t.sdio.rsp 6 2, (t.chan .sdio .a).inFlight, (u.chan .sdio .a).inFlight)
     | _, _ => none) = some (0xA303, false, false) := by decide +kernel

/-- HALF_CTL and DERATE_CLEAR are admitted, in service, held out, failed and retired (HalfControl; R380, R382, R396). -/
theorem test_half_control :
    let x := fun n => served (fun x => { x with isl := { x.isl with halfState := n, fenced := 5 < n, derate := 5 } }) id
    ([(2, 2), (5, 1), (6, 1), (2, 3), (2, 4), (7, 1), (7, 2), (7, 3), (7, 4)] : List (Nat × Byte)).all (fun p =>
      admits (x p.1) .sdio 0x5000 2 [p.2]) = true ∧
    admits (x 2) .sdio 0x5000 0x31 (toLe 8 4) = true ∧ ((x 5).half .a).isl.unconfigured = false ∧
    (match exec (.halfCtlHoldOut 0 .sdio .a) (x 2), exec (.derateClear 0 .sdio .a 4) (x 2), exec (.halfCtlRetire 0 .sdio .a) (x 2) with
     | .next t, .next u, .next v => some ((t.half .a).isl.halfState, (u.half .a).isl.derate, (v.half .a).isl.halfState)
     | _, _, _ => none) = some (5, 1, 7) := by decide +kernel

/-- POWER_CTL in Run, in Shutdown-test and in Boot (PowerControl; R421, R422). -/
theorem test_power_control :
    let x := fun p => served (fun x => { x with zen := { x.zen with power := p } }) (fun x => { x with zen := { x.zen with power := p } })
    (x .run).powerState = .run ∧ (x .testing).powerState = .testing ∧ (x .boot).powerState = .boot ∧
    ([2, 3, 4] : List Byte).all (fun v => admits (x .run) .sdio 0x6000 1 [v]) = true ∧
    ([3, 4] : List Byte).all (fun v => admits (x .testing) .sdio 0x6000 1 [v]) = true ∧
    admits (x .boot) .sdio 0x6000 1 [3] = true ∧
    (match exec (.shutdown 0 .sdio) (x .run), exec (.shutdown 0 .sdio) (x .boot), exec (.restart 0 .sdio) (x .testing) with
     | .next t, .next u, .next v => some (t.powerState, leAt u.sdio.rsp 6 2, v.powerState)
     | _, _, _ => none) = some (.testing, 0xA201, .boot) := by decide +kernel

/-- A session that the SDIO host holds, with a set staged. -/
def holdingSession (l : List (Nat × Nat × List Byte)) : State :=
  served (fun x => { x with session := { state := 1, holder := 0, staged := l } }) id

/-- Its staged set: the size of a camera's field. -/
def stagedSet : List (Nat × Nat × List Byte) := [(0x1200, 4, toLe 2 100)]

/-- A session that is free, and one that is held (EditSessions; R445 to R449). -/
theorem test_session_premises :
    let s := served id id
    let good := holdingSession stagedSet
    let u := Noted good .sdio 0x1F00
    (admits s .sdio 0x1F00 1 [1] && decide ((s.half .a).session.state ≠ 1) && !(s.half .a).down && good.holds .sdio .a &&
      !s.holds .sdio .a && admits good .sdio 0x1F00 1 [1] && admits good .sdio 0x1F00 2 [1] && admits good .sdio 0x1F00 3 [1] &&
      admits s .sdio 0x1F00 2 [1] && admits good .sdio 0x4000 3 [1] && admits good .sdio 0x4000 3 [2] &&
      !u.commitBad (u.putAll .a stagedSet) .a stagedSet && u.commitArmError (u.putAll .a stagedSet) .a stagedSet == 0) = true := by
  decide +kernel

/-- OPEN, ARM, COMMIT, and a session that is 1 s old (EditSessions; R445, R449, R450). -/
theorem test_sessions :
    let late := { holdingSession [] with now := 1000000000 }
    (late.supplied .a = true ∧ (late.half .a).session.lastWrite + 1000000000 ≤ late.now ∧
      State.reset.now < State.reset.a.session.lastWrite + 1000000000) ∧
    (match exec (.openSession 0 .sdio .a) (served id id), exec (.arm 0 .sdio .a) (holdingSession stagedSet) with
     | .next t, .next u => some ((t.half .a).session.state, (t.half .a).session.holder, (u.half .a).session.staged.map (·.1))
     | _, _ => none) = some (1, 0, [0x1200, 0x4000]) ∧
    (match exec (.commit 0 .sdio .a) (holdingSession stagedSet), exec (.sessionExpire 0 .a) late with
     | .next t, .next u => some ((t.half .a).session.state, (t.half .a).session.newest.map (·.1), (u.half .a).session.state)
     | _, _ => none) = some (2, [0x1200], 5) := by decide +kernel

/-- A set that breaks a condition of COMMIT: a crop of no width (EditSessions; R448). -/
theorem test_commit_refused :
    let l : List (Nat × Nat × List Byte) := [(0x4000, 1, toLe 8 0x1004), (0x4000, 3, [1])]
    let s := served (fun x => { x with session := { state := 1, holder := 0, staged := l } }) id
    let u := Noted s .sdio 0x1F00
    (u.commitBad (u.putAll .a l) .a l || u.commitArmError (u.putAll .a l) .a l != 0) = true := by decide +kernel

/-- Keys and counters: a blank slot, a programmed one, and what REVOKE_KEY asks (SecurityCommands; R483, R484). -/
theorem test_keys :
    let h : List Byte := List.replicate 64 5
    let f := fun (x : HalfState) => { x with boot := { x.boot with
      custHash := [h, []], custProgrammed := [true, false], measures := [{ type := 1, copy := 0, signer := 0, version := 0, rollback := 4, digest := [] }] } }
    let s := served f f
    (admits s .sdio 0x9002 2 (toLe 1 1 ++ h) = true ∧ admits s .sdio 0x9002 2 (toLe 1 0 ++ h) = true ∧ s.partnerRuns = true ∧
      s.twoHalves = true ∧ (s.half s.answering).boot.slotBlank 1 = true ∧ (s.half s.answering).boot.slotBlank 0 = false ∧
      admits s .sdio 0x9002 3 (toLe 1 1) = true ∧ admits s .sdio 0x9002 3 (toLe 1 0) = true ∧
      admits s .sdio 0x9001 3 (toLe 1 1) = true) ∧
    (match exec (.keyProgram 0 .sdio 1 h) s, exec (.keyProgram 0 .sdio 0 h) s, exec (.revokeKey 0 .sdio 1) s,
        exec (.rollbackCommit 0 .sdio 1) s with
     | .next t, .next u, .next v, .next w =>
       some (t.b.boot.custHash.getD 1 [] == h, leAt u.sdio.rsp 6 2, v.b.boot.custRevoked.getD 1 false, w.b.boot.rollback.getD 0 0)
     | _, _, _, _ => none) = some (true, 0xA201, true, 4) := by decide +kernel

/-- A nonce, an image and an account are admitted, and an image that has been written (SecurityCommands; R350, R488, R499). -/
theorem test_attest_update_clear :
    let s := served (fun x => { x with boot := { x.boot with vendorHash := sha512 (toLe 32 1) } })
      (fun x => { x with isl := { x.isl with fenced := true, halfState := 6 } })
    let w := s.modBoot .a (fun b => { b with updating := some (3, 1, [7]) })
    let c := s.modJob .a 9 (fun j => { j with waitSum := 5, preemptions := 2 })
    (admits s .sdio 0x9004 1 (List.replicate 32 1) = true ∧ admits s .sdio 0x9006 1 (bootImage 1) = true ∧
      s.running .a = true ∧ s.running .b = false ∧ imgType (bootImage 1) = 1 ∧ s.verify .a 1 (bootImage 1) = 0 ∧
      admits s .sdio 0x8009 4 [1] = true) ∧
    (match exec (.updateWritten 0 .a) w, exec (.clear 0 .sdio .a 9) c with
     | .next t, .next u => some ((t.half .a).boot.copy 3 1, (u.job .a 9).waitSum, (u.job .a 9).preemptions)
     | _, _ => none) = some ([7], 0, 0) := by decide +kernel

/-- A BIST that is skipped for the supply, and one that runs (ShutdownEffects; R421 to R423). -/
theorem test_shut_half :
    let s := served id id
    ((s.half .a).bistSkip 1700 0 = 4 ∧ (s.half .a).bistSkip 1800 0 = 0) ∧
    (((s.shutHalf true 1700 0 .a).half .a).zen.lastBist, ((s.shutHalf true 1800 0 .a).half .a).zen.bistRunning) = (4, true) := by
  decide +kernel

/-- The requests DictWrites and EditSessions refuse: a part of another transaction, a late offset, a session of another's
(R442, R443, R449). -/
theorem test_refused_requests :
    let s := (served id id).modChan .sdio .a (fun c => { c with inFlight := true, txn := 7, index := 0x6100, sub := 0x19 })
    (match exec (.dictWrite 0 .sdio 8 0x6100 0x19 0 true []) s, exec (.dictWrite 0 .sdio 7 0x6100 0x19 1 true []) s,
        exec (.commit 0 .sdio .a) (served id id) with
     | .next t, .next u, .next v => [leAt t.sdio.rsp 6 2, leAt u.sdio.rsp 6 2, leAt v.sdio.rsp 6 2]
     | _, _, _ => []) = [0xA302, 0xA103, 0xA203] := by decide +kernel

/-- HALF_STATE of a half whose boot failed, read over SDIO from its partner (DictReads; R481), and other reads of it. -/
theorem test_failed_boot_is_reported :
    let s := served (fun x => { x with boot := { x.boot with failed := true, dictLevel := 0 }, isl := { x.isl with halfState := 6 } }) id
    let q := fun (i : Nat) => ({ op := 1, txn := 9, index := i, sub := 1, offset := 0, max := 0 } : Request)
    (s.channelOpen .sdio = true ∧ s.partnerReports .sdio (q 0x5000) = true ∧ s.partnerReports .sdio (q 0x6000) = false ∧
      s.accessAbort .sdio 0x5000 1 false = 0 ∧ s.servedLevel .sdio 0x5000 < 2) ∧
    (match exec (.dictRead 0 .sdio 9 0x5000 1 0 0) s with
     | .next t => (leAt t.sdio.rsp 6 2, leAt t.sdio.rsp 16 1)
     | _ => (9, 9)) = (0, 6) := by decide +kernel

/-- A holder's command that can act, one that cannot, and one for which the session is full (HolderStagesCommands; R446, R449). -/
theorem test_holder_stages :
    let s := holdingSession stagedSet
    let full := holdingSession ((List.range 256).map (fun n => (0x1200, n, [])))
    let down := s.modIsl .a (fun i => { i with halfState := 7 })
    let code := fun (s : State) => ((Noted s .sdio 0x5000).command' .a 0x5000 2 [2]).2
    let run := fun (s : State) => match exec (.halfCtlHoldOut 0 .sdio .a) s with
      | .next t => ((t.half .a).session.staged.map (·.1), (t.half .a).isl.halfState, leAt t.sdio.rsp 6 2)
      | _ => ([], 9, 9)
    (commandRow (.halfCtlHoldOut 0 .sdio .a) = some (0, .sdio, 0x5000, 2, [2]) ∧ actsAtOnce 0x5000 2 = true ∧
      s.holds .sdio (s.answerer 0x5000) = true ∧ [s, full, down].all (fun s => admits s .sdio 0x5000 2 [2]) = true ∧
      [code s, code full, code down] = [0, 0, 0xA201]) ∧
    [run s, run down] = [([0x1200, 0x5000], 2, 0), ([0x1200], 7, 0xA201)] ∧ (run full).2 = (2, 0xA101) := by decide +kernel

/-- A set committed before a boundary, one committed in its cycle, and one with a command (StagingKeepsOrder, SetsAreReleased; R449,
R470). -/
theorem test_sets :
    let l : List Staged := [(0x5000, 2, [2])]
    let x : Session := { committedAt := 7, committed := stagedSet, newest := l }
    let s := (inA (fun y => { serving y with session := x })).advance 0
    InIndexOrder stagedSet ∧ InIndexOrder l ∧
    (x.due 8, x.due 7) = (stagedSet ++ l, stagedSet) ∧ x.due 8 = joinSets stagedSet l ∧
    (({ s with now := 8 } : State).actAll .a (x.due 8) |>.half .a).isl.halfState = 5 ∧ ({} : Session).due 8 = [] ∧
    actsAtOnce 0x1200 4 = false := by
  refine ⟨?_, ?_, ?_⟩
  · unfold InIndexOrder; decide
  · unfold InIndexOrder; decide
  · decide +kernel

/-- What acts only outside a session of its channel (Acts; R446): each command of a channel that holds none. -/
theorem test_acts :
    let x := served (fun x => { x with boot := { x.boot with custHash := [List.replicate 64 5, []], custProgrammed := [true, false] } }) id
    x.holds .sdio (x.answerer 0x5000) = false ∧ x.holds .sdio (x.answerer 0x6000) = false ∧ x.holds .sdio (x.answerer 0x9002) = false ∧
      admits x .sdio 0x5000 2 [3] = true ∧ admits x .sdio 0x6000 1 [3] = true ∧ admits x .sdio 0x9002 3 (toLe 1 1) = true ∧
      (holdingSession []).holds .sdio .a = true := by decide +kernel

/-- HOLD_OUT ends a failed half's hold-off and holds it out (HalfAndPowerControl; R382, R396). -/
theorem test_failed_half_is_held_out :
    let s := (served id id).modIsl .a (fun i => { i with fenced := true, halfState := 6, restartTimes := [4] })
    admits s .sdio 0x5000 2 [2] = true ∧ s.holds .sdio (s.answerer 0x5000) = false ∧
    (match exec (.halfCtlHoldOut 0 .sdio .a) s with
     | .next t => ((t.half .a).isl.halfState, (t.half .a).isl.restartTimes, leAt t.sdio.rsp 6 2)
     | _ => (9, [], 9)) = (5, [], 0) := by decide +kernel

/-! ### The host ports -/

/-- The SDIO card selected and ready, with a host's identification. -/
def card : State := { served id id with sdio := { ocrSeen := true, rca := 7, selected := true, v18 := true } }

/-- Card commands (SdioCard; R454): CMD7 of another card, CMD15 of this one, and the OCR before and after the ready row. -/
theorem test_sdio_card :
    let low := { card with a := { card.a with boot := { card.a.boot with sdioLevel := 1 } } }
    (card.sdioAnswers = true ∧ card.sdio.ocrSeen = true ∧ card.sdio.rca ≠ 0 ∧ field (0x70000#32).toNat 31 16 = card.sdio.rca ∧
      card.sdio.selected = true ∧ card.sdio.v18 = true ∧ low.sdioAnswers = true) ∧
    (match exec (.cmd7 0 0x80000) card, exec (.cmd15 0 0x70000) card with
     | .next t, .next u => some (t.sdio.selected, u.sdio.inactive)
     | _, _ => none) = some (false, true) := by decide +kernel

/-- The mailbox (SdioMailbox; R455, R456): a CMD52 write and read of REQ, and a CMD53 of the memory window. -/
theorem test_sdio_mailbox :
    let w := BitVec.ofNat 32 (2 ^ 31 + 2 ^ 28 + 0x200 * 2 ^ 9 + 0xA5)
    let r := BitVec.ofNat 32 (2 ^ 28 + 0x200 * 2 ^ 9)
    let w3 := BitVec.ofNat 32 (2 ^ 31 + 2 * 2 ^ 28 + 2 ^ 26 + 0x10 * 2 ^ 9 + 3)
    (card.sdioReady = true ∧ Memory.wf card.mem = true ∧ flag (1#8).toNat 0 = true ∧ flag (2#8).toNat 0 = false ∧
      flag w.toNat 31 = true ∧ flag w.toNat 27 = false ∧ flag r.toNat 31 = false ∧ flag (w ||| 0x8000000).toNat 27 = true) ∧
    (field w3.toNat 30 28 = 2 ∧ flag w3.toNat 26 = true ∧ card.cmd53Bytes 2 w3.toNat = 3 ∧ card.f2Served = true ∧
      card.sdio.f2Mode = 0 ∧ flag w3.toNat 31 = true ∧ card.hostCheck true true { base := 0x10, len := 3 } = .ok ∧
      card.hostCheck true false { base := 0x10, len := 3 } = .ok) ∧
    (match exec (.cmd53 0 w3 [1, 2, 3]) card with
     | .next t => t.mem
     | _ => []) = [(0x10, 1), (0x11, 2), (0x12, 3)] := by decide +kernel

/-- A request frame, one that is none, and an emergency message that waits (CanTraffic; R458 to R461). -/
theorem test_can :
    let f := fun (x : HalfState) => { x with can := { x.can with onBus := true, emcyQueue := [List.replicate 48 3], rejoinAt := some 5 } }
    let s := served f id
    (s.channelOpen (.can .a) = true ∧ (s.half .a).can.emcyQueue = [List.replicate 48 3] ∧ (served id id).a.can.onBus = false ∧
      (s.half .a).can.rejoinAt.isSome = true ∧ (0x1B4A0100 : Nat) = (s.half .a).can.reqId ∧
      16 ≤ (List.replicate 16 (1 : Byte)).length ∧ s.supplied .a = true) ∧
    (match exec (.emcySend 0 .a) s, exec (.busOff 0 .a) s with
     | .next t, .next u => some ((t.half .a).can.emcyQueue.length, (t.half .a).can.emcySeq, (u.half .a).can.busOffCount)
     | _, _ => none) = some (0, 1, 1) := by decide +kernel

/-- A full queue that holds a class 7 message takes a class 5 one in its place (EmergencyQueue; R461). -/
theorem test_emergency_queue :
    let m := fun n => toLe 2 n ++ [7]
    let c : Can := { emcyQueue := (toLe 2 9 ++ [6]) :: (List.range 15).map m }
    let d := queueEmcy 0 { code := 0x503, cls := 5 } true [] c
    c.emcyQueue.length = 16 ∧ (d.emcyQueue.length, d.emcyQueue.map (fun x => leAt x 0 2), d.emcyLost) =
      (16, [9, 1, 2, 3, 4, 5, 6, 7, 8, 9, 10, 11, 12, 13, 14, 0x503], 1) := by decide +kernel

/-- An entry's bytes (FaultLogEntryLayout; R361). -/
theorem test_fault_log_entry :
    let l := State.reset.logEntry .a { code := 0x0302, cls := 1, unit := 6, ctx := 9, tag := 0x1234, detail := 77 }
    l.length = 32 ∧ l.take 8 = [0x00, 0x34, 0x12, 9, 6, 1, 0x02, 0x03] ∧ leAt l 24 8 = 77 := by decide +kernel

/-- The endpoint in L0, with BAR2 served and not, and a half whose link may come up (PcieEndpoint; R462 to R466). -/
theorem test_pcie :
    let open' : RegionDesc := { base := 0, limit := 15, attr := BitVec.ofNat 64 (2 ^ 64 - 1) }
    let s := served (fun x => { x with
      pcie := { x.pcie with linkState := 2, perstN := true }, prot := { x.prot with enforce := true, regions := [(0, open')] } }) id
    let low := s.modBoot .a (fun b => { b with dictLevel := 3 })
    (Memory.wf s.mem = true ∧ s.live .a = true ∧ (s.half .a).pcie.linkState = 2 ∧ (s.half .a).bar2Served = true ∧
      bar2Addr .a 0x40 = some 0x40 ∧ bar2Addr .a (hbmBytes + poolBytes) = none ∧
      s.hostCheck false true { base := 0x40, len := 2 } = .ok ∧ s.hostCheck false false { base := 0x40, len := 2 } = .ok ∧
      (low.half .a).bar2Served = false ∧ (s.half .a).pcie.perstN = true ∧ 4 ≤ (s.half .a).boot.stage) ∧
    (match exec (.bar2Write 0 .a 0x40 [5, 6]) s, exec (.hotReset 0 .a) s with
     | .next t, .next u => some (t.mem.map (·.1), (u.half .a).pcie.linkState == 2)
     | _, _ => none) = some ([0x40, 0x41], false) := by decide +kernel

/-- Registers by their offsets, locked and not, with a ring on and off (RegisterWrites; R13, R280, R315). -/
theorem test_register_write :
    let s := inA (fun x => { x with hzn := { x.hzn with rings := [(3, { enable := true })] } })
    let l := inA (fun x => { x with prot := { x.prot with lock := true } })
    (s.live .a = true ∧ (s.half .a).prot.lock = false ∧ (l.half .a).prot.lock = true ∧ (s.ring .a 0).enable = false ∧
      (s.ring .a 3).enable = true) ∧
    (match exec (.registerWrite 0 .a 0x402000 0x5000 .secure) s, exec (.registerWrite 0 .a 0x8008E0 0x7000 .secure) s with
     | .next t, .next u => some ((t.ring .a 0).base, (u.half .a).prot.staged.map (fun p => (p.1, p.2.base)))
     | _, _ => none) = some (0x5000, [(63, 7)]) := by decide +kernel

/-! ### Tally -/

/-- A tariff of 1,000 pulses a km, 300 at the flag, 200 a km and 60 a minute, with a switch speed of 18 km/h. -/
def tariff1 : Tariff := { kPulse := 1000, flagFall := 300, perKm := 200, perMin := 60, vSwitch := 18 }

/-- Tally supplied, with a tariff and a fare. -/
def metered (u : Tally) (f : Fare) : State := { State.reset with tally := { u with powered := true, tariff := some tariff1, live := f } }

/-- HIRE, STOP and CLEAR in the states they act in (FareStates; R492, R493). -/
theorem test_fare_states :
    let h := metered {} {}
    let r := metered {} { state := .hired, fare := 300 }
    let p := metered {} { state := .stopped, fare := 450 }
    (h.tallyRuns = true ∧ h.tally.live.state = .forHire ∧ h.tally.tariff = some tariff1 ∧ r.tally.live.state ≠ .forHire ∧
      p.tally.live.state ≠ .hired ∧ r.tally.live.state ≠ .stopped) ∧
    (match exec (.hire 0 true) h, exec (.stop 0 true) r, exec (.clearFare 0 true) p with
     | .next t, .next u, .next v =>
       some ((t.tally.live.state, t.tally.live.fare), (u.tally.live.state, u.tally.live.fare), v.tally.live.state)
     | _, _, _ => none) = some ((.hired, 300), (.stopped, 300), .forHire) := by decide +kernel

/-- A tick of 500 pulses at the switch speed, and one of none below it (TickCharges; R494, R497): by hand,
300 + 545 · 200 / 1000 + 9 · 60 / 600 and 300 + 45 · 200 / 1000 + 10 · 60 / 600, each cut to whole units. -/
theorem test_tick :
    let s := fun n => { metered { tickPulses := n } { state := .hired, fare := 300, pulsesDist := 45, ticksTime := 9 } with now := 100000000 }
    (tariff1.vSwitch * tariff1.kPulse ≤ 500 * 36000 ∧ 0 * 36000 < tariff1.vSwitch * tariff1.kPulse ∧ (s 0).tally.tickAt + 100000000 ≤ (s 0).now) ∧
    (match exec (.tallyTick 0) (s 500), exec (.tallyTick 0) (s 0) with
     | .next t, .next u => some ((t.tally.live.fare, t.tally.live.odo), (u.tally.live.fare, u.tally.live.tripTicks))
     | _, _ => none) = some ((409, 500), (310, 1)) := by decide +kernel

/-- Pulses, a disagreement of 21, one of 20, and the seal (PulsesAndSeal; R492 to R494). -/
theorem test_pulses_and_seal :
    let s := metered { span0 := 1000, span1 := 1021 } { state := .hired, fare := 300 }
    let b := metered { span0 := 1000, span1 := 980, sealOpen := true } { state := .service }
    (s.tallyRuns = true ∧ s.tally.span0 = 1000 ∧ 1020 < s.tally.span1 ∧ s.tally.live.state ≠ .fault ∧ s.tally.live.state ≠ .service ∧
      980 ≤ b.tally.span1 ∧ b.tally.span1 ≤ 1020 ∧ s.tally.sealOpen = false ∧ b.tally.sealOpen = true ∧
      b.tally.live.state = .service) ∧
    (match exec (.pulseDisagreement 0) s, exec (.tallySeal 0 true) s, exec (.tallySeal 0 false) b with
     | .next t, .next u, .next v => some (t.tally.live.state, u.tally.live.state, v.tally.live.state)
     | _, _, _ => none) = some (.fault, .hired, .forHire) := by decide +kernel

/-- A loss of supply during a fare, and the power-up after it (TallyRecords, FareStandsOutsideHired; R495, R496). -/
theorem test_tally_power :
    let s := metered { powered := true, journal := { state := .hired, fare := 512 } } { state := .stopped, fare := 7 }
    let off := { s with tally := { s.tally with powered := false } }
    (s.tallyRuns = true ∧ s.tally.live.state ≠ .service ∧ s.tally.live.state ≠ .hired ∧ off.part = .fbz2400AT ∧
      off.tally.powered = false ∧ off.tallyRuns = false ∧ (metered {} { state := .service }).tally.live.state = .service) ∧
    (match exec (.tallyPowerUp 0) off, exec (.vauxTallyLoss 0) s with
     | .next t, .next u => some (t.tally.live.state, t.tally.live.fare, t.tally.live.interrupted, u.tally.window)
     | _, _ => none) = some (.stopped, 512, true, List.replicate 13 0) := by decide +kernel

/-- Ports and windows that do not act (SdioSilent, CanTraffic, BarAccesses; R454, R461, R185, R462): a port before its row, a
bus-off controller, a write into a bank that is being scrubbed, and one that the regions refuse. -/
theorem test_host_ports_that_wait :
    let open' : RegionDesc := { base := 0, limit := 0x1000010, attr := BitVec.ofNat 64 (2 ^ 64 - 1) }
    let s := served (fun x => { x with
      pcie := { x.pcie with linkState := 2 }, can := { x.can with onBus := true, busOff := true }
      prot := { x.prot with enforce := true, regions := [(0, open')] } }) id
    let scrub := s.modBank .a 0 (fun b => { b with hostWr := true, scrubbing := true })
    let dst : Region := { base := 0x1000000000, len := 1 }
    State.reset.sdioAnswers = false ∧ (s.half .a).can.busOff = true ∧
    (s.half .a).bar2Served = true ∧ bar2Addr .a hbmBytes = some 0x1000000000 ∧ scrub.hostCheck false true dst = .ok ∧
    scrub.waitsIn (.host false 0x1000000000 [5]) = some .a ∧ s.hostCheck false true dst ≠ .ok ∧
    (match exec (.bar2Write 0 .a hbmBytes [5]) scrub with
     | .next t => (t.mem, (t.half .a).dolly.held.length)
     | _ => ([], 9)) = ([], 1) := by decide +kernel

/-- A read and a write of HBM while the host's port holds its tokens and while it does not (SdioMailbox, PcieEndpoint; R292, R293). -/
theorem test_host_port_tokens :
    let dry := card.modHbm .a (fun m => { m with tokPort := [4096000, 4096000, 0] })
    let r : Region := { base := 0x10, len := 3 }
    let w3 := BitVec.ofNat 32 (2 ^ 31 + 2 * 2 ^ 28 + 2 ^ 26 + 0x10 * 2 ^ 9 + 3)
    (card.readWaits true r = false ∧ dry.readWaits true r = true ∧ card.waitsIn (.host true 0x10 [1, 2, 3]) = none ∧
      dry.waitsIn (.host true 0x10 [1, 2, 3]) = some .a ∧ dry.hostCheck true false r = .ok ∧ card.f2Waits 0x10 1 = false ∧
      dry.f2Waits 0x10 1 = true) ∧
    (match exec (.cmd53 0 w3 [1, 2, 3]) dry with
     | .next t => (t.mem, (t.half .a).dolly.held.length)
     | _ => ([], 9)) = ([], 1) := by decide +kernel

/-- A vector that may signal, one that is masked, and MSI-X disabled (PendingVectors; R462, R463). -/
theorem test_pending_vectors :
    let p : Pcie := { msixOn := true, msixPending := 6, msixTable := [(1, toLe 16 0)] }
    p.vectorOpen 1 = true ∧ p.vectorOpen 2 = false ∧ flag p.msixPending 1 = true ∧ ({ p with msixOn := false } : Pcie).vectorOpen 1 = false ∧
      (p.signalPending.msixPending, p.signalPending.msixSent) = (4, [1]) ∧ ((p.msix 2).msixSent, (p.msix 2).msixPending) = ([], 6) := by
  decide +kernel

/-- PCIE_PERST_N asserted after the link came up (PcieLink; R463, R466). -/
theorem test_perst_assertion :
    let s := served (fun x => { x with pcie := { x.pcie with linkState := 2, perstN := true, busMaster := true, config := [(4, 4)] } }) id
    (match exec (.pciePerst 0 { half := .a, deasserted := false }) s with
     | .next t => some ((t.half .a).pcie.perstN, (t.half .a).pcie.linkState, (t.half .a).pcie.busMaster)
     | _ => none) = some (false, 0, false) := by decide +kernel

/-- The seal closes after 1,500 channel-0 pulses in SERVICE: the last 1,000 of them decide (PulsesAndSeal; R493). -/
theorem test_seal_closes :
    let agree := fun (ones : Nat) => metered { sealOpen := true, svcSeen := 1500, svcOnes := 1480, svcMarks := ones :: (List.replicate 999 0 ++ [470]) }
      { state := .service }
    let goes := fun (s : State) => match exec (.tallySeal 0 false) s with
      | .next t => some t.tally.live.state
      | _ => none
    (agree 1470).tally.svcMarks.getD 1000 0 = 470 ∧ (agree 1470).tally.svcMarks.headD 0 = 1470 ∧
      [goes (agree 1450), goes (agree 1449), goes (agree 1490), goes (agree 1491), goes (metered { sealOpen := true } { state := .service }),
        goes (metered { sealOpen := true, svcOnes := 1 } { state := .service })] =
      [some .forHire, some .fault, some .forHire, some .fault, some .forHire, some .fault] := by decide +kernel

end Sys2Proof.Tests
end

section
/-! Proofs of the statements on the scope of the model: memory, register writes and the state after reset. -/

namespace Sys2Proof.Machine

open Sys2Proof

/-! ### A step, and a write from either world -/

/-- What a step that answers a next state has done: nothing on an empty queue, else the command at its front. -/
theorem step_cases {s t : State} (e : step s = .next t) :
    (s.pending = [] ∧ t = s) ∨
    ∃ c rest, s.pending = c :: rest ∧ exec c { s with pending := rest } = .next t := by
  simp only [step] at e
  split at e
  case h_1 hq => exact .inl ⟨hq, (Host.Outcome.next.inj e).symm⟩
  case h_2 c rest hq => exact .inr ⟨c, rest, hq, e⟩

@[simp] theorem secureOnly_secure (s : State) (h : Half) (u : Nat) (f : State → State) :
    s.secureOnly h u .secure f = f s := rfl

@[simp] theorem secureOnly_nonSecure (s : State) (h : Half) (u : Nat) (f : State → State) :
    s.secureOnly h u .nonSecure f = s.logUnlisted h .writeRefused { code := 0, unit := u } := rfl

/-- Two changes of Dolly's block are the same where they agree on the block as it stands. -/
theorem modDolly_congr {s : State} {h : Half} {f g : Dolly → Dolly} (e : f (s.half h).dolly = g (s.half h).dolly) :
    s.modDolly h f = s.modDolly h g := by
  unfold State.modDolly State.modHalf
  simp only [e]

/-! ### Both memories stay in canonical form (R11, R281) -/

theorem exec_canonicalMemories {i : Instr} {s t : State} (hs : CanonicalMemories s) (e : exec i s = .next t) :
    CanonicalMemories t :=
  have kept := exec_kept e
  ⟨kept.mem hs.1, kept.hostMem hs.2⟩

/-- Settles O1: the queue's rest takes no part in the memories, and every command keeps the canonical form. -/
theorem stepKeepsCanonicalMemories : Obligations.StepKeepsCanonicalMemories := by
  intro s t hs e
  obtain ⟨-, rfl⟩ | ⟨c, rest, -, e⟩ := step_cases e
  · exact hs
  · exact exec_canonicalMemories (s := { s with pending := rest }) hs e

/-- Settles O2: a run of bytes reads as written, and a byte before or behind it as before. -/
theorem storedBytesReadBack : Obligations.StoredBytesReadBack := fun s a l hs =>
  ⟨fun k hk => readByte_writeBytes s a k l hs hk, fun b hb => readByte_writeBytes_out s a b l hs hb⟩

/-! ### Applies and control registers (R13, R171, R200, R310, R315, R316) -/

/-- GROUP_CTL from the secure world, where the group is disabled or the write clears ENABLED (R200). -/
theorem groupCtl_accepted {s : State} {h : Half} {g v : Nat} (hg : g < 96)
    (ok : ¬(((s.half h).dolly.group g).enabled = true ∧ flag v 31 = true)) :
    s.groupCtl h g v .secure = s.modDolly h (fun d => { d with groups := tmod {} d.groups g (Group.write v) }) := by
  simp only [State.groupCtl, secureOnly_secure, if_neg (Nat.not_le.mpr hg), Bool.and_eq_true, if_neg ok]

/-- GROUP_CTL from the secure world, where an enabled group would stay enabled (R13). -/
theorem groupCtl_refused {s : State} {h : Half} {g v : Nat} (hg : g < 96)
    (on : ((s.half h).dolly.group g).enabled = true) (stays : flag v 31 = true) :
    s.groupCtl h g v .secure =
      s.logUnlisted h .writeRefused { code := 0, unit := 1, detail := 0x100400 + 4 * g } := by
  simp only [State.groupCtl, secureOnly_secure, if_neg (Nat.not_le.mpr hg), on, stays, Bool.and_self, if_true]

/-- PROT_CTL from the secure world (R315). -/
theorem protCtl_secure (s : State) (h : Half) (v : Nat) :
    s.protCtl h v .secure =
      if (s.half h).prot.lock then s.logUnlisted h .writeRefused { code := 0, unit := 0xFF, detail := 0x800000 }
      else s.modProt h (Prot.write h v) := rfl

theorem applyRegisters : Claim.ApplyRegisters := by
  intro t h g v s0 s refused hl
  have run : ∀ f : State → State, Host.Outcome.next (onLive s h f) = (.next (f s) : Host.Outcome State Fault Refusal) :=
    fun f => congrArg _ (onLive_of_live f hl)
  refine ⟨run _, run _, run _, run _, fun hg ok => ?_, fun hg on stays => ?_, fun free => ?_, fun locked => ?_,
    run _, run _, run _, run _, run _, run _⟩
  · exact (run _).trans (congrArg _ (groupCtl_accepted hg ok))
  · exact (run _).trans (congrArg _ (groupCtl_refused hg on stays))
  · exact (run _).trans (congrArg _ ((protCtl_secure s h v.toNat).trans (if_neg (by simp [free]))))
  · exact (run _).trans (congrArg _ ((protCtl_secure s h v.toNat).trans (if_pos locked)))

theorem Dolly.apply_of_pending {d : Dolly} (p : d.applyPending = true) :
    d.apply = { d with applyPending := false, regHbm := d.takeHbm, regCtr := d.takeCtr } := if_pos p

theorem Dolly.apply_of_not_pending {d : Dolly} (p : d.applyPending = false) : d.apply = d := if_neg (by simp [p])

theorem Hbm.apply_of_pending {m : Hbm} (p : m.applyPending = true) :
    m.apply = { m with
      applyPending := false, hznPrio := field m.takePort 7 6, dirPrio := field m.takePort 5 4
      pciePrio := field m.takePort 3 2 } := if_pos p

theorem Hbm.apply_of_not_pending {m : Hbm} (p : m.applyPending = false) : m.apply = m := if_neg (by simp [p])

theorem Link.apply_of_pending {l : Link} (p : l.applyPending = true) :
    l.apply = { l with applyPending := false, share := l.takeShare } := if_pos p

theorem Link.apply_of_not_pending {l : Link} (p : l.applyPending = false) : l.apply = l := if_neg (by simp [p])

theorem Prot.apply_of_pending {p : Prot} (w : p.pending = true) :
    p.apply = { p with
      pending := false, lock := p.lock || p.takeLock, enforce := p.takeEnforce, regions := p.take } := if_pos w

theorem Prot.apply_of_not_pending {p : Prot} (w : p.pending = false) : p.apply = p := if_neg (by simp [w])

theorem applyTakesWhatWasWritten : Claim.ApplyTakesWhatWasWritten := by
  refine ⟨fun d w => ?_, fun m w => ?_, fun l w => ?_, fun p w => ?_, fun d m l p wd wm wl wp => ?_⟩
  · rw [Dolly.apply_of_pending w]
    exact ⟨rfl, rfl, rfl, rfl⟩
  · rw [Hbm.apply_of_pending w]
    exact ⟨rfl, rfl, rfl, rfl⟩
  · rw [Link.apply_of_pending w]
    exact ⟨rfl, rfl⟩
  · rw [Prot.apply_of_pending w]
    exact ⟨rfl, rfl, rfl, rfl⟩
  · exact ⟨Dolly.apply_of_not_pending wd, Hbm.apply_of_not_pending wm, Link.apply_of_not_pending wl,
      Prot.apply_of_not_pending wp⟩

/-- Without an arming that waits, there is none to finish (R327). -/
theorem finishArming_of_none {s : State} {h : Half} (hr : (s.half h).disp.armRest = none) : s.finishArming h = s := by
  simp only [State.finishArming, hr]

/-- GROUP_DISABLE_DONE at a running half, by its condition (R200). -/
theorem execGroupDisableDone_of_live {t g : Nat} {h : Half} {s : State} (hl : (s.advance t).live h = true) :
    execGroupDisableDone t h g s = .next (
      let s := s.advance t
      let x := (s.half h).dolly.group g
      if x.disabling = true ∧ x.active = 0 then
        ((s.modDolly h (fun d => { d with groups := tmod {} d.groups g (Group.take (x.next.getD 0)) })).finishArming h).dispatch h
      else s) := by
  simp only [execGroupDisableDone, onLive_of_live _ hl, Bool.and_eq_true, beq_iff_eq]

theorem groupDisableTakesEffect : Claim.GroupDisableTakesEffect := by
  intro t h g s0 s x u hl
  have written : s.modDolly h (fun d => { d with groups := tmod {} d.groups g (Group.take (x.next.getD 0)) }) = u :=
    modDolly_congr rfl
  have run := execGroupDisableDone_of_live (g := g) hl
  refine ⟨fun clearing idle => ?_, fun hr => finishArming_of_none (by simpa [u] using hr), fun stays => ?_⟩
  · rw [← written]
    exact run.trans (congrArg _ (if_pos ⟨clearing, idle⟩))
  · exact run.trans (congrArg _ (if_neg stays))

/-- Settles O22: each register's own write, what a slot boundary then takes, and the end of a group's disabling. -/
theorem registerWritesOfDolly : Obligations.RegisterWritesOfDolly :=
  ⟨applyRegisters, applyTakesWhatWasWritten, groupDisableTakesEffect⟩

/-! ### REGISTER_WRITE by the offset (R12, R13, R280, R315) -/

theorem regWrite_hzn (s : State) (h : Half) {o : Nat} (v : Nat) (ho : o < 0x3000) :
    s.regWrite h (0x400000 + o) v = s.hznWrite h o v := by
  rw [State.regWrite, if_neg (by omega), if_pos (by omega), Nat.add_sub_cancel_left]

theorem regWrite_hbm (s : State) (h : Half) {o : Nat} (v : Nat) (ho : o < 0x1000) :
    s.regWrite h (0x600000 + o) v = s.hbmRegWrite h o v := by
  rw [State.regWrite, if_neg (by omega), if_neg (by omega), if_pos (by omega), Nat.add_sub_cancel_left]

theorem regWrite_prot (s : State) (h : Half) {o : Nat} (v : Nat) (ho : o < 0x1000) :
    s.regWrite h (0x800000 + o) v = s.protWrite h o v := by
  rw [State.regWrite, if_neg (by omega), if_neg (by omega), if_neg (by omega), if_neg (by omega), if_pos (by omega),
    Nat.add_sub_cancel_left]

/-- No block of the register window reaches 0xD00000: such an offset holds no register (log entry 53). -/
theorem regWrite_beyond (s : State) (h : Half) {o : Nat} (v : Nat) (ho : 0xD00000 ≤ o) : s.regWrite h o v = s := by
  rw [State.regWrite, if_neg (by omega), if_neg (by omega), if_neg (by omega), if_neg (by omega), if_neg (by omega)]

/-- The first word of a region descriptor (R315). -/
theorem regWrite_region (s : State) (h : Half) {k : Nat} (v : Nat) (hk : k < 64) :
    s.regWrite h (0x800100 + 32 * k) v =
      if (s.half h).prot.lock then
        s.logUnlisted h .writeRefused { code := 0, unit := 0xFF, detail := 0x800100 + 32 * k }
      else s.modProt h (fun p => { p with staged := tmod {} p.staged k (RegionDesc.put 0 v) }) := by
  have index : (0x100 + 32 * k - 0x100) / 32 = k := by omega
  have word : (0x100 + 32 * k) % 32 = 0 := by omega
  have offset : 0x800000 + (0x100 + 32 * k) = 0x800100 + 32 * k := by omega
  rw [← offset, regWrite_prot s h v (by omega), State.protWrite, if_neg (by omega), if_pos (by omega), index, word]
  rfl

/-- A register of a result ring (R280). -/
theorem regWrite_ring (s : State) (h : Half) {r w : Nat} (v : Nat) (hr : r < 4) (hw : w < 0x40) :
    s.regWrite h (0x402000 + 0x40 * r + w) v = s.ringWrite h r w v := by
  have ring : (0x2000 + 0x40 * r + w - 0x2000) / 0x40 = r := by omega
  have word : (0x2000 + 0x40 * r + w) % 0x40 = w := by omega
  have offset : 0x400000 + (0x2000 + 0x40 * r + w) = 0x402000 + 0x40 * r + w := by omega
  rw [← offset, regWrite_hzn s h v (by omega), State.hznWrite, if_neg (by omega), if_neg (by omega), if_neg (by omega),
    if_neg (by omega), if_neg (by omega), if_pos (by omega), ring, word]

/-- An enabled ring refuses every write but one of RING_CTL that clears ENABLE (R453). -/
theorem ringWrite_refused {s : State} {h : Half} {r w v : Nat} (on : (s.ring h r).enable = true)
    (stays : w ≠ 0x10 ∨ flag v 31 = true) :
    s.ringWrite h r w v =
      s.logUnlisted h .writeRefused { code := 0, unit := 7, detail := 0x402000 + 0x40 * r + w } := by
  rw [State.ringWrite, if_pos (by rcases stays with n | n <;> simp [on, n])]
  rfl

theorem ringWrite_base {s : State} {h : Half} {r v : Nat} (off : (s.ring h r).enable = false) (hv : v < 2 ^ 64) :
    s.ringWrite h r 0 v = s.modRing h r (fun g => { g with base := v }) := by
  rw [State.ringWrite, if_neg (by simp [off]), if_pos rfl, Nat.mod_eq_of_lt hv]

theorem ringWrite_control {s : State} {h : Half} {r v : Nat} (ok : (s.ring h r).enable = false ∨ flag v 31 = false) :
    s.ringWrite h r 0x10 v = s.modRing h r (Ring.control v) := by
  rw [State.ringWrite, if_neg (by rcases ok with n | n <;> simp [n]), if_neg (by decide), if_neg (by decide), if_pos rfl]

theorem Ring.control_enables {g : Ring} {v : Nat} (off : g.enable = false) (on : flag v 31 = true) :
    (Ring.control v g).enable = true ∧ (Ring.control v g).producer = 0 ∧ (Ring.control v g).nextSeq = 0 ∧
      (Ring.control v g).consumer = 0 ∧ (Ring.control v g).dropped = 0 := by
  simp [Ring.control, off, on]

theorem Ring.control_disables (g : Ring) {v : Nat} (off : flag v 31 = false) :
    (Ring.control v g).enable = false ∧ (Ring.control v g).producer = g.producer ∧
      (Ring.control v g).nextSeq = g.nextSeq := by
  simp [Ring.control, off]

/-- Settles O57: the world decides first, then the block and the register in which the offset lies. -/
theorem registerWrites : Obligations.RegisterWrites := by
  intro t h k r off v s0 s hl
  refine ⟨congrArg _ (onLive_of_live _ hl), congrArg _ (onLive_of_live _ hl), fun hk free => ?_, fun hk locked => ?_,
    fun hr off => ?_, fun hr on => ?_, fun hr ok => ?_, fun hr on stays => ?_, fun _ off on => Ring.control_enables off on,
    fun g off => Ring.control_disables g off, regWrite_hzn s h v.toNat (o := 8) (by decide),
    regWrite_hbm s h v.toNat (o := 8) (by decide), regWrite_beyond s h v.toNat⟩
  · rw [regWrite_region s h _ hk, if_neg (by simp [free])]
  · rw [regWrite_region s h _ hk, if_pos locked]
  · exact (regWrite_ring s h (w := 0) _ hr (by decide)).trans (ringWrite_base off v.isLt)
  · exact (regWrite_ring s h (w := 0) _ hr (by decide)).trans (ringWrite_refused on (.inl (by decide)))
  · rw [Nat.add_right_comm 0x402000 0x10, regWrite_ring s h _ hr (by decide), ringWrite_control ok]
  · rw [Nat.add_right_comm 0x402000 0x10, regWrite_ring s h _ hr (by decide), ringWrite_refused on (.inr stays)]

/-! ### The state after reset (R5, R171, R258, R259, R316, R349, R400, R433) -/

theorem resetMemoriesCanonical : Claim.ResetMemoriesCanonical := ⟨rfl, rfl⟩

theorem reset_stream (h : Half) (k : Nat) : State.reset.stream h k = {} := by cases h <;> rfl

theorem reset_ring (h : Half) (r : Nat) : State.reset.ring h r = {} := by cases h <;> rfl

theorem reset_cue (c : Nat) : State.reset.cue c = {} := by
  unfold State.cue
  cases cueHome c <;> rfl

/-- Settles O60: the two halves differ in their CAN FD identifiers alone, and a table that lists nothing reads as its
entry's default everywhere. -/
theorem resetState : Obligations.ResetState := by
  refine ⟨rfl, rfl, resetMemoriesCanonical, fun h => ?_⟩
  have streams : ∀ k, (State.reset.stream h k).cfg.enabled = false ∧ (State.reset.stream h k).cfg.leaderLine = 1 :=
    fun k => reset_stream h k ▸ ⟨rfl, rfl⟩
  have rings : ∀ r, (State.reset.ring h r).enable = false := fun r => reset_ring h r ▸ rfl
  have cues : ∀ c, (State.reset.cue c).counter = 0 ∧ (State.reset.cue c).ceiling = 8 ∧ (State.reset.cue c).waiters = [] :=
    fun c => reset_cue c ▸ ⟨rfl, rfl, rfl⟩
  have regulators : ∀ p, p < 8 → (State.reset.half h).dolly.regHbm.getD p 0 = 0x040C000000000000#64 := by
    cases h <;> decide
  have shares : ∀ p, p < 8 → (State.reset.half h).link.share.getD p 0 = 64 := by cases h <;> decide
  cases h <;> exact ⟨by decide, rfl, rfl, rfl, rfl, rfl, rfl, regulators, rfl, rfl, shares, rfl, rfl, rfl, rfl, rfl, rfl,
    rfl, rfl, rfl, rfl, streams, rings, cues⟩

end Sys2Proof.Machine
end

section
/-! Proofs of the statements on the straggler's backup (R342, R375) and its print token (R343). -/

namespace Sys2Proof.Machine

open Sys2Proof

/-! ### A job under changes that do not concern it -/

/-- A job is read from its half's table of jobs alone. -/
theorem job_congr {s u : State} {h : Half} (c : Nat) (e : (u.half h).disp.jobs = (s.half h).disp.jobs) :
    u.job h c = s.job h c := by
  simp only [State.job, e]

@[simp] theorem modLink_job (s : State) (p h : Half) (c : Nat) (f : Link → Link) :
    (s.modLink p f).job h c = s.job h c :=
  job_congr c (by cases p <;> cases h <;> rfl)

@[simp] theorem modCue_job (s : State) (h : Half) (c cue : Nat) (f : Cue → Cue) :
    (s.modCue cue f).job h c = s.job h c := by
  unfold State.modCue
  generalize cueHome cue = p
  exact job_congr c (by cases p <;> cases h <;> rfl)

@[simp] theorem send_job (s : State) (p h : Half) (c : Nat) (m : CtrMessage) : (s.send p m).job h c = s.job h c := by
  unfold State.send
  split
  · exact modLink_job ..
  · rfl

@[simp] theorem tokenTo_job (s : State) (h : Half) (k seq c : Nat) (p : Half) :
    (s.tokenTo h k seq p).job h c = s.job h c :=
  job_congr c (congrArg Disp.jobs (modStream_half_disp ..))

/-- A change that would keep a job keeps it, whichever job it is made to. -/
theorem modJob_job_of_keeps {s : State} {h : Half} {c : Nat} {f : Job → Job} (keeps : f (s.job h c) = s.job h c)
    (p : Half) (k : Nat) : (s.modJob p k f).job h c = s.job h c := by
  obtain rfl | rfl : p = h ∨ p = otherHalf h := by cases p <;> cases h <;> simp [otherHalf]
  · by_cases hc : c = k
    · subst hc
      exact (modJob_job ..).trans keeps
    · exact modJob_job_ne s p f hc
  · have other : (s.modJob (otherHalf h) k f).half h = s.half h := by simpa using modJob_other s (otherHalf h) k f
    exact job_congr c (by rw [other])

/-! ### Serving the waiters of a cue resumes parked commands alone (R330) -/

/-- The job's command is in execution and does not wait for its cue condition. -/
def Job.unparked (j : Job) : Prop := ∃ e, j.exec = some e ∧ e.phase ≠ .parked

theorem Job.resume_of_unparked {j : Job} (hj : j.unparked) (now cue amount : Nat) (acquired : Bool) :
    Job.resume now cue amount acquired j = j := by
  obtain ⟨e, he, hp⟩ := hj
  simp only [Job.resume, he, if_neg hp]

theorem serve_job {s : State} {h : Half} {c : Nat} (hj : (s.job h c).unparked) (cue : Nat) (w : Waiter) :
    (s.serve cue w).job h c = s.job h c := by
  unfold State.serve
  split
  · exact modJob_job_of_keeps (Job.resume_of_unparked hj ..) ..
  · exact send_job ..

theorem serveAll_job {h : Half} {c : Nat} (cue : Nat) (l : List Waiter) {s : State} (hj : (s.job h c).unparked) :
    (s.serveAll cue l).job h c = s.job h c := by
  induction l generalizing s with
  | nil => rfl
  | cons w r ih =>
    have served := serve_job hj cue w
    exact (ih (served ▸ hj)).trans served

theorem raiseCue_job {s : State} {h : Half} {c : Nat} (hj : (s.job h c).unparked) (cue amount : Nat) :
    (s.raiseCue cue amount).job h c = s.job h c := by
  unfold State.raiseCue State.evalCue
  simp only [serveAll_job, modCue_job, hj]

theorem returnEscrow_job {h : Half} {c : Nat} (home : Half) (l : List (Nat × Nat)) {s : State}
    (hj : (s.job h c).unparked) : (s.returnEscrow home l).job h c = s.job h c := by
  induction l generalizing s with
  | nil => rfl
  | cons p r ih =>
    obtain ⟨cue, amount⟩ := p
    unfold State.returnEscrow
    split
    · have raised := raiseCue_job hj cue amount
      exact (ih (raised ▸ hj)).trans raised
    · exact ih hj

/-! ### A killed command, and one that holds its token -/

/-- A command that is not being killed yet is, by a kill after which nothing is issued (R36). -/
theorem kill_none_exec {s : State} {h : Half} {ctx : Nat} {e : Exec} (he : (s.job h ctx).exec = some e)
    (hp : e.phase ≠ .killing) :
    ((s.kill h ctx .none).job h ctx).exec.map (fun x => (x.phase, x.retake)) = some (.killing, .none) := by
  unfold State.kill
  simp only [he, if_neg hp, reduceCtorEq, if_false]
  rw [returnEscrow_job, modJob_job]
  · rfl
  · rw [modJob_job]
    exact ⟨_, rfl, by simp⟩

theorem holdToken_exec {s : State} {h : Half} {ctx : Nat} {e : Exec} (he : (s.job h ctx).exec = some e) :
    ((s.holdToken h ctx).job h ctx).exec = some { e with tokenHeld := true } := by
  simp only [State.holdToken, modJob_job, he, Option.map_some]

/-! ### What releases a straggler's backup (R247, R342, R344, R375) -/

/-- The shadow's frame may have a backup: it is unmarked, unstriped and without a record, and no run of it is under way
(R247, R342, R344). -/
def State.backupOpen (s : State) (h : Half) (k : Nat) (f : Frame) (en : StreamEntry) : Prop :=
  en.shadow = true ∧ f.marked = false ∧ (s.half h).stripes k = false ∧ f.recorded = false ∧
    (s.half h).runsOf k f.seq = []

section
variable {s : State} {h : Half} {k : Nat} {f : Frame} {en : StreamEntry}

theorem tryBackup_of_none (hn : f.marked = true ∨ f.recorded = true ∨ (s.half h).stripes k = true) :
    s.tryBackup h k f = s := by
  unfold State.tryBackup
  split
  · rfl
  · rw [if_pos (by rcases hn with m | r | st <;> simp [*])]

/-- With its partner, the link and a free probe, a half that does not hold the tokens releases the backup (R342). -/
theorem tryBackup_of_probe (he : (s.half h).streamEntry k = some en) (tokens : (s.half h).isl.holdsTokens = false)
    (kept : f.kept = false) (o : s.backupOpen h k f en) (paired : (s.half h).isl.paired = true)
    (link : s.linkUp h = true) (probe : s.probeFree h k f.seq = true) :
    s.tryBackup h k f = s.release h en.jobCtx (some f.seq) := by
  obtain ⟨shadow, marked, stripes, recorded, runs⟩ := o
  simp [State.tryBackup, *]

/-- Without partner, link or a free probe none is released, whatever the frame (R342). -/
theorem tryBackup_of_no_probe (tokens : (s.half h).isl.holdsTokens = false) (kept : f.kept = false)
    (no : (s.half h).isl.paired = false ∨ s.linkUp h = false ∨ s.probeFree h k f.seq = false) :
    s.tryBackup h k f = s := by
  have unprobed : ((s.half h).isl.paired && s.linkUp h && s.probeFree h k f.seq) = false := by
    rcases no with n | n | n <;> simp [n]
  simp only [State.tryBackup, tokens, kept, unprobed]
  split
  · rfl
  · simp

theorem tryBackup_of_delivered (own : (s.half h).isl.holdsTokens = true ∨ f.kept = true)
    (d : s.reportedDelivered h k f.seq = true) : s.tryBackup h k f = s := by
  have takes : ((s.half h).isl.holdsTokens || f.kept) = true := by simpa using own
  simp only [State.tryBackup, takes, d, if_true, ite_self]
  split <;> rfl

theorem tryBackup_of_takeover (he : (s.half h).streamEntry k = some en)
    (own : (s.half h).isl.holdsTokens = true ∨ f.kept = true) (o : s.backupOpen h k f en)
    (d : s.reportedDelivered h k f.seq = false) : s.tryBackup h k f = s.release h en.jobCtx (some f.seq) := by
  have takes : ((s.half h).isl.holdsTokens || f.kept) = true := by simpa using own
  obtain ⟨shadow, marked, stripes, recorded, runs⟩ := o
  simp [State.tryBackup, *]

end

/-- What a probe finds of a frame that the home half has begun (R342). -/
theorem probeFree_iff {s : State} {h : Half} {k j seq : Nat} {g : Frame} (hj : s.twin h k = some j)
    (hg : (s.stream (otherHalf h) j).frame? seq = some g) :
    s.probeFree h k seq = true ↔ g.token = .free ∧ g.recorded = false := by
  simp [State.probeFree, hj, hg]

section
variable {t k seq l : Nat} {h : Half} {f : Frame} {en : StreamEntry} {s : State}

/-- BACKUP_TIME of a frame whose last row has not landed (R342). -/
theorem execBackupTime_of_not_landed (hl : (s.advance t).live h = true)
    (hf : ((s.advance t).stream h k).frame? seq = some f) (he : ((s.advance t).half h).streamEntry k = some en)
    (landed : f.lastLanding = none) : execBackupTime t h k seq s = .next (s.advance t) := by
  simp only [execBackupTime, onLive_of_live _ hl, hf, he, landed]

/-- BACKUP_TIME of a landed frame: once, at its time, and for a shadow context (R342). -/
theorem execBackupTime_of_landed (hl : (s.advance t).live h = true)
    (hf : ((s.advance t).stream h k).frame? seq = some f) (he : ((s.advance t).half h).streamEntry k = some en)
    (landed : f.lastLanding = some l) :
    execBackupTime t h k seq s = .next (
      let s := s.advance t
      if f.backupDue = true ∨ s.now < l + en.timeNs ∨ en.shadow = false then s
      else ((s.modFrame h k seq (fun f => { f with backupDue := true })).tryBackup h k f).dispatch h) := by
  simp only [execBackupTime, onLive_of_live _ hl, hf, he, landed, Bool.or_eq_true, decide_eq_true_eq, Bool.not_eq_true',
    or_assoc]

/-- BACKUP_TIME of a frame that is due already, or of a home context (R342). -/
theorem execBackupTime_of_done (hl : (s.advance t).live h = true)
    (hf : ((s.advance t).stream h k).frame? seq = some f) (he : ((s.advance t).half h).streamEntry k = some en)
    (done : f.backupDue = true ∨ en.shadow = false) : execBackupTime t h k seq s = .next (s.advance t) := by
  rcases landed : f.lastLanding with _ | l
  · exact execBackupTime_of_not_landed hl hf he landed
  · exact (execBackupTime_of_landed hl hf he landed).trans (congrArg _ (if_pos (done.imp_right .inr)))

end

theorem backupIsReleased : Claim.BackupIsReleased := by
  intro t h k seq l f en s0 s run hl hf he
  have at_landing := fun landed => execBackupTime_of_landed (l := l) hl hf he landed
  have done := execBackupTime_of_done hl hf he
  refine ⟨fun landed due late shadow => ?_,
    fun landed early => (at_landing landed).trans (congrArg _ (if_pos (.inr (.inl early)))),
    execBackupTime_of_not_landed hl hf he, fun due => done (.inl due), fun home => done (.inr home),
    fun shadow marked stripes recorded runs tokens kept paired link probe => ?_, tryBackup_of_none,
    tryBackup_of_no_probe, fun j g hj hg => probeFree_iff hj hg, fun own => ⟨tryBackup_of_delivered own,
      fun shadow marked stripes recorded runs d =>
        tryBackup_of_takeover he own ⟨shadow, marked, stripes, recorded, runs⟩ d⟩⟩
  · exact (at_landing landed).trans (congrArg _ (if_neg (by simpa [due, shadow] using late)))
  · exact tryBackup_of_probe he tokens kept ⟨shadow, marked, stripes, recorded, runs⟩ paired link probe

/-! ### Who answers a request for a print token (R306, R343) -/

theorem idleAnswer_of_answer {s : State} {h : Half} {ctx : Nat} {granted : Bool}
    (m : s.nextMessage h = some (.tokenAnswer ctx granted)) : s.idleAnswer h ctx = s.dropMessage h := by
  simp only [State.idleAnswer, m, if_true]

theorem idleAnswer_of_no_answer {s : State} {h : Half} {ctx : Nat}
    (no : ∀ g, s.nextMessage h ≠ some (.tokenAnswer ctx g)) : s.idleAnswer h ctx = s := by
  unfold State.idleAnswer
  split
  next c g m => exact if_neg (fun hc : c = ctx => no g (hc ▸ m))
  next => rfl

theorem tokenWait_of_held {s : State} {h : Half} {ctx : Nat} {e : Exec} (he : (s.job h ctx).exec = some e)
    (held : e.tokenHeld = true) : s.tokenWait h ctx = none := by
  simp only [State.tokenWait, he, held, or_true, if_true]

theorem tokenWait_of_written {s : State} {h : Half} {ctx k par : Nat} {e : Exec} {f : Frame}
    (he : (s.job h ctx).exec = some e) (hp : e.phase = .written) (without : e.tokenHeld = false)
    (res : (s.half h).resultOf (e.recs.getLastD (parseRec [])) = some (k, par))
    (hf : s.resultFrame h ctx k par = some f) (marked : f.marked = false) (recorded : f.recorded = false) :
    s.tokenWait h ctx = some (k, f) := by
  simp only [State.tokenWait, he, hp, without, res, hf, marked, recorded]
  rfl

section
variable {s : State} {h : Half} {ctx k : Nat} {f : Frame} (tie : Bool) {t : Nat}

theorem execPrintTokenGrant_of_idle (hl : (s.advance t).live h = true) (w : (s.advance t).tokenWait h ctx = none) :
    execPrintTokenGrant t h ctx tie s = .next ((s.advance t).idleAnswer h ctx) := by
  simp only [execPrintTokenGrant, onLive_of_live _ hl, w]

/-- A home context asks its own half (R343). -/
theorem execPrintTokenGrant_of_home (hl : (s.advance t).live h = true)
    (w : (s.advance t).tokenWait h ctx = some (k, f)) (home : ((s.advance t).stream h k).cfg.shadow = false) :
    execPrintTokenGrant t h ctx tie s = .next (((s.advance t).homeRequest h ctx k f).dispatchBoth) := by
  simp [execPrintTokenGrant, onLive_of_live _ hl, w, home]

/-- A shadow context whose half delivers the frame has the answer from its own half (R343, R375). -/
theorem execPrintTokenGrant_of_delivering (hl : (s.advance t).live h = true)
    (w : (s.advance t).tokenWait h ctx = some (k, f)) (shadow : ((s.advance t).stream h k).cfg.shadow = true)
    (own : (s.advance t).deliversFrame h k f = true) :
    execPrintTokenGrant t h ctx tie s = .next (
      if f.token = .heldBy (otherHalf h) then ((s.advance t).kill h ctx .none).dispatch h
      else ((s.advance t).tokenTo h k f.seq h).holdToken h ctx) := by
  simp [execPrintTokenGrant, onLive_of_live _ hl, w, shadow, own]

/-- Without a way to the home half the command is killed (R343). -/
theorem execPrintTokenGrant_of_no_path (hl : (s.advance t).live h = true)
    (w : (s.advance t).tokenWait h ctx = some (k, f)) (shadow : ((s.advance t).stream h k).cfg.shadow = true)
    (asks : (s.advance t).deliversFrame h k f = false) (path : (s.advance t).tokenPath h = false) :
    execPrintTokenGrant t h ctx tie s = .next (((s.advance t).kill h ctx .none).dispatch h) := by
  simp [execPrintTokenGrant, onLive_of_live _ hl, w, shadow, asks, path]

/-- The home half's answer to the command (R306, R343). -/
theorem execPrintTokenGrant_of_answer {granted : Bool} (hl : (s.advance t).live h = true)
    (w : (s.advance t).tokenWait h ctx = some (k, f)) (shadow : ((s.advance t).stream h k).cfg.shadow = true)
    (asks : (s.advance t).deliversFrame h k f = false) (path : (s.advance t).tokenPath h = true)
    (m : (s.advance t).nextMessage h = some (.tokenAnswer ctx granted)) :
    execPrintTokenGrant t h ctx tie s =
      .next ((((s.advance t).dropMessage h).takeAnswer h ctx k f.seq granted).dispatchBoth) := by
  simp [execPrintTokenGrant, onLive_of_live _ hl, w, shadow, asks, path, m]

/-- Where no message comes, the home half is asked (R306, R343). -/
theorem execPrintTokenGrant_of_no_message (hl : (s.advance t).live h = true)
    (w : (s.advance t).tokenWait h ctx = some (k, f)) (shadow : ((s.advance t).stream h k).cfg.shadow = true)
    (asks : (s.advance t).deliversFrame h k f = false) (path : (s.advance t).tokenPath h = true)
    (m : (s.advance t).nextMessage h = none) :
    execPrintTokenGrant t h ctx tie s = .next ((s.advance t).askToken h ctx k f.seq) := by
  simp [execPrintTokenGrant, onLive_of_live _ hl, w, shadow, asks, path, m]

end

theorem homeRequest_of_partner {s : State} {h : Half} {ctx k : Nat} {f : Frame}
    (held : f.token = .heldBy (otherHalf h)) : s.homeRequest h ctx k f = s.kill h ctx .none := if_pos held

/-- A token that the partner does not hold is granted; the partner's run is told where it has the camera (R343). -/
theorem homeRequest_of_free {s : State} {h : Half} {ctx k : Nat} {f : Frame} (free : f.token ≠ .heldBy (otherHalf h)) :
    s.homeRequest h ctx k f =
      if (s.twin h k).isSome
      then ((s.tokenTo h k f.seq h).holdToken h ctx).send h (.stopRuns (s.stream h k).cfg.camera f.seq)
      else (s.tokenTo h k f.seq h).holdToken h ctx := if_neg free

theorem tokensAreGranted : Claim.TokensAreGranted := by
  intro t h k ctx par tie granted f e s0 s run held denied shadow hl he hp
  refine ⟨fun has => execPrintTokenGrant_of_idle tie hl (tokenWait_of_held he has), idleAnswer_of_answer,
    idleAnswer_of_no_answer, fun without res hf marked recorded => ?_⟩
  have w : s.tokenWait h ctx = some (k, f) := tokenWait_of_written he hp without res hf marked recorded
  have home : ∀ u, shadow = false → s.homeRequest h ctx k f = u → run = .next u.dispatchBoth :=
    fun u hs answer => answer ▸ execPrintTokenGrant_of_home tie hl w hs
  have delivering := execPrintTokenGrant_of_delivering tie hl w
  refine ⟨holdToken_exec ((tokenTo_job s h k f.seq ctx h).symm ▸ he), kill_none_exec he (by simp [hp]),
    fun hs free twin => home _ hs ((homeRequest_of_free free).trans (if_pos twin)),
    fun hs free none => home _ hs ((homeRequest_of_free free).trans (if_neg (Option.not_isSome_iff_eq_none.mpr none))),
    fun hs taken => home _ hs (homeRequest_of_partner taken),
    fun hs own free => (delivering hs own).trans (congrArg _ (if_neg free)),
    fun hs own taken => (delivering hs own).trans (congrArg _ (if_pos taken)),
    execPrintTokenGrant_of_no_path tie hl w,
    fun hs asks path =>
      ⟨execPrintTokenGrant_of_answer tie hl w hs asks path, execPrintTokenGrant_of_no_message tie hl w hs asks path⟩⟩

/-- Settles O34: a backup's time and what releases it, and whose answer a request for a print token gets. -/
theorem backupAndToken : Obligations.BackupAndToken := ⟨backupIsReleased, tokensAreGranted⟩

end Sys2Proof.Machine
end
